-- ==== Sys2Proof/Word.lean ====
section
/-! DEFINITION. The plain word types of the Ruzia wire and of the engine's registers (R10, R13). -/
namespace Sys2Proof

/-- One byte of a payload, a mailbox slot or an internal address. -/
abbrev Byte := BitVec 8

/-- One 32-bit register, one binary32 sample or one 4-byte Ruzia field. -/
abbrev Word := BitVec 32

end Sys2Proof
end

