-- ==== Sys2Proof/Syntax.lean ====
section
/-! DEFINITION. The commands of the block: one constructor of `Instr` per row of the table, with the
operand types they carry. A Ruzia command carries its frame (R280): the header fields and the payload
bytes, read by each meaning at the offsets of chapter 11. An event carries what the outside world
supplies with it. -/
namespace Sys2Proof

/-- The carrier a Ruzia frame came by (R280, R295). -/
inductive Via where
  | pcie
  | udp (addr port : Nat)
  | seam (engine : Nat)
  deriving DecidableEq, Repr

/-- A Ruzia command frame (R280). `len` is the header's LENGTH, `res` the header bytes 12-15. -/
structure CmdFrame where
  via : Via
  desk : Nat
  seq : Nat
  flags : Nat
  res : Nat
  len : Nat
  payload : List Byte
  deriving DecidableEq, Repr

/-- A fragment frame (R299). -/
structure Fragment where
  via : Via
  desk : Nat
  seq : Nat
  len : Nat
  index : Nat
  res : Nat
  data : List Byte
  deriving DecidableEq, Repr

/-- A UDP datagram on port 39713 (R291). `macOk` is the verdict of the HMAC comparison. -/
structure Datagram where
  port : Nat
  addr : Nat
  srcPort : Nat
  magicOk : Bool
  version : Nat
  kind : Nat
  desk : Nat
  frameLen : Nat
  macOk : Bool
  bytes : List Byte
  deriving DecidableEq, Repr

/-- A control record of the Seam control channel (R378). -/
structure CtrlRec where
  typ : Nat
  ttl : Nat
  src : Nat
  dst : Nat
  body : List Byte
  deriving DecidableEq, Repr

/-- A quarry recall message (R380). -/
structure QuarryMsg where
  recallId : Nat
  engine : Nat
  s : Nat
  number : Nat
  strict : Bool
  overrides : List Byte
  status : Nat
  excluded : List Nat
  deriving DecidableEq, Repr

/-- A transaction of a matrix master (R534-R539): little-endian `data` for a write. -/
structure Access where
  master : Nat
  addr : Nat
  bytes : Nat
  enables : List Bool
  write : Bool
  data : List Byte
  deriving DecidableEq, Repr

/-- The boot ROM's verdict on an image (R557, R558): the first failing check 1-5, or 0. -/
structure ImageVerdict where
  slot : Nat
  failed : Nat
  version : Nat
  svn : Nat
  deriving DecidableEq, Repr

/-- One TDM frame at a port (R413, R423, R424): validity, the data word of each slot, the slots whose
guard bits read 1, and per slot the count of read-back bits that differ. -/
structure TdmFrame where
  valid : Bool
  words : List Word
  guards : List Bool
  readback : List Nat
  deriving DecidableEq, Repr

/-- The fields of a Seam frame header a receiver uses (R362); `ok` is the verdict of ASH_CHK and HDR_CRC. -/
structure SeamHdr where
  ok : Bool
  ashOk : Bool
  ashlar : Nat
  engine : Nat
  keeper : Nat
  hops : Nat
  topo : Nat
  claim : Nat
  quality : Nat
  epoch : Nat
  mult : Nat
  window : Nat
  p : Nat
  nextP : Nat
  nextPAshlar : Nat
  rxOffset : Int
  inTime : Bool
  delayPs : Nat
  records : List CtrlRec
  deriving DecidableEq, Repr

/-- A Seam segment as received (R363): `ok` says no code error, a good SEG byte and a good CRC. -/
structure Segment where
  ok : Bool
  seg : Nat
  resend : Bool
  ashlar : Nat
  payload : List Word
  records : List CtrlRec
  deriving DecidableEq, Repr

/-- One lane entry of a topology report (R381). -/
structure TopoEntry where
  lane : Nat
  state : Nat
  peer : Nat
  window : Nat
  flags : Nat
  delayPs : Nat
  deriving DecidableEq, Repr

/-- A Tether header (R465). -/
structure TetherHdr where
  ashlar : Nat
  member : Nat
  setId : Nat
  mode : Nat
  role : Nat
  claim : Nat
  own : Bool
  fence : Bool
  ready : Bool
  rejoin : Bool
  epoch : Nat
  ackEpoch : Nat
  peers : List Nat
  deriving DecidableEq, Repr

/-- A record of the delta, configuration or state parts of a Tether frame (R466, R467, R483). `resp` is the active's response
frame; an `item` is one state image, by its key. -/
inductive TetherRec where
  | command (epoch order opcode : Nat) (cmd : CmdFrame) (resp : List Byte)
  | bulk (seq desk offset : Nat) (data : List Byte)
  | decision (kind object index : Nat) (value : Int)
  | delivered (desk eventSeq newest : Nat)
  | switch (target boundary : Nat)
  | item (handle sub : Nat)
  | imageEnd
  | stateEnd
  deriving DecidableEq, Repr

/-- What a Tether frame brings (R465-R472): the records of its DELTA, CONFIG and STATE segments, and its DIGEST. -/
structure TetherFrame where
  hdr : TetherHdr
  records : List TetherRec
  config : List TetherRec
  state : List TetherRec
  slice : Nat
  digest : Option (BitVec 64)
  votes : List (Nat × Nat)
  deriving DecidableEq, Repr

/-- What the hardware finds wrong: an error of a checked read (R488, R491) with the second read's result and whether it is
correctable, or an instance stopped at its bound or outside its windows (R108, R109). `content` says what the word holds: 0 ring
sample, 1 ring tag, 2 node or row record, 3 instance state, 4 instance code, 5 control processor SRAM, 6 command slot, 7 response or
event slot, 8 deep body, delay line or capture, 9 Scene copy, 10 package store, 11 firmware working set, 12 copy of node gains, 13 a
flash record; 14 an overrun, 15 a trap. `obj` names the object concerned and `sub` the place in it. -/
structure MemError where
  kind : Nat
  unit : Nat
  address : Nat
  correctable : Bool
  rereadClean : Bool
  content : Nat
  obj : Nat
  sub : Nat
  deriving DecidableEq, Repr

/-- A received stream datagram's fields (R395, R396). -/
structure RtpPacket where
  dst : Nat
  src : Nat
  udp : Nat
  checksumOk : Bool
  version : Nat
  pt : Nat
  seqNo : Nat
  timestamp : Nat
  payload : List Byte
  deriving DecidableEq, Repr

/-- What an Ethernet frame carries, as the MAC and the protocol filters see it (R385-R387). -/
inductive EthBody where
  | arpRequest (target : Nat)
  | arpReply (ip mac : Nat)
  | igmpQuery
  | icmpEcho
  | ptp
  | ruzia (d : Datagram)
  | rtp (p : RtpPacket)
  | unsupported
  deriving DecidableEq, Repr

structure EthFrame where
  length : Nat
  tag : Option Nat
  fcsOk : Bool
  body : EthBody
  deriving DecidableEq, Repr

/-- A PTP message's fields the instance uses (R403-R407). -/
inductive PtpMsg where
  | announce (clockClass clockAccuracy priority1 priority2 steps : Nat) (identity : Nat) (utc : Int) (leap : Nat)
  | sync (offsetNs : Int)
  | delayReq (unicast : Bool)
  | delayResp
  | management
  | discarded
  deriving DecidableEq, Repr

/-- One command of the block. The rows of spec/opcode_table.json in the table's order. -/
inductive Instr where
  | sysInfo (f : CmdFrame)
  | sysSnapshot (f : CmdFrame)
  | sysRestart (f : CmdFrame)
  | sysImageWrite (f : CmdFrame)
  | deskInfo (f : CmdFrame)
  | deskOpen (f : CmdFrame)
  | deskClose (f : CmdFrame)
  | deskPing (f : CmdFrame)
  | deskAttach (f : CmdFrame)
  | deskAttachEffect (desk : Nat)
  | deskKeySet (f : CmdFrame)
  | deskQuotaSet (f : CmdFrame)
  | deskDefaultsSet (f : CmdFrame)
  | deskEventReplay (f : CmdFrame)
  | stripInfo (f : CmdFrame)
  | stripAlloc (f : CmdFrame)
  | stripFree (f : CmdFrame)
  | stripParamSet (f : CmdFrame)
  | stripParamGet (f : CmdFrame)
  | busInfo (f : CmdFrame)
  | busAlloc (f : CmdFrame)
  | busFree (f : CmdFrame)
  | busParamSet (f : CmdFrame)
  | busParamGet (f : CmdFrame)
  | busAttrSet (f : CmdFrame)
  | busLayout (f : CmdFrame)
  | nodeTilesInfo (f : CmdFrame)
  | nodeTilesAlloc (f : CmdFrame)
  | nodeTilesFree (f : CmdFrame)
  | nodeTilesDefault (f : CmdFrame)
  | nodeSet (f : CmdFrame)
  | nodeBulk (f : CmdFrame)
  | nodeGet (f : CmdFrame)
  | nodeLoadComplete (order : Nat)
  | groupInfo (f : CmdFrame)
  | groupAlloc (f : CmdFrame)
  | groupFree (f : CmdFrame)
  | groupSet (f : CmdFrame)
  | groupMemberSet (f : CmdFrame)
  | ringInfo (f : CmdFrame)
  | ringAlloc (f : CmdFrame)
  | ringFree (f : CmdFrame)
  | ringDeep (f : CmdFrame)
  | routeInfo (f : CmdFrame)
  | routeCreate (f : CmdFrame)
  | routeDelete (f : CmdFrame)
  | routeCut (f : CmdFrame)
  | routeKerf (f : CmdFrame)
  | routeSet (f : CmdFrame)
  | routePolicy (f : CmdFrame)
  | portInfo (f : CmdFrame)
  | portAssign (f : CmdFrame)
  | portTdmConfig (f : CmdFrame)
  | portSlotBind (f : CmdFrame)
  | portDitherSet (f : CmdFrame)
  | portQuadMode (f : CmdFrame)
  | portGpiBind (f : CmdFrame)
  | portGpoBind (f : CmdFrame)
  | portGpoSet (f : CmdFrame)
  | portGpoClear (f : CmdFrame)
  | streamInfo (f : CmdFrame)
  | streamRxCreate (f : CmdFrame)
  | streamTxCreate (f : CmdFrame)
  | streamDelete (f : CmdFrame)
  | streamSdpGet (f : CmdFrame)
  | streamSdpSet (f : CmdFrame)
  | sceneInfo (f : CmdFrame)
  | sceneStore (f : CmdFrame)
  | sceneStoreComplete (desk seq : Nat)
  | sceneDelete (f : CmdFrame)
  | sceneRecall (f : CmdFrame)
  | sceneCancel (f : CmdFrame)
  | sceneArm (f : CmdFrame)
  | sceneGo (f : CmdFrame)
  | sceneSafeSet (f : CmdFrame)
  | sceneNumberSet (f : CmdFrame)
  | scenePlanGet (f : CmdFrame)
  | recallPlanPoint (recallId : Nat)
  | quarryArm (m : QuarryMsg)
  | quarryReady (m : QuarryMsg)
  | quarryLate (m : QuarryMsg)
  | quarryRetarget (m : QuarryMsg)
  | quarryGo (m : QuarryMsg)
  | quarryAbort (m : QuarryMsg)
  | keeperDecisionPoint (recallId : Nat)
  | recallOrphanDeadline (recallId : Nat)
  | domainInfo (f : CmdFrame)
  | domainConfig (f : CmdFrame)
  | domainStart (f : CmdFrame)
  | domainStop (f : CmdFrame)
  | domainRateSet (f : CmdFrame)
  | domainBridgeAlloc (f : CmdFrame)
  | domainBridgeFree (f : CmdFrame)
  | domainBridgeInfo (f : CmdFrame)
  | domainStopInstant (dom : Nat)
  | domainRestartInstant (dom : Nat)
  | domainFadeInEnd (dom : Nat)
  | timingInfo (f : CmdFrame)
  | timingNow (f : CmdFrame)
  | timingRefConfig (f : CmdFrame)
  | timingPllSet (f : CmdFrame)
  | timingHoldoverSet (f : CmdFrame)
  | timingOffsetSet (f : CmdFrame)
  | timingSpliceSet (f : CmdFrame)
  | timingStickyClear (f : CmdFrame)
  | timingSelect (f : CmdFrame)
  | meterInfo (f : CmdFrame)
  | meterAlloc (f : CmdFrame)
  | meterFree (f : CmdFrame)
  | meterTap (f : CmdFrame)
  | meterParamSet (f : CmdFrame)
  | meterLoudCtl (f : CmdFrame)
  | svcInfo (f : CmdFrame)
  | svcAlloc (f : CmdFrame)
  | svcFree (f : CmdFrame)
  | svcParamSet (f : CmdFrame)
  | svcParamGet (f : CmdFrame)
  | svcTalk (f : CmdFrame)
  | svcSoloSet (f : CmdFrame)
  | captureInfo (f : CmdFrame)
  | captureAlloc (f : CmdFrame)
  | captureFree (f : CmdFrame)
  | captureFreeze (f : CmdFrame)
  | capturePlay (f : CmdFrame)
  | captureStop (f : CmdFrame)
  | captureRelease (f : CmdFrame)
  | captureRead (f : CmdFrame)
  | captureParamSet (f : CmdFrame)
  | captureStopIndexReached (capture : Nat)
  | capturePlayEnd (capture : Nat)
  | redInfo (f : CmdFrame)
  | redConfig (f : CmdFrame)
  | redSwitch (f : CmdFrame)
  | redRejoin (f : CmdFrame)
  | faultLogGet (f : CmdFrame)
  | faultClear (f : CmdFrame)
  | spareInfo (f : CmdFrame)
  | spareTest (f : CmdFrame)
  | spareTestComplete (kind unit : Nat) (pass : Bool)
  | blockInfo (f : CmdFrame)
  | blockCeilingSet (f : CmdFrame)
  | blockPkgLoad (f : CmdFrame)
  | packageCheckDone (signatureOk digestOk : Bool)
  | blockPkgUnload (f : CmdFrame)
  | blockPkgList (f : CmdFrame)
  | blockKeyslotProgram (f : CmdFrame)
  | blockKeyslotRevoke (f : CmdFrame)
  | blockCreate (f : CmdFrame)
  | blockFree (f : CmdFrame)
  | blockParamSet (f : CmdFrame)
  | blockParamGet (f : CmdFrame)
  | seamInfo (f : CmdFrame)
  | seamConfig (f : CmdFrame)
  | seamLand (f : CmdFrame)
  | seamFwdSet (f : CmdFrame)
  | seamFwdGet (f : CmdFrame)
  | seamIdSet (f : CmdFrame)
  | seamPSet (f : CmdFrame)
  | seamTest (f : CmdFrame)
  | ethInfo (f : CmdFrame)
  | ethConfig (f : CmdFrame)
  | ethPtpConfig (f : CmdFrame)
  | cmdTailWrite (desk value : Nat)
  | rspHeadWrite (desk value : Nat)
  | evtHeadWrite (desk value : Nat)
  | ringCmd (desk : Nat)
  | ringRsp (desk : Nat)
  | ringEvt (desk : Nat)
  | cmdTailPoll
  | mailboxFlagsClear (desk mask : Nat)
  | protoErrCountRead (desk : Nat)
  | udpDatagramReceived (d : Datagram)
  | seamControlRecord (lane : Nat) (r : CtrlRec)
  | fragmentReceived (f : Fragment)
  | fragmentTimeout (desk : Nat)
  | bulkTransferDone (desk seq : Nat) (ok : Bool) (data : List Byte)
  | leaseExpired (desk : Nat)
  | eventDelivery (desk : Nat)
  | misfitCountRead
  | rvCountRead
  | irqStatusClear (mask : Nat)
  | stickyWrite (mask : Nat)
  | quarryTimeCapture
  | snapshotTake (bank : Nat)
  | snapRefusedClear (mask : Nat)
  | cpRemapWrite (value : Nat)
  | registerPairLowRead (cp : Bool) (offset : Nat)
  | registerWrite (offset : Nat) (value : Word)
  | matrixAccess (a : Access)
  | endpointReset
  | svRead (addr : Nat)
  | svWrite (addr : Nat) (data : Word) (chk : Byte)
  | spiErrRead
  | commandWake
  | commandDormant
  | commandRestart
  | commandClearStall
  | commandDesk0Pcie
  | supervisorPowerOn (vin : Nat)
  | supervisorPowerOff
  | wakeHigh
  | svCsSelect
  | wakeLowShutdown
  | watchIdleTimeout
  | vinRiseUvlo (vin : Nat)
  | brownoutTrigger (vin : Nat)
  | vinGuardFall (vin : Nat)
  | vinGuardRise (vin : Nat)
  | ilimHeld
  | overTemperature (temp : Int)
  | sequencingStepReady (phasesFailed strap : Nat)
  | sequencingStepTimeout
  | sequenceRetry
  | imageCheckDone (v : ImageVerdict)
  | bootChunkPost (chunk len : Nat) (data : List Byte)
  | hostLoadTimeout
  | firmwareWatchdogExpiry
  | firmwareReady (bankVio : List Nat) (rateA : Nat) (repairFailed : List Nat)
  | antiRollbackBurn
  | phaseFault (phase : Nat)
  | phaseRetry (phase : Nat)
  | phaseClean (phase : Nat)
  | ashlarSlot (dom : Nat) (bankVio : List Nat) (errors : List MemError)
  | controlTick (dom : Nat)
  | loudnessBlockStep (meter : Nat)
  | scheduledLaunch (dom : Nat)
  | twinWarmupStart (dom : Nat)
  | kerfComplete (dom : Nat)
  | writerSilenceTimeout (ring : Nat)
  | relocationSwitch (ring part bank row : Nat)
  | bankSpareSwitch (failed : Nat)
  | arraySpareSwitch (failed : Nat) (mismatches : List Nat)
  | transplantSwitch (source target : Nat) (mismatch : Bool) (lost : List Nat)
  | scrubPass (errors : List MemError)
  | backgroundTest (kind unit : Nat) (pass : Bool)
  | lockstepMismatch
  | snapshotLatch (bank : Nat)
  | quarrySnapshotRecord (bank ashlar keeper keeperSeq : Nat)
  | pllUpdate
  | referenceEvent (cand : Nat) (e : Int) (quality : Nat)
  | candidateValid (cand : Nat)
  | candidateLost (cand : Nat)
  | phaseStepApply
  | holdoverExpiry
  | calibrationWrite
  | tdmFrame (port : Nat) (f : TdmFrame)
  | tdmClockLoss (port : Nat)
  | portClockRecovered (port : Nat)
  | gpiSample (millivolts : List Int)
  | gpiChangeAccepted (gpi : Nat)
  | gpoOvercurrent (gpo : Nat)
  | gpoRetry (gpo : Nat)
  | gpoRetryHeld (gpo : Nat)
  | gpoStuckLowTimeout (gpo : Nat)
  | seamHeaderReceived (lane : Nat) (h : SeamHdr)
  | segmentReceived (lane position : Nat) (g : Segment)
  | nakReceived (lane pos frame : Nat) (chkOk : Bool)
  | retryWindowClose (lane seg ashlar : Nat)
  | laneSignalDetect (lane : Nat)
  | laneUp (lane : Nat)
  | laneAshTimeout (lane : Nat)
  | ctrlRecordExpiry (lane : Nat)
  | topologyReportSend
  | topologyReport (engine : Nat) (entries : List TopoEntry)
  | pPropose (p src : Nat)
  | pAccept (engine : Nat) (accept : Bool)
  | pVoteTimeout
  | pCommit (p ashlar : Nat)
  | pChangeApply
  | tetherFrameReceived (peer : Nat) (f : TetherFrame)
  | peerLostTimeout (peer : Nat)
  | tetherSelfRelease
  | ackTimeout (peer : Nat)
  | formationTimeout
  | ownReleaseSensed (peer : Nat)
  | takeoverSettleEnd
  | ownCollisionBackoff
  | fenceAsserted
  | ethFrameReceived (port : Nat) (f : EthFrame)
  | ethLinkChange (port : Nat) (up : Bool) (speed : Nat)
  | streamPacketLaunch (stream : Nat)
  | streamPacketReceived (port : Nat) (p : RtpPacket)
  | streamPathDownTimeout (stream path : Nat)
  | streamPathUp (stream path : Nat)
  | ptpMessageReceived (port : Nat) (m : PtpMsg)
  | ptpMessageInterval (port kind : Nat)
  | announceReceiptTimeout (port : Nat)
  | arpRefresh (port ip : Nat)
  | dhcpLeaseEvent (port addr mask gateway : Nat)
  | ownAssertSensed (peer : Nat)
  | fenceReleased
  | pcieLinkUp
  deriving DecidableEq, Repr

end Sys2Proof
end

