-- ==== Sys2Proof/Machine/Float.lean ====
section
/-! DEFINITION. binary32 arithmetic of the audio path (R23), the correctly rounded words of R8, R156 and
R199, and the 40-bit accumulator of R176. A finite value is handled as an exact dyadic `m * 2^e`. -/
namespace Sys2Proof.Machine

/-- Sign bit of a binary32 word. -/
def fNeg (w : Word) : Bool := w.msb

def fExp (w : Word) : Nat := (w.toNat / 2 ^ 23) % 256

def fFrac (w : Word) : Nat := w.toNat % 2 ^ 23

/-- NaN or infinity. -/
def fSpecial (w : Word) : Bool := fExp w == 255

/-- Zero or a denormal, which is read as zero of its own sign (R23). -/
def fIsZero (w : Word) : Bool := fExp w == 0

/-- Magnitude of the significand of a finite word, 0 for zero and denormals. -/
def fMant (w : Word) : Nat := if fExp w == 0 then 0 else 2 ^ 23 + fFrac w

/-- Exponent of the unit of `fMant`. -/
def fUnit (w : Word) : Int := (fExp w : Int) - 150

def fZero (neg : Bool) : Word := if neg then 0x80000000#32 else 0#32

def fInf (neg : Bool) : Word := if neg then 0xFF800000#32 else 0x7F800000#32

def fNaN : Word := 0x7FC00000#32

/-- The largest finite word of a sign. -/
def fMax (neg : Bool) : Word := if neg then 0xFF7FFFFF#32 else 0x7F7FFFFF#32

/-- `m * 2^e` rounded to `bits` significant bits, to nearest with ties to even. -/
def roundBits (bits m : Nat) (e : Int) : Nat × Int :=
  if m < 2 ^ bits then (m, e) else
  let sh := m.log2 + 1 - bits
  let q := m / 2 ^ sh
  let r := m % 2 ^ sh
  let half := 2 ^ (sh - 1)
  let q := if r > half || (r == half && q % 2 == 1) then q + 1 else q
  (q, e + sh)

/-- The word of a value already rounded to 24 bits, by the flush rule of R23; an overflow is an infinity. -/
def packWord (neg : Bool) (m : Nat) (e : Int) : Word :=
  if m == 0 then fZero neg else
  let top : Int := e + m.log2
  if top < -126 then fZero neg
  else if top > 127 then fInf neg
  else
    let mant := if m.log2 ≤ 23 then m * 2 ^ (23 - m.log2) else m / 2 ^ (m.log2 - 23)
    BitVec.ofNat 32 ((if neg then 2 ^ 31 else 0) + (top + 127).toNat * 2 ^ 23 + (mant - 2 ^ 23))

/-- A signed dyadic as a binary32 word: one rounding, then the flush (R23). `zneg` signs an exact zero. -/
def roundWord (zneg : Bool) (m e : Int) : Word :=
  if m == 0 then fZero zneg
  else let (q, e') := roundBits 24 m.natAbs e; packWord (m < 0) q e'

/-- Two dyadics brought to one unit. -/
def alignAdd (m1 e1 m2 e2 : Int) : Int × Int :=
  if e1 ≤ e2 then (m1 + m2 * 2 ^ (e2 - e1).toNat, e1) else (m1 * 2 ^ (e1 - e2).toNat + m2, e2)

def fSigned (w : Word) : Int := if fNeg w then -(fMant w : Int) else fMant w

/-- Fused multiply-add, one rounding. -/
def fFma (a b c : Word) : Word :=
  if fSpecial a || fSpecial b || fSpecial c then
    if !fSpecial a && !fSpecial b && fFrac c == 0 then c else fNaN
  else
    let pm := fSigned a * fSigned b
    let pe := fUnit a + fUnit b
    let pneg := fNeg a != fNeg b
    if pm == 0 then
      if fIsZero c then fZero (pneg && fNeg c) else c
    else
      let (m, e) := alignAdd pm pe (fSigned c) (fUnit c)
      roundWord (pneg && fNeg c) m e

/-- Product, one rounding. -/
def fMul (a b : Word) : Word :=
  if fSpecial a || fSpecial b then fNaN
  else roundWord (fNeg a != fNeg b) (fSigned a * fSigned b) (fUnit a + fUnit b)

def fNegate (a : Word) : Word := a ^^^ 0x80000000#32

/-- Sum, one rounding. -/
def fAdd (a b : Word) : Word := fFma a 0x3F800000#32 b

def fSub (a b : Word) : Word := fAdd a (fNegate b)

def fAbs (a : Word) : Word := a &&& 0x7FFFFFFF#32

/-- The rational `n / d` as a word, correctly rounded. -/
def fRat (n : Int) (d : Nat) : Word :=
  if d == 0 || n == 0 then fZero (n < 0) else
  let k := 40 + d.log2
  let q := n.natAbs * 2 ^ k / d
  let st := if n.natAbs * 2 ^ k % d == 0 then 0 else 1
  let (m, e) := roundBits 24 (2 * q + st) (-(k : Int) - 1)
  packWord (n < 0) m e

/-- The integer `n` as a word. -/
def fInt (n : Int) : Word := roundWord false n 0

/-- Quotient, one rounding; division by zero gives zero (never used with one). -/
def fDiv (a b : Word) : Word :=
  if fIsZero b || fSpecial a || fSpecial b then fZero false
  else
    let neg := fNeg a != fNeg b
    let q := fMant a * 2 ^ 64 / fMant b
    let st := if fMant a * 2 ^ 64 % fMant b == 0 then 0 else 1
    let (m, e) := roundBits 24 (2 * q + st) (fUnit a - fUnit b - 65)
    if fIsZero a then fZero neg else packWord neg m e

/-- `a < b` of finite words. -/
def fLt (a b : Word) : Bool :=
  let (m, _) := alignAdd (fSigned a) (fUnit a) (-(fSigned b)) (fUnit b)
  m < 0

/-- Larger magnitude of two words. -/
def fMaxAbs (a b : Word) : Word := if fLt (fAbs a) (fAbs b) then fAbs b else fAbs a

/-- An ingress word: NaN and infinity become 0.0, denormals flush (R60). The Bool says replaced. -/
def fIngress (w : Word) : Word × Bool :=
  if fSpecial w then (0#32, true) else if fIsZero w then (fZero (fNeg w), false) else (w, false)

/-! ## Correctly rounded functions

Values are fixed point, scaled by `2^n`; each series below is taken with 32 guard bits, and `settle`
accepts a word only when both ends of the error interval round to it. -/

/-- `sum over k < fuel of num / ((2k+1) * x^(2k+1))` with alternating signs if `alt`. -/
def atanSeries (alt : Bool) (x2 : Nat) : Nat → Nat → Nat → Int
  | 0, _, _ => 0
  | fuel + 1, k, p =>
    let t : Int := p / (2 * k + 1)
    (if alt && k % 2 == 1 then -t else t) + atanSeries alt x2 fuel (k + 1) (p / x2)

/-- ln 2 scaled by `2^n`. -/
def ln2Fix (n : Nat) : Int := 2 * atanSeries false 9 n 0 (2 ^ n / 3)

/-- ln 10 scaled by `2^n`: three ln 2 and ln 1.25. -/
def ln10Fix (n : Nat) : Int := 3 * ln2Fix n + 2 * atanSeries false 81 n 0 (2 ^ n / 9)

/-- pi scaled by `2^n` (Machin). -/
def piFix (n : Nat) : Int :=
  16 * atanSeries true 25 n 0 (2 ^ n / 5) - 4 * atanSeries true 57121 n 0 (2 ^ n / 239)

/-- exp of a fixed-point value in `[0, 1)`. -/
def expSeries (n : Nat) (x : Int) : Nat → Nat → Int → Int
  | 0, _, _ => 0
  | fuel + 1, k, t => t + expSeries n x fuel (k + 1) (t * x / 2 ^ n / (k + 1))

/-- sin (`start` 1) and cos (`start` 0) series of a fixed-point angle. -/
def trigSeries (n : Nat) (x2 : Int) : Nat → Nat → Int → Int
  | 0, _, _ => 0
  | fuel + 1, k, t => t + trigSeries n x2 fuel (k + 2) (-(t * x2 / 2 ^ n) / ((k + 1) * (k + 2)))

def sinFix (n : Nat) (x : Int) : Int := trigSeries n (x * x / 2 ^ n) n 1 x

def cosFix (n : Nat) (x : Int) : Int := trigSeries n (x * x / 2 ^ n) n 0 (2 ^ n)

/-- Round a fixed-point value known within `2^24` units, where both ends agree. -/
def settle (n : Nat) (sh v : Int) : Option Word :=
  let lo := roundWord false (v - 2 ^ 24) (sh - n)
  let hi := roundWord false (v + 2 ^ 24) (sh - n)
  if lo == hi then some lo else none

/-- Raise the precision until the value settles. -/
def ziv (f : Nat → Int × Int) : Nat → Nat → Word
  | 0, n => let (sh, v) := f n; roundWord false v (sh - n)
  | fuel + 1, n =>
    let (sh, v) := f n
    match settle n sh v with
    | some w => w
    | none => ziv f fuel (2 * n)

/-- `10^(p/q)` as (binary exponent, fixed-point significand). -/
def pow10Fix (p : Int) (q n : Nat) : Int × Int :=
  let t := p * ln10Fix n / q
  let l := ln2Fix n
  let k := t / l
  (k, expSeries n (t - k * l) n 0 (2 ^ n))

/-- The word of 10^(p/q) (R8). -/
def fPow10 (p : Int) (q : Nat) : Word :=
  if p == 0 then 0x3F800000#32 else ziv (pow10Fix p q) 4 96

/-- The factor of a whole number of millibels (R8). -/
def fGainInt (mb : Int) : Word := fPow10 mb 2000

/-- The factor of a gain field: code 0x8000_0000 is exact 0.0 (R8). -/
def fGain (code : Nat) : Word :=
  if code == 0x80000000 then 0#32
  else fGainInt (if code < 2 ^ 31 then code else (code : Int) - 2 ^ 32)

/-- The factor of a binary32 millibel value (R8, R201). -/
def fGainMb (mb : Word) : Word :=
  if fIsZero mb then 0x3F800000#32
  else if fUnit mb ≥ 0 then fPow10 (fSigned mb * 2 ^ (fUnit mb).toNat) 2000
  else fPow10 (fSigned mb) (2000 * 2 ^ (-(fUnit mb)).toNat)

/-- sin and cos of `pi/2 * p/q`, correctly rounded, for `0 ≤ p ≤ q`. -/
def fSinHalfPi (p q : Nat) : Word :=
  if p == 0 || q == 0 then 0#32 else if p ≥ q then 0x3F800000#32
  else ziv (fun n => (0, sinFix n (piFix n * p / (2 * q)))) 4 96

def fCosHalfPi (p q : Nat) : Word :=
  if p == 0 then 0x3F800000#32 else if p ≥ q || q == 0 then 0#32
  else ziv (fun n => (0, cosFix n (piFix n * p / (2 * q)))) 4 96

/-- sin of `2 pi p / q` for any `p`, correctly rounded (the oscillator's exact phase, R275). -/
def fSinTurn (p q : Nat) : Word :=
  let r := 4 * (p % q)
  if q == 0 then 0#32
  else if r ≤ q then fSinHalfPi r q
  else if r ≤ 2 * q then fSinHalfPi (2 * q - r) q
  else if r ≤ 3 * q then fNegate (fSinHalfPi (r - 2 * q) q)
  else fNegate (fSinHalfPi (4 * q - r) q)

/-- Square root of a fixed-point value: `sqrt(v / 2^n) * 2^n`, by bisection on `bits` bits. -/
def isqrtGo (v : Nat) : Nat → Nat → Nat
  | 0, r => r
  | b + 1, r => let c := r + 2 ^ b; isqrtGo v b (if c * c ≤ v then c else r)

def sqrtFix (n : Nat) (v : Int) : Int := isqrtGo (v.toNat * 2 ^ n) (n + 2) 0

/-! ## Crossfade weights (R198, R199) -/

/-- The pair (a, b) of a law at u = (k + 1) / t. -/
def weights (law k t : Nat) : Word × Word :=
  let p := k + 1
  if p ≥ t then (0#32, 0x3F800000#32)
  else match law with
    | 0 => (fRat (t - p : Nat) t, fRat p t)
    | 1 => (fCosHalfPi p t, fSinHalfPi p t)
    | _ => (fRat (t * t * t - p * p * (3 * t - 2 * p) : Nat) (t * t * t), fRat (p * p * (3 * t - 2 * p) : Nat) (t * t * t))

/-- The crossfaded sample: product with a, then the fused addition of the product with b (R77). -/
def blend (law k t : Nat) (old new : Word) : Word :=
  let (a, b) := weights law k t
  fFma b new (fMul a old)

/-! ## The Bench accumulator (R176) -/

/-- Add the exact term `x * a` to a 40-bit accumulator. -/
def accAdd (acc : Int × Int) (x a : Word) : Int × Int :=
  let (m, e) := alignAdd acc.1 acc.2 (fSigned x * fSigned a) (fUnit x + fUnit a)
  let (q, e') := roundBits 40 m.natAbs e
  (if m < 0 then -(q : Int) else q, e')

/-- Close the accumulator: one rounding to 24 bits, flush, and a clamp that counts (R176 step 4). -/
def accWord (acc : Int × Int) : Word × Bool :=
  let w := roundWord false acc.1 acc.2
  if fSpecial w then (fMax (fNeg w), true) else (w, false)

end Sys2Proof.Machine
end

