-- ==== Sys2Proof/Config.lean ====
section
/-! DEFINITION. What one part or one build fixes, and the free values: constants with no body, so
that nothing in Lean can evaluate them (log entries 2 and 3). -/
namespace Sys2Proof.Config

/-- A binary32 word the spec leaves open (audio of blocks without a word-level definition, dither,
measurements by outside standards). Applied to `State.freeCtr`, which every use advances. -/
opaque freeWord : Nat → Word

/-- An open natural number (an estimate of the firmware's, a PLL output), applied to `State.freeCtr`. -/
opaque freeNat : Nat → Nat

/-- An open signed number (a frequency correction), applied to `State.freeCtr`. -/
opaque freeInt : Nat → Int

/-- A pan term of the modes whose vectors R156 gives without an operation a model can follow (SURR_5_1,
SURR_7_1_4, OBJECT_16), as a function of the mode, the parameters, the layout and the output. -/
opaque panTerm : List Nat → Word

/-- Base MAC address of the module's block of 64 (R383), from fuses. -/
opaque macBase : BitVec 48

/-- Module serial number (R524), from fuses. -/
opaque serial : BitVec 64

/-- The debug-enable fuse (R541). -/
opaque debugFuse : Bool

/-- RUN_ID the configuration journal holds at delivery (R514). -/
opaque runId : BitVec 32

/-- Hard repair rows each DRAM bank's die reports at training (R501). -/
opaque repairRows : Nat → Nat

/-- The Bridge coefficient words of a Bridge type (R251), as the bytes `domain.bridge.info` reads back. -/
opaque bridgeCoefficients : Nat → List Byte

/-- The launch index a response gives for a change of a domain that processes no sample (R257), by the command's place in the order of
acceptance. -/
opaque openIndex : Nat → Nat

/-- Contents of the boot ROM, fixed in metal (R486), by byte offset. -/
opaque bootRom : Nat → Byte

/-- Granule (0-55) of the telemetry area, the bulk staging area, the packet buffers and the other
DRAM areas R541 names without an address. -/
opaque granuleOf : Nat → Nat

/-- PRIO and pages the firmware gives a master's buffers in T1 (R541 names the areas, not the addresses). -/
opaque sramPage : Nat → Nat

/-- The session description bytes of a Stream's fields (R402): the text of RFC 8866 lines. -/
opaque sdpText : List Nat → List Byte

/-- The SPEED code of a link of a given rate in Mb/s (R341): the spec names only code 0, of a link that carries no traffic. -/
opaque speedCode : Nat → Nat

/-- Bytes a Scene of so many objects and parameter values takes beside its nodes (R210 gives the node size alone). -/
opaque sceneBytes : Nat → Nat → Nat

end Sys2Proof.Config
end

