-- ==== Sys2Proof/Machine/State.lean ====
section
/-! DEFINITION. The state of the block: every register, memory, table and queue the manual names, as
plain data, and its value at supervisor power-on (R570, R15). Numbers the manual never masks are `Nat`;
binary32 words are `Word`. -/
namespace Sys2Proof.Machine

/-! ## Time (chapter 2) -/

/-- A (RATE, OFFSET) pair kept with the RAW value it applies from (R35). -/
structure ClockPair where
  apply : Nat
  rate : Nat
  offset : Nat
  deriving DecidableEq, Repr

/-- RAW, RATE, OFFSET (R32, R33) and the last 16 pairs, newest first (R35). -/
structure Clock where
  raw : Nat
  rate : Nat
  offset : Nat
  pairs : List ClockPair
  deriving DecidableEq, Repr

/-! ## Desks (chapters 10 and 12) -/

inductive Transport where
  | pcie
  | udp
  | seam
  deriving DecidableEq, Repr

/-- One event of a desk's history (R282, R307). -/
structure Event where
  code : Nat
  seq : Nat
  ashlar : Nat
  payload : List Byte
  deriving DecidableEq, Repr

/-- A command kept for the retry rule of R293: the frame and its response bytes. -/
structure Kept where
  op : Nat
  frame : CmdFrame
  response : List Byte
  deriving DecidableEq, Repr

/-- A fragment collection in progress (R300). -/
structure Collection where
  seq : Nat
  total : Nat
  have_ : List (Nat × List Byte)
  deriving DecidableEq, Repr

/-- One desk: attachment and session (R295-R297), key (R292), quotas and defaults (R321, R347), the
commands kept (R293), the event history (R307), the mailbox registers (R287), and the last EVENT_SEQ an active
reported as delivered (R463). -/
structure Desk where
  transport : Transport
  engine : Nat
  move : Option (Transport × Nat)
  isOpen : Bool
  sessions : Nat
  lease : Nat
  newest : Nat
  lastOpen : Nat
  dstAddr : Nat
  dstPort : Nat
  key : List Byte
  quota : List Nat
  overs : List Nat
  defClass : Nat
  defPolicy : Nat
  defLaw : Nat
  defT : Nat
  kept : List Kept
  evtSeq : Nat
  history : List Event
  undelivered : Nat
  lost : Option (Nat × Nat)
  cmdTail : Nat
  cmdHead : Nat
  rspTail : Nat
  rspHead : Nat
  evtTail : Nat
  evtHead : Nat
  rspIrqEn : Bool
  evtIrqEn : Bool
  evtLost : Bool
  protoErr : Bool
  protoErrCount : Nat
  faultTick : Option Nat
  authWarned : List (Nat × Nat)
  collecting : Option Collection
  recallUse : Nat
  reported : Option Nat
  deriving DecidableEq, Repr

/-- A deferred command between ACCEPTED and completion (R303, R305), with the data gathered for it. -/
structure Job where
  desk : Nat
  seq : Nat
  op : Nat
  frame : CmdFrame
  order : Nat
  handle : Nat
  ashlar : Nat
  data : List Byte
  stage : Nat
  num : Nat
  deriving DecidableEq, Repr

/-- Something that leaves the block: a datagram, a Seam control record, a message-signalled interrupt, a
Tether record, an Ethernet frame, an SPI answer, a data read answer (model's own log, newest last). -/
inductive Output where
  | datagram (addr port kind desk : Nat) (frame : List Byte)
  | seamCtrl (lane : Nat) (r : CtrlRec)
  | seamFrame (lane : Nat) (h : SeamHdr)
  | seamData (lane pos ashlar seg : Nat) (words : List Word)
  | nak (lane pos frame : Nat)
  | resend (lane pos frame : Nat)
  | msix (vector : Nat)
  | hostBulk (desk seq : Nat) (data : List Byte)
  | bulkFragment (desk seq index : Nat) (data : List Byte)
  | readData (master addr : Nat) (data : List Byte)
  | spi (addr : Nat) (data : Word) (chk : Byte)
  | tether (peer : Nat) (f : TetherFrame)
  | tdmWord (port slot : Nat) (word : Word)
  | rtp (stream path seq stamp : Nat) (payload : List Byte)
  | ethSend (port kind : Nat) (args : List Nat)
  | ptpSend (port kind : Nat) (args : List Nat)
  | pps (second : Nat)
  | quarry (dst : Nat) (m : QuarryMsg)
  deriving DecidableEq, Repr

/-! ## Objects (chapters 3 to 9) -/

/-- A ramp record of R179: target, increment and samples still to run. The value at the present sample
is `fma(-step, count, gainEnd)` (R180). -/
structure GainRec where
  gainEnd : Word
  step : Word
  count : Nat
  deriving DecidableEq, Repr

/-- One parameter of an object: the last value accepted, the value in use, and its ramp. `db` says the
ramp runs in the millibel scale (R201). -/
structure PVal where
  id : Nat
  written : Nat
  use : Nat
  ramp : GainRec
  db : Bool
  deriving DecidableEq, Repr

/-- A parameter change accepted and not yet launched (R132). `tick` is a change without a launch (R29). -/
structure PChange where
  order : Nat
  desk : Nat
  seq : Nat
  s : Nat
  tick : Bool
  id : Nat
  value : Nat
  t : Nat
  recallOf : Nat
  deriving DecidableEq, Repr

/-- A TWIN accepted and not ended (R135, R200): block page, launch, warm-up, length, law, new values and
the block instances it holds. Page 0 is an Object TWIN, page 1 the Sieve. -/
structure Twin where
  page : Nat
  order : Nat
  desk : Nat
  seq : Nat
  s : Nat
  w : Nat
  t : Nat
  law : Nat
  vals : List (Nat × Nat)
  charge : Nat
  recallOf : Nat
  deriving DecidableEq, Repr

/-- Audio state of one channel of a Strip or Bus: the DC blocker's live and standby x(n-1), y(n-1)
(R139, R140), the Delay, lookahead and dry lines newest first, and the pick-off points' samples of the
last slot in point order (R160). The lines of a running Object TWIN's second instance have a 2. -/
structure ChState where
  x1 : Word
  y1 : Word
  sx1 : Word
  sy1 : Word
  line : List Word
  look : List Word
  dry : List Word
  line2 : List Word
  look2 : List Word
  dry2 : List Word
  points : List (List Word)
  deriving DecidableEq, Repr

/-- A Strip or a Bus (R123, R124). `role` is 0 Strip, 1 MIX, 2 MASTER, 3 MATRIX. -/
structure Chan where
  role : Nat
  width : Nat
  enable : Nat
  enableUse : Nat
  vals : List PVal
  pend : List PChange
  twins : List Twin
  chans : List ChState
  outRing : Nat
  sendRing : Nat
  tapRings : List (Nat × Nat)
  blocks : List (Nat × Nat)
  core : Nat
  panFollow : Nat
  layout : List (Nat × Nat)
  attrNext : Option (Nat × Nat × List (Nat × Nat))
  panOn : Bool
  cough : GainRec
  deriving DecidableEq, Repr

/-- A ring (R56, R57): physical (bank, row) of each of its rows, writer, first valid index, underrun
bookkeeping (R66), and a deep ring's body by ashlar position (R68, R70). -/
structure Ring where
  mult : Nat
  depth : Nat
  rows : List (Nat × Nat)
  writer : Nat
  writerKind : Nat
  writerSub : Nat
  first : Option Nat
  lastWrite : Nat
  lastEvent : Option Nat
  counted : List Nat
  body : List (Nat × Nat × List Word)
  unbindAt : Option Nat
  newDepth : Option (Nat × Nat)
  deriving DecidableEq, Repr

/-- A change of a route accepted and not yet launched (R76, R79). `t` 0 is a CUT. -/
structure RChange where
  order : Nat
  desk : Nat
  seq : Nat
  s : Nat
  src : Option Nat
  off : Option Nat
  cut : Bool
  t : Nat
  law : Nat
  recallOf : Nat
  deriving DecidableEq, Repr

/-- A route Kerf in progress: its launch, length, law and old reading (R76). -/
structure RKerf where
  s : Nat
  t : Nat
  law : Nat
  oldSrc : Nat
  oldOff : Nat
  deriving DecidableEq, Repr

/-- A route entry (R72, R73); `deleting` marks one under deletion (R82), `bound` is its source at the last tick boundary (R187). -/
structure Route where
  kind : Nat
  sub : Nat
  sink : Nat
  source : Nat
  offset : Nat
  policy : Nat
  law : Nat
  t : Nat
  next : Option (Nat × Nat × Nat)
  waiting : List RChange
  kerf : Option RKerf
  deleting : Bool
  bound : Nat
  deriving DecidableEq, Repr

/-- A Group's waiting OFFSET change (R186). -/
structure GChange where
  order : Nat
  s : Nat
  dom : Nat
  value : Nat
  t : Nat
  member : Option (Nat × Nat × Nat × Bool)
  recallOf : Nat
  deriving DecidableEq, Repr

/-- A control Group (R184): its member rows are (tile set handle, row); `offsetUse` is the offset in force in each
domain, since each domain takes a change at its own boundary (R186). -/
structure Group where
  offset : Nat
  offsetUse : List Nat
  t : Nat
  members : List (Nat × Nat)
  pend : List GChange
  deriving DecidableEq, Repr

/-- A crosspoint node with its written GAIN (mB code), its record (R179) and its pan term (R155). -/
structure Node where
  row : Nat
  col : Nat
  gain : Nat
  use : Nat
  pan : Word
  ramp : GainRec
  deriving DecidableEq, Repr

/-- A node change held in an array's change queue (R182). -/
structure NChange where
  order : Nat
  s : Nat
  row : Nat
  col : Nat
  gain : Nat
  t : Nat
  recallOf : Nat
  deriving DecidableEq, Repr

/-- A row record (R179) of a row whose factor has left 1.0. -/
structure RowRec where
  row : Nat
  ramp : GainRec
  deriving DecidableEq, Repr

/-- A tile set (R167): `tiles` gives each tile's array in row-major order. -/
structure Tiles where
  tier : Nat
  rows : Nat
  cols : Nat
  firstRing : Nat
  tiles : List Nat
  nodes : List Node
  rowRecs : List RowRec
  pend : List NChange
  lastClip : Option Nat
  release : Option Nat
  deriving DecidableEq, Repr

/-- One captured part of a Scene (R209): category bit, object handle, parameter id or row, column or
member, and value. -/
structure Part where
  cat : Nat
  obj : Nat
  sub : Nat
  sub2 : Nat
  value : Nat
  deriving DecidableEq, Repr

/-- What a Scene holds: scope, timing values, objects and captured parts (R206, R209). A part of category 3 or 5 with sub
0xFFFFFFFF says that its object's nodes or members were captured. -/
structure SceneBody where
  scope : Nat
  tTwin : Nat
  w : Nat
  tRamp : Nat
  tRoute : Nat
  tNode : Nat
  lawTwin : Nat
  lawRoute : Nat
  objects : List Nat
  parts : List Part
  bytes : Nat
  deriving DecidableEq, Repr

/-- A Scene: its number (0 none, R229), content, the ashlar of its last store, and a store in progress. -/
structure Scene where
  number : Nat
  body : SceneBody
  ashlar : Nat
  coming : Option SceneBody
  deriving DecidableEq, Repr

/-- A Stream (R330, ch. 14): its creation payload, media clock offset, path states and consecutive packets of a path that is
down, next packet to send, sequence tracking, runs of ring indices written, sample frames by index (to send, or received and not
yet a whole ashlar), the fade (first index, length) of a stop, and its dither with that from an ashlar on. -/
structure Stream where
  tx : Bool
  ethPort : Nat
  ethPort2 : Nat
  addr : Nat
  addr2 : Nat
  source : Nat
  udp : Nat
  udp2 : Nat
  channels : Nat
  format : Nat
  ptime : Nat
  pt : Nat
  dscp : Nat
  linkOffset : Nat
  omc : Nat
  firstRing : Nat
  up : List Bool
  runs : List Nat
  next : Nat
  highest : Option Nat
  missing : List (Nat × Nat)
  got : List (Nat × Nat)
  pend : List (Nat × List Word)
  stopped : Bool
  fade : Option (Nat × Nat)
  dither : List Nat
  ditherNext : Option (Nat × List Nat)
  deriving DecidableEq, Repr

/-- A block instance (R99, R125): host object (0 standalone), block page (0 package type), placement
and overrun history (R108). -/
structure Block where
  host : Nat
  page : Nat
  package : Nat
  typ : Nat
  position : Nat
  core : Nat
  localBytes : Nat
  overTicks : List Nat
  bypass : Bool
  removed : Bool
  chIn : Nat
  chOut : Nat
  firstRing : Nat
  vals : List PVal
  pend : List PChange
  twins : List Twin
  retire : Option Nat
  deriving DecidableEq, Repr

/-- A tap of an object's point and channel (R160). -/
structure Tap where
  point : Nat
  obj : Nat
  pick : Nat
  chan : Nat
  deriving DecidableEq, Repr

/-- Sample peak so far in the tick, overs free values and correlation state of one point. -/
structure MPoint where
  peak : Word
  done : List Word
  doneTick : Nat
  deriving DecidableEq, Repr

/-- Loudness run state (R268). -/
structure Loud where
  run : Nat
  steps : Nat
  resetAshlar : Nat
  stepAshlar : Nat
  base : Nat
  values : List Word
  valid : Bool
  deriving DecidableEq, Repr

/-- A Meter (R264, R267). -/
structure Meter where
  loud : Bool
  paired : Bool
  points : Nat
  firstSlot : Nat
  refresh : Nat
  taps : List Tap
  state : List MPoint
  ld : Loud
  cores : List Nat
  vals : List PVal
  pend : List PChange
  ctl : List (Nat × Nat × Nat)
  deriving DecidableEq, Repr

/-- A join at an edge (R202, R204): frames of the input queue still to be discarded before it, frames delivered since it began, its
length, whether the edge goes on in the frames now delivered (`live`), and the frames it would have gone on with; an empty `u`
is the mirror of what it has delivered. -/
structure Joint where
  skip : Nat
  t : Nat
  l : Nat
  live : Bool
  u : List (List Word)
  deriving DecidableEq, Repr

/-- A Bridge (R246): type in the order of R247, the last 256 frames delivered, newest first, and the joins under way. -/
structure Bridge where
  from_ : Nat
  to_ : Nat
  channels : Nat
  typ : Nat
  firstRing : Nat
  core : Nat
  start : Nat
  hist : List (List Word)
  joints : List Joint
  deriving DecidableEq, Repr

/-- A solo source with its fade factor (R276). -/
structure Solo where
  obj : Nat
  chan : Nat
  mode : Nat
  fade : GainRec
  leaving : Bool
  deriving DecidableEq, Repr

/-- A change of live state of a Service waiting for its launch: talk keys or solo sources. -/
structure SChange where
  order : Nat
  s : Nat
  input : Nat
  press : Bool
  exclusive : Bool
  sources : List (Nat × Nat × Nat × Bool)
  deriving DecidableEq, Repr

/-- A broadcast Service (R260): key and dim ramps of an IFB (R273), automixer estimates (R271), solo
sources and switch (R276). -/
structure Svc where
  kind : Nat
  mode : Nat
  size : Nat
  firstRing : Nat
  ifb : Nat
  core : Nat
  vals : List PVal
  pend : List PChange
  twins : List Twin
  live : List SChange
  keys : List Bool
  keyRamps : List GainRec
  dim : PVal
  est : List Word
  gOld : List Word
  gNew : List Word
  solos : List Solo
  switch : Option (Nat × Nat)
  active : Bool
  deriving DecidableEq, Repr

inductive CapState where
  | rolling
  | freezing
  | frozen
  | playing
  deriving DecidableEq, Repr

/-- A playback in progress (R279). -/
structure Play where
  s : Nat
  start : Nat
  count : Nat
  stop : Option Nat
  deriving DecidableEq, Repr

/-- A Capture (R277): `ring` lists each channel's recorded (index, word) pairs, newest first. -/
structure Capture where
  channels : Nat
  length : Nat
  st : CapState
  firstIndex : Nat
  f : Nat
  post : Nat
  tPlay : Nat
  firstRing : Nat
  core : Nat
  record : List (Nat × List Word)
  play : Option Play
  release : Option Nat
  vals : List PVal
  pend : List PChange
  deriving DecidableEq, Repr

inductive ObjKind where
  | chan (c : Chan)
  | ring (r : Ring)
  | route (r : Route)
  | group (g : Group)
  | tiles (t : Tiles)
  | scene (s : Scene)
  | stream (s : Stream)
  | block (b : Block)
  | meter (m : Meter)
  | bridge (b : Bridge)
  | svc (v : Svc)
  | capture (c : Capture)
  deriving DecidableEq, Repr

/-- One allocated object: handle parts (R284), owner, class, domain (3 none), life (R314, R315), the desk and SEQUENCE of the deferred
allocation still open (R303), charge in 1/64 WU, SAFE mask (R208), grant epoch (R351) and content. -/
structure Obj where
  ty : Nat
  idx : Nat
  gen : Nat
  desk : Nat
  cls : Nat
  dom : Nat
  freeing : Bool
  job : Option (Nat × Nat)
  staged : Nat
  charge : Nat
  safe : Nat
  epoch : Nat
  kind : ObjKind
  deriving DecidableEq, Repr

/-- The handle table of one type (R285): generations given so far, free indices in the order freed, and the (index, generation)
that a command applied for the active takes from its response (R483). -/
structure HandleTab where
  gens : List (Nat × Nat)
  freed : List Nat
  want : List (Nat × Nat) := []
  deriving DecidableEq, Repr

/-! ## Domains (chapter 8) -/

inductive DomState where
  | stopped
  | running
  | fadingOut
  | halted
  | fadingIn
  deriving DecidableEq, Repr

/-- A rate change, start or stop in progress (R255): the command, the new rate code (255 stop), the
fade-out's first sample (for a start, the instant it begins at), the restart index, the time a time set gives, and the Bridges
retyped. -/
structure RateSeq where
  desk : Nat
  seq : Nat
  op : Nat
  oldRate : Nat
  newRate : Nat
  s : Nat
  restart : Nat
  qtime : Option Nat
  retyped : List Nat
  deriving DecidableEq, Repr

/-- One rate domain (R242): state, rate code, MAX_MULT (0 until the first start), next ashlar to
process, edge fade ramp position, splice length L and splice pending of R40. -/
structure Dom where
  st : DomState
  rate : Nat
  maxMult : Nat
  next : Nat
  tick : Nat
  seq : Option RateSeq
  fadeFrom : Nat
  spliceL : Nat
  step : Option (Int × Nat)
  deriving DecidableEq, Repr

/-! ## Recalls and quarry recalls (chapter 7) -/

/-- A wave record (R224). -/
structure Wave where
  launch : Nat
  first : Nat
  count : Nat
  lo : Nat
  hi : Nat
  bound : Nat
  deriving DecidableEq, Repr

/-- A recall between ACCEPTED and RECALL_DONE (R214): its launch as the instant `num / den` seconds, the seven overrides of
R213, its plan point, and once planned its wave records and each object's wave. A quarry recall has the keeper's identifier in
`quarry` and launches nothing without GO (R231). -/
structure Recall where
  id : Nat
  desk : Nat
  seq : Nat
  scene : Nat
  scope : Nat
  kind : Nat
  num : Nat
  den : Nat
  plan : Nat
  overs : List Nat
  strict : Bool
  planned : Bool
  waves : List Wave
  objs : List (Nat × Nat)
  recalled : Nat
  equal : Nat
  skipped : Nat
  last : Nat
  quarry : Nat
  go : Bool
  deriving DecidableEq, Repr

/-- The keeper's record of a quarry recall (R230-R233): engines ready, late with their earliest launch, silent at the last
decision point, and left out; `held` while `scene.go` is awaited, `sent` once GO has gone. -/
structure Arm where
  id : Nat
  desk : Nat
  seq : Nat
  number : Nat
  s : Nat
  hold : Bool
  held : Bool
  sent : Bool
  strict : Bool
  ready : List Nat
  late : List (Nat × Nat)
  silent : List Nat
  dropped : List Nat
  retargets : Nat
  overs : List Byte
  deriving DecidableEq, Repr

/-! ## Packages (chapter 4) -/

/-- A parameter entry of a package type (R340). -/
structure PkgParam where
  id : Nat
  kerf : Nat
  unit : Nat
  min : Nat
  max : Nat
  dflt : Nat
  deriving DecidableEq, Repr

/-- A block type of a package (R115). -/
structure PkgType where
  typ : Nat
  chIn : Nat
  chOut : Nat
  sideIn : Nat
  flags : Nat
  cycles : List Nat
  localBytes : Nat
  stateBytes : Nat
  latency : List Nat
  params : List PkgParam
  deriving DecidableEq, Repr

/-- A loaded package (R114). -/
structure Package where
  id : Nat
  version : Nat
  keySlot : Nat
  flags : Nat
  total : Nat
  types : List PkgType
  deriving DecidableEq, Repr

/-- A customer key slot (R117): stored key bytes and the revoke bit; `[]` not programmed. -/
structure KeySlot where
  key : List Byte
  revoked : Bool
  deriving DecidableEq, Repr

/-- One Sett core (R95, R101): domain (3 unassigned), reserve, fused off, runtime error ticks, suspect. -/
structure Core where
  dom : Nat
  reserve : Bool
  fused : Bool
  errTicks : List Nat
  suspect : Bool
  deriving DecidableEq, Repr

/-- A transplant in progress (R118). -/
structure Transplant where
  source : Nat
  target : Nat
  objs : List Nat
  dom : Nat
  slot : Nat
  retried : Bool
  spare : Bool
  deriving DecidableEq, Repr

/-! ## Host interface (chapter 20) -/

/-- One region register set of a master (R539, R543): pages BASE to LIMIT. -/
structure Region where
  en : Bool
  r : Bool
  w : Bool
  base : Nat
  limit : Nat
  deriving DecidableEq, Repr

/-- One matrix master: PRIO per target, GRANULE_MASK and the regions set (R540, R543). -/
structure Master where
  prio : List Nat
  granules : Nat
  regions : List Region
  deriving DecidableEq, Repr

/-- Misfit or violation latch (R525). -/
structure Latch where
  addr : Nat
  master : Nat
  write : Bool
  bytes : Nat
  deriving DecidableEq, Repr

/-- Host-side registers of chapter 20: host status, capture, port status inputs, MSI-X table and PBA,
pair latches of R14 for the host and for the control processor, the matrix, a restart commanded (RAW value due, image), the port
status words that are not zero, by offset, as of the end of the last domain A ashlar (R528), and the bank classes at the start of the
firmware with the banks that have left theirs (R578). -/
structure HostRegs where
  misfitCount : Nat
  misfit : Latch
  rvCount : Nat
  rv : Latch
  snapIrqEn : Bool
  meterIrqEn : Bool
  haltIrqEn : Bool
  violIrqEn : Bool
  irqStatus : Nat
  violTick : Option Nat
  capSeq : Nat
  capQ : Nat
  capRaw : Nat
  capIdx : List Nat
  bankVio : List Nat
  msixTable : List Word
  msixPba : BitVec 64
  hostLatch : List (Nat × Nat)
  cpLatch : List (Nat × Nat)
  cpRemap : Bool
  masters : List Master
  pcieUp : Bool
  imageSlot : Nat
  image : Nat
  strap : Nat
  restart : Option (Nat × Nat)
  status : List (Nat × Nat)
  bankStart : List Nat
  bankLost : List Nat
  deriving DecidableEq, Repr

/-! ## Counters and snapshots (chapter 19) -/

/-- Header fields of one written bank (R514). -/
structure Bank where
  seq : Nat
  gap : Bool
  snapSeq : Nat
  ashlar : Nat
  qtime : Nat
  origin : Nat
  keeperId : Nat
  keeperSeq : Nat
  ctrs : List (Nat × Nat)
  deriving DecidableEq, Repr

/-- A snapshot accepted and not yet latched (R516); `gap` says that its ashlar is never processed (R518), and `counts` holds the
counters once they have been latched. -/
structure PendSnap where
  bank : Nat
  ashlar : Nat
  snapSeq : Nat
  origin : Nat
  keeperId : Nat
  keeperSeq : Nat
  gap : Bool
  counts : Option (List (Nat × Nat))
  deriving DecidableEq, Repr

structure Snap where
  bankSel : Nat
  pending : List PendSnap
  refused : Bool
  lastSeq : Nat
  lastBank : Nat
  seq : Nat
  banks : List Bank
  live : List (Nat × Nat)
  liveAshlar : Nat
  deriving DecidableEq, Repr

/-! ## Supervisor (chapter 21) -/

inductive SvState where
  | off
  | dormant
  | watch
  | sequencing
  | boot
  | running
  | stalled
  deriving DecidableEq, Repr

/-- The supervisor, its service-port registers (R570), the boot's progress (R554-R564): `why` is the RESET_CAUSE the next entry to
SEQUENCING from WATCH will have, `svn` the security version of the image started, `load` the chunks of a host image; and the quarry
time at which the fade of a shutdown began (R566). -/
structure Sv where
  st : SvState
  step : Nat
  pass : Nat
  failedStep : Nat
  wake : Bool
  ilimActive : Bool
  cfgSet : Bool
  stallCode : Nat
  stallStep : Nat
  attempts : Nat
  vin : Nat
  iin : Nat
  railReady : Nat
  tcxoOk : Bool
  rootLock : Bool
  dramReady : Bool
  tempEngine : Nat
  tempSv : Nat
  bootOverride : Nat
  vinGuard : Nat
  fadeAtGuard : Bool
  ilim : Nat
  fsw : Nat
  spread : Bool
  wakeAuto : Bool
  wakeLowShutdown : Bool
  phaseOk : Nat
  phaseFailed : Nat
  spareInUse : Bool
  lastRetryStep : Nat
  retries : Nat
  resetCause : Nat
  spiErr : Nat
  strap : Nat
  retryWait : Bool
  imageOk : Bool
  skipped : List Nat
  watchdogs : Nat
  ldState : Nat
  ldChunk : Nat
  ldWait : Bool
  why : Nat
  svn : Nat
  load : List (Nat × List Byte)
  fade : Option Nat
  deriving DecidableEq, Repr

/-- What flash and OTP keep over a restart of the engine die (R503, R514, R561), the scene library apart. `rowsUsed` counts the repair
rows programmed in each bank (R501, R562); `red`, `cands` and `pll` hold what `red.config` and the timing commands keep (R435, R441,
R444, R455). -/
structure Journal where
  keys : List (List Byte)
  quadModes : List Nat
  eth : List (List Nat)
  engineId : Nat
  runId : Nat
  vinGuard : Nat
  fadeAtGuard : Bool
  ilim : Nat
  pwrCfg : Nat
  phaseFailed : Nat
  rowsUsed : List Nat
  shadowed : List (Nat × Nat)
  calib : List Int
  faultLog : List (List Nat)
  keySlots : List KeySlot
  antiRollback : Nat
  failedUnits : List (Nat × Nat)
  red : List Nat
  cands : List (List Nat)
  pll : List Nat
  deriving DecidableEq, Repr

/-! ## Seam lanes and quarry (chapter 13) -/

inductive LaneState where
  | down
  | training
  | up
  | degraded
  | test
  deriving DecidableEq, Repr

/-- A window opened for a segment whose first copy failed or is awaited (R370). -/
structure Window where
  seg : Nat
  ashlar : Nat
  failed : Bool
  deriving DecidableEq, Repr

/-- A relayed control record waiting for a control segment (R379), with the ashlar it arrived in. -/
structure Relay where
  since : Nat
  body : CtrlRec
  deriving DecidableEq, Repr

/-- One lane (R359-R374). `fwd` is the forwarding table of R90 as (slot, 32-bit entry), `fwdNext` the entries waiting for their frame
(R93), `held` the (segment, ashlar) received good or lost, `naks` the /NAK/ inserted per own frame, `copies` the (position, frame)
sent, `owed` the resends owed as received, `ready` the (ashlar, segment, slots) not sent, `fails` the (frame, lost) failures. -/
structure Lane where
  owner : Nat
  st : LaneState
  mult : Nat
  window : Nat
  upstream : Bool
  config : List Byte
  peer : Nat
  hops : Nat
  topo : Nat
  keeper : Nat
  claim : Nat
  quality : Nat
  epoch : Nat
  peerMult : Nat
  peerWindow : Nat
  rxOffset : Int
  delayPs : Nat
  valid : Nat
  invalid : Nat
  agree : Nat
  lastAsh : Nat
  claims : List (Nat × Nat)
  lands : List (Nat × Nat)
  fwd : List (Nat × Nat)
  fwdNext : List (Nat × List (Nat × Nat))
  windows : List Window
  held : List (Nat × Nat)
  naks : List (Nat × Nat)
  owed : List (Nat × Nat)
  copies : List (Nat × Nat × Nat)
  relays : List Relay
  origin : List CtrlRec
  ready : List (Nat × Nat × List (Nat × List Word))
  fails : List (Nat × Bool)
  degraded : Bool
  pattern : Nat
  inject : Nat
  loop : Nat
  deriving DecidableEq, Repr

/-- Quarry membership and presentation depth (R46, R377, R381). -/
structure Quarry where
  keeper : Nat
  hops : Nat
  parent : Nat
  p : Nat
  nextP : Nat
  nextAt : Nat
  proposal : Option (Nat × Nat × List Nat × List Nat)
  reports : List (Nat × List TopoEntry)
  engines : List Nat
  pMin : Nat
  deriving DecidableEq, Repr

/-! ## Ethernet and PTP (chapter 14) -/

/-- An Ethernet port by first lane (R382-R388). -/
structure EthPort where
  owner : Nat
  addr : Nat
  mask : Nat
  gateway : Nat
  vlan : Nat
  mgmt : Bool
  dhcp : Bool
  link : Bool
  speed : Nat
  arp : List (Nat × Nat)
  members : List Nat
  deriving DecidableEq, Repr

/-- The PTP instance (R403-R407): ports by first lane, their states in the codes of IEEE 1588-2019, `foreign` the masters heard as
(port, [priority 1, class, accuracy, priority 2, identity, steps, messages]), `silent` the ports whose Announce timeout has run out. -/
structure Ptp where
  on : Bool
  profile : Nat
  domain : Nat
  role : Nat
  step : Nat
  priority1 : Nat
  priority2 : Nat
  ports : List Nat
  states : List Nat
  foreign : List (Nat × List Nat)
  utc : Option Int
  leap : Nat
  silent : List Nat
  deriving DecidableEq, Repr

/-! ## TDM ports and field I/O (chapter 15) -/

/-- A TDM port (R408-R424). `queue` is the frames received and not delivered with their quarry times, `out` the output
samples by index not yet sent, `ages` the ages of the last 64 frames by index in 2^-20 periods, `slipDue` the slips decided
and not yet made, by ashlar (1 repeat, 2 drop), `tails` the slots whose route has gone, with the first index no longer driven. -/
structure Tdm where
  owner : Nat
  config : List Byte
  dir : Nat
  slots : Nat
  slotBits : Nat
  dataBits : Nat
  edges : Nat
  guard : Nat
  dom : Nat
  offset : Nat
  suspectN : Nat
  flags : Nat
  configured : Bool
  binds : List (Nat × Nat)
  dither : List Nat
  valid : Nat
  lost : Bool
  paired : Bool
  lastFrame : List Word
  queue : List (Nat × List Word)
  out : List (Nat × List Word)
  ages : List (Nat × Int)
  slipDue : List (Nat × Nat)
  slipTick : Option Nat
  lastSlipEvent : Option Nat
  slipSinceCentre : Bool
  encroach : List (Nat × Nat × Nat)
  suspect : List Nat
  muted : List Nat
  muteRamps : List (Nat × GainRec)
  fade : GainRec
  contention : List (Nat × Nat)
  tristated : Bool
  hist : List (List Word)
  joints : List Joint
  tails : List (Nat × Nat)
  ditherNext : Option (Nat × List Nat)
  deriving DecidableEq, Repr

/-- A field input (R425, R426): its bound function, the last reading and since when it has held, the level this engine has accepted,
the level in force (in a set the active's, R433), and its events of the present second. -/
structure Gpi where
  owner : Nat
  config : List Byte
  function : Nat
  debounce : Nat
  edge : Nat
  target : Nat
  reading : Bool
  since : Nat
  accepted : Bool
  level : Bool
  seen : Bool
  second : Nat
  inSecond : Nat
  deriving DecidableEq, Repr

/-- A field output (R427-R429). -/
structure Gpo where
  owner : Nat
  config : List Byte
  function : Nat
  source : Nat
  want : Bool
  commanded : Bool
  on : Bool
  trip : Nat
  latched : Bool
  tripAt : Nat
  retryAt : Nat
  stuckTold : Bool
  deriving DecidableEq, Repr

/-! ## Timing (chapter 16) -/

/-- A reference candidate (R435-R438): its settings, presence, the quality its messages carry, the present phase error in ns, and
the measurements (quarry time, error) of the last second, newest first, at least five. -/
structure Cand where
  enable : Bool
  priority : Nat
  quality : Nat
  port : Nat
  present : Bool
  valid : Bool
  carried : Nat
  e : Int
  recent : List (Nat × Int)
  deriving DecidableEq, Repr

inductive TimState where
  | freeRun
  | acquiring
  | locked
  | holdover
  | lost
  deriving DecidableEq, Repr

/-- The timing function (R440-R454): `f` is the correction F in 2^-16 ppt with its values of the last 61 s, `h` the holdover
frequency; `e0` is the sum and number of the errors of E0,
`holdQuality` the quality carried in holdover; `ppsLast` the RAW value of the last PPS pulse; `stepDue` is a step decided: its size, domain A boundary, FROM and TO. -/
structure Timing where
  cands : List Cand
  st : TimState
  selected : Option Nat
  forced : Option Nat
  expired : Bool
  bandwidth : Nat
  report : Nat
  sticky : Nat
  stickyIrqEn : Nat
  steer : Int
  f : Int
  fPast : List Int
  h : Int
  drift : Int
  ageing : Int
  holdLimit : Nat
  e0 : Nat × Nat
  holdFrom : Nat
  holdQuality : Nat
  lockedSince : Nat
  okSince : Option Nat
  okCount : Nat
  badCount : Nat
  lastStep : Int
  stepDue : Option (Int × Nat × Nat × Nat)
  clkoutCfg : Nat
  clkoutNext : Option Nat
  ppsLast : Option Nat
  deriving DecidableEq, Repr

/-! ## Redundancy (chapter 17) -/

/-- What a member knows of a peer (R465, R468): its link, the last header, the epoch it has acknowledged, and the digest and votes
of its last frame with their ashlar. `sending` says that its image is on its way. -/
structure Peer where
  id : Nat
  up : Bool
  seen : Bool
  lost : Bool
  hdr : TetherHdr
  acked : Nat
  digest : Option (Nat × Nat)
  votes : List (Nat × Nat)
  sending : Bool
  deriving DecidableEq, Repr

inductive Role where
  | single
  | forming
  | active
  | standby
  | stale
  deriving DecidableEq, Repr

/-- The redundancy configuration and state (R455-R485): the interlock pins sensed and driven, the rejoin's step (0 none, 1 image,
2 state, 3 refill and sweep) and since when, `held` responses waiting for acknowledgements (R463), `deltas` due by ashlar, a switch
due, the command in progress, a `red.switch` relayed, own digests and votes by ashlar, the member this one fences, the bulk data
received ahead of its command, whether this member leaves the set at the next boundary (R462), and the latest vote of each egress
port (R470). -/
structure Red where
  mode : Nat
  claim : Nat
  peers : List Peer
  role : Role
  ownOut : Bool
  ownIn : List Bool
  fenceOut : Bool
  against : Nat
  fenced : Bool
  ready : Bool
  rejoin : Nat
  rejoinFrom : Nat
  settle : Bool
  backoff : Bool
  deltas : List (Nat × TetherRec)
  held : List (Nat × Nat × List Byte)
  switchDue : Option (Nat × Nat)
  job : Option (Nat × Nat × Nat)
  relay : Option CmdFrame
  sendDelta : List TetherRec
  mine : List (Nat × Nat × List (Nat × Nat))
  bulks : List (Nat × Nat × Nat × List Byte)
  leaving : Bool
  voting : List (Nat × Nat)
  deriving DecidableEq, Repr

/-! ## Faults and spares (chapter 18) -/

/-- A transient fault recorded against a word of a unit (R489). -/
structure Transient where
  kind : Nat
  unit : Nat
  address : Nat
  tick : Nat
  deriving DecidableEq, Repr

/-- A fault log record (R336). -/
structure FaultRec where
  kind : Nat
  severity : Nat
  unit : Nat
  address : Nat
  ashlar : Nat
  count : Nat
  deriving DecidableEq, Repr

/-- A spare bring-in or test swap under way (R88, R192, R499): the unit, its spare, the boundary. -/
structure BringIn where
  kind : Nat
  failed : Nat
  spare : Nat
  since : Nat
  test : Bool
  deriving DecidableEq, Repr

/-- Spares and faults: the bank map (logical bank to physical), free spare banks and arrays, array map,
waiting bring-ins, relocations under way, tests (kind, unit, spare, job), transients and logs; `revive` and `skip` list the blocks
brought in from 0.0 with their first index, and those that pass their input through with the ashlar; `reduced` the Meters below FULL,
newest first. -/
structure Faults where
  transients : List Transient
  lasting : List (Nat × Nat)
  log : List FaultRec
  total : Nat
  lastEvent : List (Nat × Nat × Nat)
  counts : List (Nat × Nat × Nat)
  bankMap : List Nat
  arrayMap : List Nat
  spareBanks : List Nat
  spareArrays : List Nat
  work : List BringIn
  waiting : List (Nat × Nat)
  moving : List (Nat × Nat × Nat × Nat)
  shadow : List (Nat × Nat)
  rowsLeft : List Nat
  damaged : List Nat
  tests : List (Nat × Nat × Nat × Nat)
  phaseTrying : List Nat
  checkFails : List (Nat × Nat)
  pagesRetired : List Nat
  revive : List (Nat × Nat)
  skip : List (Nat × Nat)
  reduced : List Nat
  deriving DecidableEq, Repr

/-! ## The whole state -/

/-- The block (log entry 1 lists what is the model's own: `pending`, `outbox`, `freeCtr`, `orderCtr`). `journal` is what firmware has
recorded; while writes are held below VIN_GUARD (R565), `flash` is what flash and OTP still hold, with the Scenes of its library. -/
structure State where
  pending : List Instr
  clk : Clock
  doms : List Dom
  desks : List Desk
  objs : List Obj
  tabs : List HandleTab
  jobs : List Job
  orderCtr : Nat
  recallCtr : Nat
  epoch : Nat
  recalls : List Recall
  arms : List Arm
  cores : List Core
  moves : List Transplant
  ceiling : Nat
  packages : List Package
  keySlots : List KeySlot
  mem : List Host.Cell
  ctrs : List (Nat × Nat)
  snap : Snap
  host : HostRegs
  lanes : List Lane
  quadModes : List Nat
  quarry : Quarry
  engineId : Nat
  eth : List EthPort
  ptp : Ptp
  tdm : List Tdm
  gpi : List Gpi
  gpo : List Gpo
  timing : Timing
  red : Red
  faults : Faults
  halted : Bool
  meterSeq : List Nat
  loudSeq : List Nat
  loudStepped : Bool
  sv : Sv
  journal : Journal
  flash : Option (Journal × List Obj)
  outbox : List Output
  freeCtr : Nat
  deriving DecidableEq, Repr

/-- Why a step stops. -/
inductive Fault where
  /-- Raised by a command that senses the supply's input voltage, when that lies above 48.00 V, the
  absolute maximum: outside the ratings R4 and R573 state no behaviour. Safe: the model stops there. -/
  | outsideRatings
  deriving DecidableEq, Repr

/-- A command with no meaning. -/
inductive Refusal where
  /-- Raised by the dispatcher alone for a constructor that has no meaning yet. Safe: nothing is claimed. -/
  | notModelled (mnemonic : String)
  deriving DecidableEq, Repr

/-! ## Reset -/

/-- A ramp record at rest at `v`. -/
def GainRec.rest (v : Word) : GainRec := { gainEnd := v, step := 0, count := 0 }

/-- 1.0 and 480 as used by several defaults. -/
def oneW : Word := 0x3F800000#32

def GainRec.unity : GainRec := GainRec.rest oneW

def Desk.reset : Desk :=
  { transport := .pcie, engine := 0, move := none, isOpen := false, sessions := 0, lease := 5000, newest := 0,
    lastOpen := 0, dstAddr := 0, dstPort := 0, key := [], quota := [0, 0, 0, 0, 0, 0, 0, 0, 0, 0, 3],
    overs := [], defClass := 3, defPolicy := 1, defLaw := 1, defT := 480, kept := [], evtSeq := 0,
    history := [], undelivered := 0, lost := none, cmdTail := 0, cmdHead := 0, rspTail := 0, rspHead := 0,
    evtTail := 0, evtHead := 0, rspIrqEn := false, evtIrqEn := false, evtLost := false, protoErr := false,
    protoErrCount := 0, faultTick := none, authWarned := [], collecting := none, recallUse := 0, reported := none }

def Dom.reset : Dom :=
  { st := .stopped, rate := 1, maxMult := 0, next := 0, tick := 0, seq := none, fadeFrom := 0, spliceL := 96,
    step := none }

def Core.reset (i : Nat) : Core :=
  { dom := 3,
    reserve := (i / 16 < 4 && (i % 16 == 14 || i % 16 == 15)) || (i / 16 ≥ 4 && i % 16 == 15),
    fused := false, errTicks := [], suspect := false }

def Lane.reset : Lane :=
  { owner := 0, st := .down, mult := 1, window := 8, upstream := false, config := [], peer := 0, hops := 255, topo := 0,
    keeper := 0, claim := 0, quality := 0, epoch := 0, peerMult := 1, peerWindow := 8, rxOffset := 0,
    delayPs := 0, valid := 0, invalid := 0, agree := 0, lastAsh := 0, claims := [], lands := [], fwd := [], fwdNext := [],
    windows := [], held := [], naks := [], owed := [], copies := [], relays := [], origin := [], ready := [],
    fails := [], degraded := false, pattern := 0, inject := 0, loop := 0 }

def EthPort.reset : EthPort :=
  { owner := 0, addr := 0, mask := 0, gateway := 0, vlan := 0, mgmt := false, dhcp := false, link := false, speed := 0,
    arp := [], members := [] }

def Tdm.reset : Tdm :=
  { owner := 0, config := [], dir := 0, slots := 0, slotBits := 32, dataBits := 24, edges := 0, guard := 0,
    dom := 0, offset := 0, suspectN := 0, flags := 0, configured := false, binds := [], dither := [],
    valid := 0, lost := false, paired := false, lastFrame := [], queue := [], out := [], ages := [], slipDue := [], slipTick := none,
    lastSlipEvent := none, slipSinceCentre := false, encroach := [], suspect := [],
    muted := [], muteRamps := [], fade := GainRec.unity, contention := [], tristated := false, hist := [], joints := [],
    tails := [], ditherNext := none }

def Gpi.reset : Gpi :=
  { owner := 0, config := [], function := 0, debounce := 0, edge := 0, target := 0, reading := false,
    since := 0, accepted := false, level := false, seen := false, second := 0, inSecond := 0 }

def Gpo.reset : Gpo :=
  { owner := 0, config := [], function := 0, source := 0, want := false, commanded := false, on := false,
    trip := 0, latched := false, tripAt := 0, retryAt := 0, stuckTold := false }

def Cand.reset : Cand :=
  { enable := false, priority := 0, quality := 0, port := 0, present := false, valid := false, carried := 0, e := 0, recent := [] }

def Timing.reset : Timing :=
  { cands := List.replicate 8 Cand.reset, st := .freeRun, selected := none, forced := none, expired := false,
    bandwidth := 1, report := 3, sticky := 0, stickyIrqEn := 0, steer := 0, f := 0, fPast := [], h := 0, drift := 10000,
    ageing := 1000, holdLimit := 5000, e0 := (0, 0), holdFrom := 0, holdQuality := 128, lockedSince := 0,
    okSince := none, okCount := 0, badCount := 0, lastStep := 0, stepDue := none,
    clkoutCfg := 0x65844, clkoutNext := none, ppsLast := none }

def noHeader : TetherHdr :=
  { ashlar := 0, member := 0, setId := 0, mode := 0, role := 0, claim := 0, own := false, fence := false, ready := false,
    rejoin := false, epoch := 0, ackEpoch := 0, peers := [] }

def Peer.new (id : Nat) : Peer :=
  { id := id, up := false, seen := false, lost := false, hdr := noHeader, acked := 0, digest := none, votes := [],
    sending := false }

def Red.reset : Red :=
  { mode := 0, claim := 0, peers := [], role := .single, ownOut := false, ownIn := [false, false], fenceOut := false, against := 0,
    fenced := false, ready := false, rejoin := 0, rejoinFrom := 0, settle := false, backoff := false, deltas := [], held := [],
    switchDue := none, job := none, relay := none, sendDelta := [], mine := [], bulks := [], leaving := false, voting := [] }

def Faults.reset : Faults :=
  { transients := [], lasting := [], log := [], total := 0, lastEvent := [], counts := [],
    bankMap := List.range 64, arrayMap := List.range 16, spareBanks := [64, 65, 66, 67], spareArrays := [16, 17], work := [],
    waiting := [], moving := [], shadow := [], rowsLeft := List.replicate 32 0, damaged := [], tests := [],
    phaseTrying := [], checkFails := [], pagesRetired := [], revive := [], skip := [], reduced := [] }

def Master.reset (first : Bool) : Master :=
  { prio := List.replicate 8 0, granules := if first then 2 ^ 56 - 1 else 0,
    regions := (List.range 16).map fun r =>
      if first && r == 0 then { en := true, r := true, w := true, base := 0, limit := 2 ^ 28 - 1 }
      else { en := false, r := false, w := false, base := 0, limit := 0 } }

def HostRegs.reset : HostRegs :=
  { misfitCount := 0, misfit := { addr := 0, master := 0, write := false, bytes := 0 }, rvCount := 0,
    rv := { addr := 0, master := 0, write := false, bytes := 0 }, snapIrqEn := false, meterIrqEn := false,
    haltIrqEn := true, violIrqEn := false, irqStatus := 0, violTick := none, capSeq := 0, capQ := 0, capRaw := 0,
    capIdx := [0, 0, 0], bankVio := List.replicate 8 0,
    msixTable := (List.replicate 64 [0#32, 0#32, 0#32, 1#32]).flatten, msixPba := 0, hostLatch := [],
    cpLatch := [], cpRemap := false, masters := (List.range 8).map fun m => Master.reset (m == 0),
    pcieUp := false, imageSlot := 0, image := 0, strap := 0, restart := none, status := [], bankStart := List.replicate 8 0, bankLost := [] }

def Bank.reset : Bank :=
  { seq := 0, gap := false, snapSeq := 0, ashlar := 0, qtime := 0, origin := 0, keeperId := 0, keeperSeq := 0,
    ctrs := [] }

def Snap.reset : Snap :=
  { bankSel := 0, pending := [], refused := false, lastSeq := 0, lastBank := 0, seq := 0,
    banks := [Bank.reset, Bank.reset], live := [], liveAshlar := 0 }

/-- The service-port registers at supervisor power-on (R570). -/
def Sv.reset : Sv :=
  { st := .dormant, step := 0, pass := 1, failedStep := 0, wake := false, ilimActive := false, cfgSet := false,
    stallCode := 0, stallStep := 0, attempts := 0, vin := 300, iin := 0, railReady := 0, tcxoOk := false,
    rootLock := false, dramReady := false, tempEngine := 0x8000, tempSv := 250, bootOverride := 0,
    vinGuard := 600, fadeAtGuard := false, ilim := 11000, fsw := 1, spread := false, wakeAuto := true,
    wakeLowShutdown := true, phaseOk := 0, phaseFailed := 0, spareInUse := false, lastRetryStep := 0,
    retries := 0, resetCause := 1, spiErr := 0, strap := 0, retryWait := false, imageOk := false, skipped := [],
    watchdogs := 0, ldState := 0, ldChunk := 0, ldWait := false, why := 1, svn := 0, load := [],
    fade := none }

/-- What delivery leaves in flash and OTP. -/
def Journal.reset : Journal :=
  { keys := List.replicate 17 [], quadModes := List.replicate 8 4, eth := [], engineId := 0, runId := Config.runId.toNat,
    vinGuard := 600, fadeAtGuard := false, ilim := 11000, pwrCfg := 0x301, phaseFailed := 0,
    rowsUsed := List.replicate 32 0, shadowed := [], calib := [], faultLog := [],
    keySlots := List.replicate 4 { key := [], revoked := false }, antiRollback := 0, failedUnits := [],
    red := [], cands := [], pll := [1, 3] }

def Quarry.reset : Quarry :=
  { keeper := 0, hops := 255, parent := 255, p := 2, nextP := 2, nextAt := 0, proposal := none, reports := [],
    engines := [], pMin := 2 }

def Ptp.reset : Ptp :=
  { on := false, profile := 0, domain := 0, role := 0, step := 1, priority1 := 128, priority2 := 128, ports := [],
    states := [], foreign := [], utc := none, leap := 0, silent := [] }

/-- The block at supervisor power-on, the engine die in reset (R15, R570). -/
def State.reset : State :=
  { pending := [], clk := { raw := 0, rate := 0x040000000000, offset := 0, pairs := [⟨0, 0x040000000000, 0⟩] },
    doms := List.replicate 3 Dom.reset, desks := List.replicate 17 Desk.reset, objs := [],
    tabs := List.replicate 16 { gens := [], freed := [] }, jobs := [], orderCtr := 1, recallCtr := 0, epoch := 0,
    recalls := [], arms := [], cores := (List.range 192).map Core.reset, moves := [], ceiling := 80,
    packages := [], keySlots := List.replicate 4 { key := [], revoked := false }, mem := [], ctrs := [],
    snap := Snap.reset, host := HostRegs.reset, lanes := List.replicate 32 Lane.reset,
    quadModes := List.replicate 8 4, quarry := Quarry.reset, engineId := 0,
    eth := List.replicate 32 EthPort.reset, ptp := Ptp.reset, tdm := List.replicate 128 Tdm.reset,
    gpi := List.replicate 32 Gpi.reset, gpo := List.replicate 32 Gpo.reset, timing := Timing.reset,
    red := Red.reset, faults := Faults.reset, halted := false, meterSeq := [0, 0],
    loudSeq := [0, 0], loudStepped := false, sv := Sv.reset, journal := Journal.reset, flash := some (Journal.reset, []),
    outbox := [], freeCtr := 0 }

end Sys2Proof.Machine
end

