-- ==== Sys2Proof/Machine/Flags.lean ====
section
/-! DEFINITION. Bit fields, little-endian bytes (R10), signed fields (R7), W1C semantics (R13, R533), and the
checks' arithmetic: CRC-16 of an ashlar (R493) and CRC-8 of the service port (R568). -/

/-- Put one element before the first that it may precede. -/
def List.putInOrder {α : Type} (le : α → α → Bool) (a : α) : List α → List α
  | [] => [a]
  | b :: bs => if le a b then a :: b :: bs else b :: List.putInOrder le a bs

/-- Sort by an order, equal elements as they stood. -/
def List.inOrder {α : Type} (l : List α) (le : α → α → Bool) : List α := l.foldr (List.putInOrder le) []

namespace Sys2Proof.Machine

/-- Bit `i` of `n`. -/
def bit (n i : Nat) : Bool := n.testBit i

/-- Field `hi`-`lo` of `n`. -/
def bits (n hi lo : Nat) : Nat := (n / 2 ^ lo) % 2 ^ (hi + 1 - lo)

/-- A Bool as bit `i`. -/
def flagAt (b : Bool) (i : Nat) : Nat := if b then 2 ^ i else 0

def setBit (n i : Nat) : Nat := if n.testBit i then n else n + 2 ^ i

def clearBit (n i : Nat) : Nat := if n.testBit i then n - 2 ^ i else n

/-- Write of a W1C field (R13): each 1 clears its bit. -/
def w1c (old mask : Nat) : Nat := old - (old &&& mask)

/-- `k` bytes of `n`, least significant first (R10). -/
def le : Nat → Nat → List Byte
  | 0, _ => []
  | k + 1, n => BitVec.ofNat 8 n :: le k (n / 256)

/-- The little-endian value of bytes. -/
def leNat : List Byte → Nat
  | [] => 0
  | b :: bs => b.toNat + 256 * leNat bs

/-- `k` bytes from offset `o`; a byte beyond the end reads 0. -/
def slice (bs : List Byte) (o k : Nat) : List Byte :=
  let t := (bs.drop o).take k
  t ++ List.replicate (k - t.length) 0

/-- The little-endian field of `k` bytes at `o`. -/
def fieldAt (bs : List Byte) (o k : Nat) : Nat := leNat ((bs.drop o).take k)

/-- A 32-bit field read as two's complement. -/
def s32 (n : Nat) : Int := if n % 2 ^ 32 < 2 ^ 31 then (n % 2 ^ 32 : Nat) else (n % 2 ^ 32 : Nat) - 2 ^ 32

def s16 (n : Nat) : Int := if n % 2 ^ 16 < 2 ^ 15 then (n % 2 ^ 16 : Nat) else (n % 2 ^ 16 : Nat) - 2 ^ 16

/-- Two's complement code of an integer in `k` bits. -/
def twos (k : Nat) (n : Int) : Nat := (n % 2 ^ k).toNat

/-- A four-byte binary32 or code word. -/
def leWord (w : Word) : List Byte := le 4 w.toNat

/-- One bit of the CRC-16 of polynomial 0x1021. -/
def crc16Bits : Nat → Nat → Nat
  | 0, c => c
  | k + 1, c => crc16Bits k (if c ≥ 2 ^ 15 then ((c * 2) % 2 ^ 16) ^^^ 0x1021 else c * 2)

/-- The ashlar check over bytes in order, initial value 0xFFFF (R493). -/
def crc16 (bs : List Byte) : Nat := bs.foldl (fun c b => crc16Bits 8 (c ^^^ (b.toNat * 256))) 0xFFFF

def crc8Bits : Nat → Nat → Nat
  | 0, c => c
  | k + 1, c => crc8Bits k (if c ≥ 2 ^ 7 then ((c * 2) % 2 ^ 8) ^^^ 0x07 else c * 2)

/-- CRC-8 of polynomial 0x07, initial value 0 (R568, R360). -/
def crc8 (bs : List Byte) : Nat := bs.foldl (fun c b => crc8Bits 8 (c ^^^ b.toNat)) 0

/-- One bit of the CRC-64 of ECMA-182 (R470). -/
def crc64Bits : Nat → BitVec 64 → BitVec 64
  | 0, c => c
  | k + 1, c => crc64Bits k (if c.msb then (c <<< 1) ^^^ 0x42F0E1EBA9EA3693#64 else c <<< 1)

def crc64 (bs : List Byte) : BitVec 64 :=
  bs.foldl (fun (c : BitVec 64) (b : Byte) => crc64Bits 8 (c ^^^ BitVec.ofNat 64 (b.toNat * 2 ^ 56))) 0#64

/-- Apply `f` at index `i` of a list. -/
def modAt {α : Type} (l : List α) (i : Nat) (f : α → α) : List α :=
  match l, i with
  | [], _ => []
  | x :: xs, 0 => f x :: xs
  | x :: xs, i + 1 => x :: modAt xs i f

/-- Look a key up in an association list, 0 where absent. -/
def assoc (l : List (Nat × Nat)) (k : Nat) : Nat := ((l.find? fun p => p.1 == k).map (·.2)).getD 0

/-- Replace or remove a key; a value of 0 leaves no entry. -/
def assocSet (l : List (Nat × Nat)) (k v : Nat) : List (Nat × Nat) :=
  let r := l.filter fun p => p.1 != k
  if v == 0 then r else (k, v) :: r

def sumNat (l : List Nat) : Nat := l.foldl (· + ·) 0

/-- Round `n` up to a multiple of `m`. -/
def roundUp (n m : Nat) : Nat := if m == 0 then n else (n + m - 1) / m * m

def ceilDiv (n m : Nat) : Nat := if m == 0 then 0 else (n + m - 1) / m

end Sys2Proof.Machine
end

