-- ==== Sys2Proof/Machine/Time.lean ====
section
/-! DEFINITION. Quarry time, sample indices, ashlars and ticks (R31-R42), the update of RATE and OFFSET (R34,
R35) and the carrying of RAW to an instant (log entry 6). -/
namespace Sys2Proof.Machine

/-- One second in units of 2^-16 ns (R31). -/
def secondQ : Nat := 65536000000000

/-- OFFSET + floor(RATE * RAW / 2^24) (R33). -/
def quarryAt (c : Clock) (raw : Nat) : Nat := (c.offset + c.rate * raw / 2 ^ 24) % 2 ^ 96

/-- The conversion of a hardware timestamp by the pair in force at its RAW value (R35). -/
def stampAt (c : Clock) (raw : Nat) : Nat :=
  match c.pairs.find? (fun p => p.apply ≤ raw) with
  | some p => (p.offset + p.rate * raw / 2 ^ 24) % 2 ^ 96
  | none => match c.pairs.getLast? with
    | some p => (p.offset + p.rate * raw / 2 ^ 24) % 2 ^ 96
    | none => quarryAt c raw

def State.q (s : State) : Nat := quarryAt s.clk s.clk.raw

/-- fs of a rate code (R241). -/
def rateHz : Nat → Nat
  | 0 => 44100
  | 1 => 48000
  | 2 => 88200
  | 3 => 96000
  | 4 => 176400
  | _ => 192000

/-- Multiplier of a rate code (R241). -/
def rateMult (code : Nat) : Nat := if code < 2 then 1 else if code < 4 then 2 else 4

/-- True for the 44.1 kHz family. -/
def rate44 (code : Nat) : Bool := code % 2 == 0

def State.dom (s : State) (d : Nat) : Dom := s.doms.getD d Dom.reset

def State.setDom (s : State) (d : Nat) (f : Dom → Dom) : State := { s with doms := modAt s.doms d f }

def State.fs (s : State) (d : Nat) : Nat := rateHz (s.dom d).rate

def State.mult (s : State) (d : Nat) : Nat := rateMult (s.dom d).rate

/-- The multiplier a domain's allocation is held for: the larger of its own and of the rate it is changing to (R303). -/
def State.heldMult (s : State) (d : Nat) : Nat :=
  match (s.dom d).seq with
  | some q => if q.newRate ≤ 5 then max (s.mult d) (rateMult q.newRate) else s.mult d
  | none => s.mult d

/-- The sample index of an instant (R37). -/
def indexAt (q fs : Nat) : Nat := q * fs / secondQ

/-- The instant of a sample: the least Q whose index is `n` (R37). -/
def instantOf (n fs : Nat) : Nat := ceilDiv (n * secondQ) fs

/-- The first sample at or after an instant (R51). -/
def firstAt (q fs : Nat) : Nat := ceilDiv (q * fs) secondQ

/-- Present sample index of a domain. -/
def State.idx (s : State) (d : Nat) : Nat := indexAt s.q (s.fs d)

/-- Present ashlar of a domain (R52). -/
def State.ash (s : State) (d : Nat) : Nat := s.idx d / 8

/-- Present domain A ashlar, the one events and responses carry (R42). -/
def State.now (s : State) : Nat := s.ash 0

/-- Own samples of a control tick (R41). -/
def State.tickLen (s : State) (d : Nat) : Nat := 48 * s.mult d

/-- Present control tick of a domain. -/
def State.tickOf (s : State) (d : Nat) : Nat := s.idx d / s.tickLen d

/-- A domain whose samples are processed (R242). -/
def Dom.runs (d : Dom) : Bool :=
  match d.st with
  | .running => true
  | .fadingOut => true
  | .fadingIn => true
  | _ => false

/-- A domain that a KIND 1 launch may name (R50, R257). -/
def Dom.launchable (d : Dom) : Bool :=
  match d.st with
  | .running => true
  | .fadingIn => true
  | _ => false

/-- The least RAW at which quarry time has reached `q`. -/
def rawFor (c : Clock) (q : Nat) : Nat :=
  ceilDiv ((q + 2 ^ 96 - c.offset) % 2 ^ 96 * 2 ^ 24) c.rate

/-- PPS_OUT pulses now: RUNNING, and with PPS_SQUELCH only while LOCKED or in HOLDOVER before expiry (R453). -/
def State.pulsing (s : State) : Bool :=
  s.sv.st == .running && (!(bit s.timing.clkoutCfg 20) || s.timing.st == .locked || (s.timing.st == .holdover && !s.timing.expired))

/-- The whole second `k` begins: a pulse, unless it would follow the last one by less than 0.5 s (R453). -/
def State.pulse (s : State) (k : Nat) : State :=
  let raw := rawFor s.clk (k * secondQ)
  if s.pulsing && !(s.timing.ppsLast.any fun r => raw < r + 125000000) then
    { s with outbox := s.outbox ++ [.pps k], timing := { s.timing with ppsLast := some raw } }
  else s

/-- RAW reaches a value; the whole seconds passed give their pulses. -/
def State.toRaw (s : State) (raw : Nat) : State :=
  let a := s.q / secondQ
  let t : State := { s with clk := { s.clk with raw := raw } }
  (List.range (t.q / secondQ - a)).foldl (fun s i => s.pulse (a + 1 + i)) t

/-- Carry RAW to the instant `q`, if it has not passed it (log entry 6). -/
def State.carryTo (s : State) (q : Nat) : State := if q ≤ s.q then s else s.toRaw (rawFor s.clk q)

/-- Change RATE at RAW value `c` and keep quarry time continuous (R34); keep 16 pairs (R35). -/
def State.setRate (s : State) (rate' c : Nat) : State :=
  let off := (s.clk.offset + s.clk.rate * c / 2 ^ 24 + 2 ^ 96 - rate' * c / 2 ^ 24 % 2 ^ 96) % 2 ^ 96
  { s with clk := { s.clk with rate := rate', offset := off,
                               pairs := (⟨c, rate', off⟩ :: s.clk.pairs).take 16 } }

/-- Replace OFFSET, kept in 96 bits, by a step or a time set (R36, R40). -/
def State.setOffset (s : State) (o : Int) : State :=
  let off := twos 96 o
  { s with clk := { s.clk with offset := off, pairs := (⟨s.clk.raw, s.clk.rate, off⟩ :: s.clk.pairs).take 16 } }

/-- Quarry time on the wire (R11): 6 bytes seconds, 4 nanoseconds, 2 fraction. -/
def qBytes (q : Nat) : List Byte :=
  le 6 (q / secondQ) ++ le 4 (q % secondQ / 65536) ++ le 2 (q % 65536)

/-- A quarry time read from 12 bytes; `none` if its nanoseconds are out of range (R11). -/
def qOf (bs : List Byte) (o : Nat) : Option Nat :=
  let ns := fieldAt bs (o + 6) 4
  if ns ≥ 1000000000 then none
  else some (fieldAt bs o 6 * secondQ + ns * 65536 + fieldAt bs (o + 10) 2)

/-- The launch of a change without a launch index (R52): the first tick boundary at which it is on time
with a warm-up of `w`, committed in the domain's ashlar `a`. -/
def tickFor (len w a : Nat) : Nat := roundUp (8 * (a + 2) + w) len

/-- On time under R53 and R217. -/
def onTime (s w a : Nat) : Bool := 8 * (a + 2) + w ≤ s

end Sys2Proof.Machine
end

