-- ==== Sys2Proof/Machine/Ops.lean ====
section
/-! DEFINITION. The named operations on the state: memory, handles and objects, counters, events, interrupts,
outputs and free values. -/
namespace Sys2Proof.Machine

/-! ## Memory (R535): ascending (address, byte) cells, an unlisted address reads 0 (log entry 4) -/

/-- What an address no cell lists reads as. -/
def memDefault : Byte := 0

/-- Read one byte. -/
def memRead : List Host.Cell → Nat → Byte
  | [], _ => memDefault
  | c :: cs, a => if c.1 == a then c.2 else if a < c.1 then memDefault else memRead cs a

/-- Write one byte; writing the default removes the cell. -/
def memWrite : List Host.Cell → Nat → Byte → List Host.Cell
  | [], a, b => if b == memDefault then [] else [(a, b)]
  | c :: cs, a, b =>
    if c.1 == a then (if b == memDefault then cs else (a, b) :: cs)
    else if a < c.1 then (if b == memDefault then c :: cs else (a, b) :: c :: cs)
    else c :: memWrite cs a b

/-- The canonical form: addresses strictly rising, no cell equal to the default. -/
def memWf : List Host.Cell → Bool
  | [] => true
  | [c] => c.2 != memDefault
  | c :: d :: cs => c.2 != memDefault && c.1 < d.1 && memWf (d :: cs)

def memWriteAll (m : List Host.Cell) : Nat → List Byte → List Host.Cell
  | _, [] => m
  | a, b :: bs => memWriteAll (memWrite m a b) (a + 1) bs

def memReadAll (m : List Host.Cell) (a : Nat) : Nat → List Byte
  | 0 => []
  | n + 1 => memRead m a :: memReadAll m (a + 1) n

/-- Put `n` bytes from `a` back to the default. -/
def memClear (m : List Host.Cell) (a n : Nat) : List Host.Cell := m.filter fun c => c.1 < a || a + n ≤ c.1

def State.write (s : State) (a : Nat) (bs : List Byte) : State := { s with mem := memWriteAll s.mem a bs }

def State.read (s : State) (a n : Nat) : List Byte := memReadAll s.mem a n

/-! ## Handles and objects (R284, R285) -/

/-- A handle word (R284). -/
def mkHandle (ty gen idx : Nat) : Nat := ty * 2 ^ 26 + gen % 64 * 2 ^ 20 + idx % 2 ^ 20

def hType (h : Nat) : Nat := h / 2 ^ 26 % 64

def hGen (h : Nat) : Nat := h / 2 ^ 20 % 64

def hIdx (h : Nat) : Nat := h % 2 ^ 20

def Obj.handle (o : Obj) : Nat := mkHandle o.ty o.gen o.idx

/-- The object at an index of a type. -/
def State.objAt (s : State) (ty idx : Nat) : Option Obj := s.objs.find? fun o => o.ty == ty && o.idx == idx

/-- The object a handle names, its generation compared (R285). -/
def State.obj (s : State) (h : Nat) : Option Obj :=
  match s.objAt (hType h) (hIdx h) with
  | some o => if o.gen == hGen h then some o else none
  | none => none

/-- Change the object at an index. -/
def State.modObj (s : State) (ty idx : Nat) (f : Obj → Obj) : State :=
  { s with objs := s.objs.map fun o => if o.ty == ty && o.idx == idx then f o else o }

/-- Change the object a handle names. -/
def State.upd (s : State) (h : Nat) (f : Obj → Obj) : State := s.modObj (hType h) (hIdx h) f

def State.tab (s : State) (ty : Nat) : HandleTab := s.tabs.getD ty { gens := [], freed := [] }

/-- The generation an index takes at its next allocation (R285). -/
def HandleTab.gen (t : HandleTab) (i : Nat) : Nat :=
  match t.want.find? fun p => p.1 == i with
  | some p => p.2
  | none =>
    match t.gens.find? fun p => p.1 == i with
    | some p => (p.2 + 1) % 64
    | none => 1

/-- How long ago an index was freed: 0 for one never allocated, else its place in the freed order plus 1;
`none` while allocated. -/
def HandleTab.age (t : HandleTab) (i : Nat) : Option Nat :=
  if t.gens.all fun p => p.1 != i then some 0
  else (t.freed.findIdx? fun j => j == i).map (· + 1)

/-- The age of a run of `n` indices from `i`: that of its most recently freed member. -/
def HandleTab.runAge (t : HandleTab) (i : Nat) : Nat → Option Nat
  | 0 => some 0
  | n + 1 => match t.age i, t.runAge (i + 1) n with
    | some a, some b => some (max a b)
    | _, _ => none

/-- The lowest aligned run never allocated. -/
def HandleTab.fresh (t : HandleTab) (n align : Nat) : Nat → Nat → Option Nat
  | 0, _ => none
  | k + 1, i => if t.runAge i n == some 0 then some i else t.fresh n align k (i + align)

/-- Among all aligned runs, the one whose most recently freed member was freed longest ago. -/
def HandleTab.oldest (t : HandleTab) (n align : Nat) : Nat → Nat → Option (Nat × Nat)
  | 0, _ => none
  | k + 1, i =>
    match t.runAge i n, t.oldest n align k (i + align) with
    | some a, some (b, j) => if a ≤ b then some (a, i) else some (b, j)
    | some a, none => some (a, i)
    | none, r => r

/-- The free run an allocation takes from indices `base` to `base + limit - 1` (R285). -/
def HandleTab.pick (t : HandleTab) (n align base limit : Nat) : Option Nat :=
  if limit < n then none else
  let k := (limit - n) / align + 1
  match t.want.find? fun p => base ≤ p.1 && p.1 + n ≤ base + limit && (p.1 - base) % align == 0 with
  | some p => some p.1
  | none =>
    match t.fresh n align k base with
    | some i => some i
    | none => (t.oldest n align k base).map (·.2)

/-- Mark indices as allocated and step their generations. -/
def HandleTab.take (t : HandleTab) : List Nat → HandleTab
  | [] => t
  | i :: is =>
    let g := t.gen i
    HandleTab.take { gens := (i, g) :: t.gens.filter (fun p => p.1 != i), freed := t.freed.filter (· != i),
                     want := t.want.filter fun p => p.1 != i } is

def HandleTab.drop (t : HandleTab) (is : List Nat) : HandleTab := { t with freed := t.freed ++ is }

/-- Add a new object of a type at an index the pick chose, its generation stepped (R285). -/
def State.addObj (s : State) (o : Obj) : State :=
  let t := s.tab o.ty
  { s with objs := s.objs ++ [{ o with gen := t.gen o.idx, epoch := s.epoch }],
           tabs := modAt s.tabs o.ty fun t => t.take [o.idx] }

/-- Remove an object and free its index. -/
def State.dropObj (s : State) (ty idx : Nat) : State :=
  { s with objs := s.objs.filter (fun o => !(o.ty == ty && o.idx == idx)),
           tabs := modAt s.tabs ty fun t => t.drop [idx] }

/-! ## Counters (R507-R509): keyed by byte offset in the counter area -/

def State.ctr (s : State) (off : Nat) : Nat := assoc s.ctrs off

def State.addCtr (s : State) (off n : Nat) : State :=
  { s with ctrs := assocSet s.ctrs off ((s.ctr off + n) % 2 ^ 64) }

def ctrMisfit : Nat := 0x40
def ctrRegion : Nat := 0x48
def ctrFaultRecords : Nat := 0x50
def ctrFaultTransient : Nat := 0x58
def ctrFaultLasting : Nat := 0x60
def ctrFaultUncorrected : Nat := 0x68
def ctrSweep : Nat := 0x70
def ctrTetherRetries : Nat := 0x78
def ctrTetherLost : Nat := 0x80
def ctrHaltsSeen : Nat := 0x88
def ctrTransplants : Nat := 0x90
def ctrRecallsSlipped : Nat := 0x98
/-- Counter k of desk d: PROTO_ERR_TOTAL, AUTH_FAIL, EVENTS_LOST, ACCEPTED, REFUSED. -/
def ctrDesk (d k : Nat) : Nat := 0x400 + 64 * d + 8 * k
def ctrDom (d k : Nat) : Nat := 0xC00 + 64 * d + 8 * k
def ctrTdm (p k : Nat) : Nat := 0x1000 + 128 * p + 8 * k
def ctrSlot (p slot k : Nat) : Nat := 0x8000 + 32 * (32 * p + slot) + 8 * k
def ctrLane (l k : Nat) : Nat := 0x28000 + 128 * l + 8 * k
def ctrEth (p k : Nat) : Nat := 0x29000 + 64 * p + 8 * k
def ctrGpi (p k : Nat) : Nat := 0x29800 + 16 * p + 8 * k
def ctrGpo (p k : Nat) : Nat := 0x29A00 + 32 * p + 8 * k
def ctrTiles (i : Nat) : Nat := 0x2A000 + 8 * (i - 0xF0000)
def ctrBridge (i : Nat) : Nat := 0x2B000 + 8 * i
def ctrStream (i k : Nat) : Nat := 0x30000 + 64 * i + 8 * k
def ctrRing (i k : Nat) : Nat := 0x100000 + 32 * i + 8 * k
def ctrBlock (i k : Nat) : Nat := 0x300000 + 16 * i + 8 * k

/-! ## Desks and events (R282, R306, R307) -/

def State.desk (s : State) (d : Nat) : Desk := s.desks.getD d Desk.reset

def State.setDesk (s : State) (d : Nat) (f : Desk → Desk) : State := { s with desks := modAt s.desks d f }

/-- Append one event to a desk's history of 1,024; an undelivered event overwritten is lost (R307). -/
def Desk.push (k : Desk) (code ashlar : Nat) (payload : List Byte) : Desk :=
  let e : Event := { code := code, seq := k.evtSeq, ashlar := ashlar, payload := payload }
  let full := k.history.length ≥ 1024
  let lostOne := full && k.undelivered ≥ 1024
  let first := (k.history.head?.map (·.seq)).getD 0
  { k with
    evtSeq := (k.evtSeq + 1) % 2 ^ 32
    history := (if full then k.history.drop 1 else k.history) ++ [e]
    undelivered := min 1024 (k.undelivered + 1)
    lost := if lostOne then
        match k.lost with
        | some (a, _) => some (a, first)
        | none => some (first, first)
      else k.lost }

/-- Raise an event to one desk. -/
def State.raiseTo (s : State) (d code : Nat) (payload : List Byte) : State :=
  let k := s.desk d
  let lost := k.history.length ≥ 1024 && k.undelivered ≥ 1024
  let s := if lost then s.addCtr (ctrDesk d 2) 1 else s
  s.setDesk d fun k => k.push code s.now payload

/-- Raise an event to each desk named, once each (R306). -/
def State.raise (s : State) (ds : List Nat) (code : Nat) (payload : List Byte) : State :=
  ds.eraseDups.foldl (fun s d => s.raiseTo d code payload) s

/-- Raise an event about an object: its owner, and desk 0 if another desk owns it. -/
def State.raiseObj (s : State) (owner code : Nat) (payload : List Byte) : State := s.raise [owner, 0] code payload

/-- Raise an event to desk 0. -/
def State.raise0 (s : State) (code : Nat) (payload : List Byte) : State := s.raise [0] code payload

/-- The completion prefix of R283. -/
def donePrefix (op status seq : Nat) : List Byte := le 2 op ++ le 2 status ++ le 4 seq

/-! ## Outputs, interrupts, free values -/

def State.emit (s : State) (o : Output) : State := { s with outbox := s.outbox ++ [o] }

def State.emitAll (s : State) (os : List Output) : State := { s with outbox := s.outbox ++ os }

/-- Counters of the pending snapshots that a test picks out are latched as they stand (R515). -/
def State.latchCounts (s : State) (p : PendSnap → Bool) : State :=
  { s with snap := { s.snap with pending := s.snap.pending.map fun x => if p x && x.counts.isNone then { x with counts := some s.ctrs } else x } }

/-- Snapshots of ashlars that are never processed carry GAP (R518). -/
def State.gapSnaps (s : State) (p : PendSnap → Bool) : State :=
  { s with snap := { s.snap with pending := s.snap.pending.map fun x => if p x then { x with gap := true } else x } }

/-- Send an MSI-X vector, or set its pending bit while its table entry is masked (R526). -/
def State.irq (s : State) (v : Nat) : State :=
  if ((s.host.msixTable.getD (4 * v + 3) 0#32).toNat % 2 == 1) then
    { s with host := { s.host with msixPba := s.host.msixPba ||| BitVec.ofNat 64 (2 ^ v) } }
  else s.emit (.msix v)

/-- Take a fresh free value (log entry 2). -/
def State.draw (s : State) : Word × State := (Config.freeWord s.freeCtr, { s with freeCtr := s.freeCtr + 1 })

def State.drawN : Nat → State → List Word × State
  | 0, s => ([], s)
  | n + 1, s =>
    let (w, s) := s.draw
    let (ws, s) := State.drawN n s
    (w :: ws, s)

def State.drawNat (s : State) : Nat × State := (Config.freeNat s.freeCtr, { s with freeCtr := s.freeCtr + 1 })

def State.drawInt (s : State) : Int × State := (Config.freeInt s.freeCtr, { s with freeCtr := s.freeCtr + 1 })

/-- Next acceptance order number (R301). -/
def State.stamp (s : State) : Nat × State := (s.orderCtr, { s with orderCtr := s.orderCtr + 1 })

/-! ## Object content accessors -/

def Obj.chan? (o : Obj) : Option Chan := match o.kind with | .chan c => some c | _ => none
def Obj.ring? (o : Obj) : Option Ring := match o.kind with | .ring r => some r | _ => none
def Obj.route? (o : Obj) : Option Route := match o.kind with | .route r => some r | _ => none
def Obj.group? (o : Obj) : Option Group := match o.kind with | .group g => some g | _ => none
def Obj.tiles? (o : Obj) : Option Tiles := match o.kind with | .tiles t => some t | _ => none
def Obj.scene? (o : Obj) : Option Scene := match o.kind with | .scene c => some c | _ => none
def Obj.stream? (o : Obj) : Option Stream := match o.kind with | .stream c => some c | _ => none
def Obj.block? (o : Obj) : Option Block := match o.kind with | .block c => some c | _ => none
def Obj.meter? (o : Obj) : Option Meter := match o.kind with | .meter c => some c | _ => none
def Obj.bridge? (o : Obj) : Option Bridge := match o.kind with | .bridge c => some c | _ => none
def Obj.svc? (o : Obj) : Option Svc := match o.kind with | .svc c => some c | _ => none
def Obj.capture? (o : Obj) : Option Capture := match o.kind with | .capture c => some c | _ => none

def Obj.onChan (o : Obj) (f : Chan → Chan) : Obj := match o.kind with | .chan c => { o with kind := .chan (f c) } | _ => o
def Obj.onRing (o : Obj) (f : Ring → Ring) : Obj := match o.kind with | .ring c => { o with kind := .ring (f c) } | _ => o
def Obj.onRoute (o : Obj) (f : Route → Route) : Obj := match o.kind with | .route c => { o with kind := .route (f c) } | _ => o
def Obj.onGroup (o : Obj) (f : Group → Group) : Obj := match o.kind with | .group c => { o with kind := .group (f c) } | _ => o
def Obj.onTiles (o : Obj) (f : Tiles → Tiles) : Obj := match o.kind with | .tiles c => { o with kind := .tiles (f c) } | _ => o
def Obj.onScene (o : Obj) (f : Scene → Scene) : Obj := match o.kind with | .scene c => { o with kind := .scene (f c) } | _ => o
def Obj.onStream (o : Obj) (f : Stream → Stream) : Obj := match o.kind with | .stream c => { o with kind := .stream (f c) } | _ => o
def Obj.onBlock (o : Obj) (f : Block → Block) : Obj := match o.kind with | .block c => { o with kind := .block (f c) } | _ => o
def Obj.onMeter (o : Obj) (f : Meter → Meter) : Obj := match o.kind with | .meter c => { o with kind := .meter (f c) } | _ => o
def Obj.onBridge (o : Obj) (f : Bridge → Bridge) : Obj := match o.kind with | .bridge c => { o with kind := .bridge (f c) } | _ => o
def Obj.onSvc (o : Obj) (f : Svc → Svc) : Obj := match o.kind with | .svc c => { o with kind := .svc (f c) } | _ => o
def Obj.onCapture (o : Obj) (f : Capture → Capture) : Obj := match o.kind with | .capture c => { o with kind := .capture (f c) } | _ => o

/-- The objects of one type. -/
def State.ofType (s : State) (ty : Nat) : List Obj := s.objs.filter fun o => o.ty == ty

def tStrip : Nat := 1
def tBus : Nat := 2
def tRing : Nat := 3
def tRoute : Nat := 4
def tGroup : Nat := 5
def tScene : Nat := 6
def tStream : Nat := 7
def tPort : Nat := 8
def tBlock : Nat := 9
def tMeter : Nat := 10
def tBridge : Nat := 11
def tSvc : Nat := 12
def tDesk : Nat := 13
def tCapture : Nat := 14

/-- The ring at an index, with the object that holds it. -/
def State.ringAt (s : State) (idx : Nat) : Option (Obj × Ring) :=
  match s.objAt tRing idx with
  | some o => o.ring?.map fun r => (o, r)
  | none => none

/-- All routes with their objects. -/
def State.routes (s : State) : List (Obj × Route) :=
  s.objs.filterMap fun o => o.route?.map fun r => (o, r)

/-- The supervisor runs the firmware and no control halt holds (R504, R551). -/
def State.serving (s : State) : Bool := s.sv.st == .running && !s.halted

/-- The engine die is out of reset while the supervisor boots or runs (R15, R551). -/
def State.dieOn (s : State) : Bool :=
  match s.sv.st with
  | .boot => true
  | .running => true
  | _ => false

/-- The identifier this engine shows outside: the lowest of its set in pair or triad mode (R456). -/
def State.extId (s : State) : Nat :=
  if s.red.mode == 0 then s.engineId else (s.red.peers.map (·.id)).foldl min s.engineId

/-- This engine is the quarry keeper (R377). -/
def State.isKeeper (s : State) : Bool := s.extId != 0 && s.quarry.keeper == s.extId

/-- A Seam lane that carries frames: up or degraded (R372). -/
def Lane.isUp (l : Lane) : Bool :=
  match l.st with
  | .up => true
  | .degraded => true
  | _ => false

/-- The lanes of the control tree at this engine: its parent lane and those whose peer calls them its own (R377). -/
def State.treeLanes (s : State) : List Nat :=
  (List.range 32).filter fun i =>
    let l := s.lanes.getD i Lane.reset
    l.isUp && (i == s.quarry.parent || bit l.topo 5)

def State.setLane (s : State) (i : Nat) (f : Lane → Lane) : State := { s with lanes := modAt s.lanes i f }

def State.lane (s : State) (i : Nat) : Lane := s.lanes.getD i Lane.reset

/-- Originate a control record (R378, R379): towards the keeper on the parent lane, otherwise on every tree lane. -/
def State.sendCtrl (s : State) (typ dst : Nat) (body : List Byte) : State :=
  let r : CtrlRec := { typ := typ, ttl := 255, src := s.extId, dst := dst, body := body }
  let to_ := if dst == s.quarry.keeper && !s.isKeeper then s.treeLanes.filter (· == s.quarry.parent) else s.treeLanes
  to_.foldl (fun s i => s.setLane i fun l => { l with origin := l.origin ++ [r] }) s

end Sys2Proof.Machine
end

