-- ==== Sys2Proof/Machine/Operands.lean ====
section
/-! DEFINITION. Operand forms of the Ruzia commands: payload fields (R311), the launch field (R50-R54), overrides
(R313), the bulk descriptor (R298), handle operands (R285, R304), and the refusal a check answers with (R309). -/
namespace Sys2Proof.Machine

/-! ## Status codes (R309) -/

def eOpcode : Nat := 0x0101
def eLength : Nat := 0x0102
def eHandle : Nat := 0x0103
def eStale : Nat := 0x0104
def eRange : Nat := 0x0105
def eState : Nat := 0x0106
def eQuota : Nat := 0x0201
def eNoResource : Nat := 0x0202
def eClass : Nat := 0x0203
def eLate : Nat := 0x0301
def eBusy : Nat := 0x0302
def eDenied : Nat := 0x0401
def eAuth : Nat := 0x0402
def eStandby : Nat := 0x0501
def eStaleEpoch : Nat := 0x0502

/-- A refusal with its error payload (R282). -/
structure Err where
  status : Nat
  field : Nat := 0xFFFF
  item : Nat := 0xFFFF
  handle : Nat := 0
  detail : List Byte := []
  deriving DecidableEq, Repr

/-- An accepted command's status and payload. -/
structure Resp where
  status : Nat
  payload : List Byte
  deriving DecidableEq, Repr

def Err.bytes (e : Err) : List Byte := le 2 e.field ++ le 2 e.item ++ le 4 e.handle ++ e.detail.take 232

/-- Refuse with a status unless a condition holds. -/
def need (b : Bool) (status : Nat) (field : Nat := 0xFFFF) (handle : Nat := 0) : Except Err Unit :=
  if b then .ok () else .error { status := status, field := field, handle := handle }

/-- What a command body answers: the next state and the response. -/
abbrev Body := State → CmdFrame → Except Err (State × Resp)

def okResp (s : State) (p : List Byte := []) : Except Err (State × Resp) := .ok (s, { status := 0, payload := p })

def accResp (s : State) (p : List Byte := []) : Except Err (State × Resp) := .ok (s, { status := 1, payload := p })

/-! ## Payload fields -/

/-- The `k`-byte little-endian field at payload offset `o`. -/
def fld (f : CmdFrame) (o k : Nat) : Nat := fieldAt f.payload o k

def u8 (f : CmdFrame) (o : Nat) : Nat := fld f o 1
def u16 (f : CmdFrame) (o : Nat) : Nat := fld f o 2
def u32 (f : CmdFrame) (o : Nat) : Nat := fld f o 4
def u64 (f : CmdFrame) (o : Nat) : Nat := fld f o 8

/-- Reserved payload bytes must be zero (R12). -/
def reserved (f : CmdFrame) (o k : Nat) : Except Err Unit := need (fld f o k == 0) eRange o

/-- A field with an override code (R313). -/
def override (v code dflt : Nat) : Nat := if v == code then dflt else v

/-! ## Handles (R285, R304) -/

/-- Resolve a handle of the types allowed. -/
def resolve (s : State) (tys : List Nat) (h field : Nat) : Except Err Obj :=
  if !(tys.contains (hType h)) then .error { status := eHandle, field := field, handle := h } else
  match s.objAt (hType h) (hIdx h) with
  | none => .error { status := eHandle, field := field, handle := h }
  | some o => if o.gen == hGen h then .ok o else .error { status := eStale, field := field, handle := h }

/-- Resolve a port handle to its index: ports never change generation (R327). -/
def resolvePort (s : State) (h field : Nat) : Except Err Nat :=
  let i := hIdx h
  let lane := i - 768
  let ethOk := 768 ≤ i && i < 800 &&
    (match s.quadModes.getD (lane / 4) 4 with
      | 1 => lane % 4 == 0
      | 2 => true
      | 3 => true
      | _ => false)
  let known := i < 128 || (256 ≤ i && i < 288) || i == 512 || i == 513 || ethOk || (1024 ≤ i && i < 1088)
  if hType h != tPort || !known then .error { status := eHandle, field := field, handle := h }
  else if hGen h != 1 then .error { status := eStale, field := field, handle := h }
  else .ok i

def portHandle (i : Nat) : Nat := mkHandle tPort 1 i

/-- Only the owning desk and desk 0 may change an object (R304). -/
def owned (f : CmdFrame) (desk h : Nat) (field : Nat := 0) : Except Err Unit :=
  need (f.desk == desk || f.desk == 0) eDenied field h

/-- An object open to change: no free under way, and not still being allocated (R303, R315). -/
def settled (o : Obj) (field : Nat := 0) : Except Err Unit := do
  need (!o.freeing) eState field o.handle
  need (o.job.isNone) eBusy field o.handle

/-! ## Launches (R50-R53) -/

/-- A launch field: its KIND, DOMAIN and VALUE (the index, or Q). -/
structure Launch where
  kind : Nat
  dom : Nat
  val : Nat
  deriving DecidableEq, Repr

/-- Form and state of a launch field at an offset (R50). -/
def launchAt (s : State) (f : CmdFrame) (o : Nat) : Except Err Launch := do
  let k := u8 f o
  need (k ≤ 2) eRange o
  need (u16 f (o + 2) == 0) eRange (o + 2)
  if k == 0 then
    need (u8 f (o + 1) == 0 && fld f (o + 4) 12 == 0) eRange (o + 4)
    .ok { kind := 0, dom := 0, val := 0 }
  else if k == 1 then
    need (u8 f (o + 1) ≤ 2) eRange (o + 1)
    need (u32 f (o + 12) == 0) eRange (o + 12)
    need ((s.dom (u8 f (o + 1))).launchable) eState (o + 1)
    .ok { kind := 1, dom := u8 f (o + 1), val := u64 f (o + 4) }
  else
    need (u8 f (o + 1) == 0) eRange (o + 1)
    match qOf f.payload (o + 4) with
    | some q => .ok { kind := 2, dom := 0, val := q }
    | none => .error { status := eRange, field := o + 4 }

/-- The launch index in a domain numbered at rate `fs` (R51). -/
def Launch.indexFor (l : Launch) (s : State) (fs : Nat) : Nat :=
  if l.kind == 1 then ceilDiv (l.val * fs) (s.fs l.dom) else firstAt l.val fs

/-- The launch index in a domain (R51). -/
def Launch.index (l : Launch) (s : State) (d : Nat) : Nat := l.indexFor s (s.fs d)

/-- Added to an index that is counted under the rate a domain in FADING_OUT is to restart at (R257). -/
def farMark : Nat := 2 ^ 62

/-- The restart index of a domain that fades out or is halted; 0 before a stop, where writes come into force at the stop. -/
def Dom.restartAt (m : Dom) : Nat := (m.seq.map (·.restart)).getD 0

/-- The rate code a domain runs at once its sequence has ended. -/
def Dom.coming (m : Dom) : Nat :=
  match m.seq with
  | some q => if q.newRate ≤ 5 then q.newRate else m.rate
  | none => m.rate

/-- When a change takes effect in a domain: its index, whether it carries a launch, and whether it slipped
from `asked` (R52, R53, R218, R219, R257). -/
structure When where
  s : Nat
  tick : Bool
  asked : Nat
  slipped : Bool
  now : Bool
  deriving DecidableEq, Repr

/-- The index a response gives (R317); open where the domain processes no sample and no restart is known (R257). -/
def When.index (w : When) : Nat := if w.now || w.s % farMark == 0 then Config.openIndex w.asked else w.s % farMark

/-- Decide a launch for a change in domain `d` with warm-up `w`. `strict` refuses a slip (R219). -/
def schedule (s : State) (l : Launch) (d w : Nat) (strict : Bool) (field : Nat) : Except Err When :=
  let dm := s.dom d
  let a := s.ash d
  let mark := if dm.st == .fadingOut then farMark else 0
  if dm.st == .stopped then
    -- stored at acceptance, or applied at its instant while the domain is STOPPED (R257)
    .ok { s := if l.kind == 0 then 0 else l.index s d, tick := l.kind == 0, asked := s.orderCtr,
          slipped := false, now := l.kind == 0 }
  else if l.kind == 0 then
    if dm.launchable then .ok { s := tickFor (s.tickLen d) w a, tick := true, asked := 0, slipped := false, now := false }
    else .ok { s := mark + dm.restartAt, tick := true, asked := s.orderCtr, slipped := false, now := false }
  else
    let i := l.index s d
    if i > s.idx d + 2 ^ 32 then .error { status := eRange, field := field }
    else if !dm.launchable then
      let i := l.indexFor s (rateHz dm.coming)
      .ok { s := mark + max i dm.restartAt, tick := i < dm.restartAt, asked := i, slipped := false, now := false }
    else if onTime i w a then .ok { s := i, tick := false, asked := i, slipped := false, now := false }
    else
      let s' := tickFor (s.tickLen d) w a
      if strict then .error { status := eLate, field := field, detail := le 8 s' }
      else .ok { s := s', tick := false, asked := i, slipped := true, now := false }

/-- Step 17 for a schedule decided before the resources were: a strict command that would slip is late (R219). -/
def lateCheck (f : CmdFrame) (w : When) : Except Err Unit :=
  if bit f.flags 1 && w.slipped then .error { status := eLate, detail := le 8 w.s } else .ok ()

def strictFlag (f : CmdFrame) : Bool := bit f.flags 1

def deferredOk (f : CmdFrame) : Bool := bit f.flags 2

/-- LAUNCH_SLIPPED (R342) for a command that slipped. -/
def State.slipEvent (s : State) (f : CmdFrame) (op reason : Nat) (w : When) : State :=
  if w.slipped then
    s.raise [f.desk] 0x0102 (le 2 op ++ le 1 reason ++ le 1 0 ++ le 4 f.seq ++ le 8 w.asked ++ le 8 w.s)
  else s

/-! ## Bulk descriptors (R298, R300) -/

structure Bulk where
  mode : Nat
  dir : Nat
  entries : Nat
  len : Nat
  list : Nat
  deriving DecidableEq, Repr

/-- Read and check a bulk descriptor against the direction and limit of its command. -/
def bulkAt (s : State) (f : CmdFrame) (o dir limit : Nat) : Except Err Bulk := do
  let b : Bulk := { mode := u8 f o, dir := u8 f (o + 1), entries := u16 f (o + 2), len := u32 f (o + 4), list := u64 f (o + 8) }
  need (b.mode == 1 || b.mode == 2) eRange o
  need (b.dir == dir) eRange (o + 1)
  if b.mode == 1 then
    need (1 ≤ b.entries && b.entries ≤ 4096) eRange (o + 2)
    need (b.list % 16 == 0) eRange (o + 8)
  else
    need (b.entries == 0) eRange (o + 2)
    need (b.list == 0) eRange (o + 8)
  need (b.len % 4 == 0 && b.len ≤ limit) eRange (o + 4)
  need (b.mode == 2 || (s.desk f.desk).transport == .pcie) eState o
  need (!(b.mode == 2 && dir == 0 && ((s.desk f.desk).collecting).isSome)) eBusy o
  .ok b

/-- The number of deferred commands a desk holds (R305). -/
def State.jobsOf (s : State) (d : Nat) : Nat := (s.jobs.filter fun j => j.desk == d).length

/-- Hold a deferred command; opens a fragment collection for a MODE 2 payload to the engine. -/
def State.defer (s : State) (f : CmdFrame) (op handle : Nat) (b : Option Bulk) (stage num : Nat) : State :=
  let (n, s) := s.stamp
  let j : Job := { desk := f.desk, seq := f.seq, op := op, frame := f, order := n, handle := handle,
                   ashlar := s.now, data := [], stage := stage, num := num }
  let s := { s with jobs := s.jobs ++ [j] }
  match b with
  | some b =>
    if b.mode == 2 && b.dir == 0 then
      s.setDesk f.desk fun k => { k with collecting := some { seq := f.seq, total := b.len, have_ := [] } }
    else s
  | none => s

/-- A thirty-third deferred command is refused (R305). -/
def mayDefer (s : State) (f : CmdFrame) : Except Err Unit := need (s.jobsOf f.desk < 32) eBusy

/-! ## Classes and quotas (R316, R343-R346) -/

/-- The class an allocation takes; E_RANGE and E_CLASS as R309 orders them. -/
def classOf (s : State) (f : CmdFrame) (o : Nat) : Except Err Nat := do
  let c := u8 f o
  need (c ≤ 3 || c == 0xFF) eRange o
  .ok (if c == 0xFF then (s.desk f.desk).defClass else c)

/-- Step 13: the class is permitted to the desk (R346). Desk 0 may hold every class. -/
def classPermitted (s : State) (desk cls field : Nat) : Except Err Unit :=
  need (desk == 0 || cls ≥ (s.desk desk).quota.getD 10 3) eClass field

/-- The first output ring's handle and the domain, class and similar operand checks share this one. -/
def domainAt (f : CmdFrame) (o : Nat) : Except Err Nat := do
  need (u8 f o ≤ 2) eRange o
  .ok (u8 f o)

/-- Allocations are refused while the domain fades out or is halted (R257). -/
def allocatable (s : State) (d : Nat) (field : Nat := 0) : Except Err Unit :=
  need ((s.dom d).st != .fadingOut && (s.dom d).st != .halted) eBusy field

/-- A deferred command on an object is open (R303, R314, R315). -/
def State.openOn (s : State) (h : Nat) : Bool := s.jobs.any fun j => j.handle == h

/-- The info prefix of R314. -/
def Obj.stateCode (o : Obj) (s : State) : Nat :=
  if o.freeing then 1 else if s.openOn o.handle then 2 else if o.staged > 0 then 3 else 0

def Obj.prefixBytes (o : Obj) (s : State) : List Byte :=
  le 4 o.handle ++ le 1 o.desk ++ le 1 o.cls ++ le 1 (if o.dom ≤ 2 then o.dom else 0xFF) ++ le 1 (o.stateCode s) ++
    le 4 o.charge ++ le 4 o.safe

/-- `f` over list indices 0 to n - 1, collecting results in order or the first refusal. -/
def eachItem {α : Type} (f : Nat → Except Err α) : Nat → Nat → Except Err (List α)
  | 0, _ => .ok []
  | n + 1, i => do
    let x ← f i
    let xs ← eachItem f n (i + 1)
    .ok (x :: xs)

end Sys2Proof.Machine
end

