-- ==== Sys2Proof/Machine/Ruzia.lean ====
section
/-! DEFINITION. The Ruzia command operation every opcode shares: the check order of R309, the sequence rule of
R293, the response and its carrier (R281, R282, R289, R291, R294), acceptance (R301), the standby rule (R308) and the
completion of deferred commands (R283, R305). -/
namespace Sys2Proof.Machine

/-- Access kind of an opcode (R308). -/
inductive Acc where
  | read
  | change
  | locl
  deriving DecidableEq, Repr

/-- Internal address of the mailbox SRAM (R535). -/
def mailboxBase : Nat := 0x02000000

def slotAddr (d off size n : Nat) : Nat := mailboxBase + d * 0x1800 + off + n * size

/-- Entries of a mailbox ring (R287). -/
def ringHeld (tail head : Nat) : Nat := (tail + 65536 - head) % 65536


/-- Response frame bytes (R281, R282). -/
def responseBytes (op : Nat) (f : CmdFrame) (status ashlar : Nat) (payload : List Byte) : List Byte :=
  le 2 op ++ le 2 payload.length ++ le 4 f.seq ++ le 2 f.desk ++ le 2 status ++ le 4 (ashlar % 2 ^ 32) ++ payload

/-- Write a frame into a desk's response ring, advance RSP_TAIL and interrupt (R289). -/
def State.writeResponse (s : State) (d : Nat) (bs : List Byte) : State :=
  let k := s.desk d
  let s := s.write (slotAddr d 0x800 256 (k.rspTail % 8)) bs
  let s := s.setDesk d fun k => { k with rspTail := (k.rspTail + 1) % 65536 }
  if k.rspIrqEn then s.irq d else s

/-- Send a response on the carrier its command came by. -/
def State.respond (s : State) (f : CmdFrame) (bs : List Byte) : State :=
  match f.via with
  | .pcie => s.writeResponse f.desk bs
  | .udp addr port => s.emit (.datagram addr port 2 f.desk bs)
  | .seam e => s.sendCtrl 1 e bs

def fromSeam (v : Via) : Option Nat := match v with | .seam e => some e | _ => none

/-- The carrier agrees with the desk's attachment (R294, R295). -/
def attached (k : Desk) (v : Via) : Bool :=
  match v, k.transport with
  | .pcie, .pcie => true
  | .udp _ _, .udp => true
  | .seam e, .seam => e == k.engine
  | _, _ => false

/-- SEQUENCE `a` is newer than `b` (R293). -/
def newer (a b : Nat) : Bool :=
  let d := (a + 2 ^ 32 - b) % 2 ^ 32
  1 ≤ d && d < 2 ^ 31

/-- Opcodes accepted while no session is open (R296). -/
def sessionFree (op : Nat) : Bool := op == 0x0100 || op == 0x0201

/-- Steps 1 and 2 of R309. -/
def frameCheck (f : CmdFrame) : Except Err Unit := do
  need (f.len ≤ 240 && f.payload.length == f.len) eLength
  need (f.flags < 8 && f.res == 0) eRange

/-- Steps 5 to 7 of R309. -/
def clears (s : State) (op : Nat) (acc : Acc) (desk0 : Bool) (lenOk : CmdFrame → Bool) (f : CmdFrame) :
    Except Err Unit := do
  let k := s.desk f.desk
  need (lenOk f) eLength
  need (attached k f.via) eDenied
  need (k.isOpen || sessionFree op) eState
  need (!desk0 || f.desk == 0) eDenied
  need (!(acc == .change && (s.red.role == .standby || s.red.role == .stale || s.red.role == .forming))) eStandby

/-- A standby-ready peer whose acknowledgement a CHANGE response waits for (R463). -/
def Peer.awaited (p : Peer) : Bool := p.seen && !p.lost && p.hdr.ready

/-- Payload of a response that succeeds: empty with ACK_ONLY (R281). -/
def okPayload (f : CmdFrame) (r : Resp) : List Byte := if bit f.flags 0 then [] else r.payload

/-- Record a taken command and its response (R293). -/
def Desk.keep (k : Desk) (op : Nat) (f : CmdFrame) (bs : List Byte) : Desk :=
  { k with kept := ({ op := op, frame := f, response := bs } :: k.kept).take 32,
           newest := if op == 0x0201 then k.newest else f.seq }

/-- A command accepted that waits for its bulk data; it travels to the standbys once the data has come (R467). -/
def awaitsBulk (s : State) (f : CmdFrame) : Bool := s.jobs.any fun j => j.desk == f.desk && j.seq == f.seq && j.stage == 0

/-- Send the response of a command that passed; a CHANGE on an active with standby-ready peers waits for their
acknowledgements (R463) and travels in the Tether delta (R308, R467). -/
def State.accepted (s : State) (op : Nat) (acc : Acc) (f : CmdFrame) (r : Resp) : State :=
  let bs := responseBytes op f r.status s.now (okPayload f r)
  let s := (s.addCtr (ctrDesk f.desk 3) 1).setDesk f.desk fun k => k.keep op f bs
  if acc == .change && !(awaitsBulk s f) then
    let s := { s with epoch := s.epoch + 1 }
    if s.red.role == .active then
      let s := { s with red := { s.red with sendDelta := s.red.sendDelta ++ [TetherRec.command s.epoch s.orderCtr op f bs] } }
      if s.red.peers.any Peer.awaited then
        { s with red := { s.red with held := s.red.held ++ [(s.epoch, f.desk, bs)] } }
      else s.respond f bs
    else s.respond f bs
  else s.respond f bs

/-- Answer a refusal (R282). -/
def State.refusedWith (s : State) (op : Nat) (f : CmdFrame) (e : Err) : State :=
  let bs := responseBytes op f e.status s.now e.bytes
  ((s.addCtr (ctrDesk f.desk 4) 1).setDesk f.desk fun k => k.keep op f bs).respond f bs

/-- Answer a frame that is not taken as a command of its desk: nothing of it is kept (R282). -/
def State.turnAway (s : State) (op : Nat) (f : CmdFrame) (e : Err) : State :=
  (s.addCtr (ctrDesk f.desk 4) 1).respond f (responseBytes op f e.status s.now e.bytes)

/-- Commands of a desk taken and not answered: those whose responses wait for acknowledgements (R305, R463). -/
def State.unanswered (s : State) (d : Nat) : Nat := (s.red.held.filter fun h => h.2.1 == d).length

/-- Opcodes whose payload begins with the handle of one object, which their refusals name (R282). -/
def namesObject (op : Nat) : Bool :=
  [0x0300, 0x0302, 0x0303, 0x0304, 0x0400, 0x0402, 0x0403, 0x0404, 0x0405, 0x0406, 0x0500, 0x0502, 0x0504, 0x0505, 0x0506,
   0x0600, 0x0602, 0x0603, 0x0604, 0x0700, 0x0702, 0x0703, 0x0800, 0x0802, 0x0806].contains op ||
  [0x0900, 0x0901, 0x0902, 0x0903, 0x0904, 0x0906, 0x0907, 0x0908, 0x0909, 0x0A00, 0x0A03, 0x0A04, 0x0A40, 0x0A42, 0x0A47,
   0x0A48, 0x0A89, 0x0A8A, 0x0C00, 0x0C02, 0x0C03, 0x0C04, 0x0D00, 0x0D02, 0x0D03, 0x0D04, 0x0D06].contains op ||
  [0x1108, 0x1109, 0x110A, 0x1200, 0x1202, 0x1203, 0x1204, 0x1205, 0x1206, 0x1207, 0x1208, 0x1300, 0x1301, 0x1302, 0x1303,
   0x1304, 0x1307, 0x1400, 0x1401].contains op

/-- A refusal that names no object yet names the one its command is about (R282, log entry 9). -/
def Err.concerning (e : Err) (op : Nat) (f : CmdFrame) : Err :=
  if e.handle == 0 && namesObject op then { e with handle := fieldAt f.payload 0 4 } else e

/-- The whole outcome of a command whose checks and body have run. -/
def State.answer (s : State) (op : Nat) (acc : Acc) (f : CmdFrame) (r : Except Err (State × Resp)) : State :=
  match r with
  | .ok (s', r) => if s.unanswered f.desk ≥ 8 then s.refusedWith op f { status := eBusy } else s'.accepted op acc f r
  | .error e => s.refusedWith op f (e.concerning op f)

/-- A desk's response ring has a slot free that no answer still to come has reserved (R290). -/
def rspFree (s : State) (d : Nat) : Bool := ringHeld (s.desk d).rspTail (s.desk d).rspHead + s.unanswered d < 8

/-- A command that the engine can take now: it serves, the desk exists, and a PCIe desk has a response slot. -/
def takeable (s : State) (f : CmdFrame) : Bool :=
  s.serving && f.desk ≤ 16 && (f.via != .pcie || rspFree s f.desk)

/-- The sequence rule for UDP and Seam frames (R293): `none` lets the command through. -/
def repeated (s : State) (op : Nat) (f : CmdFrame) : Option State :=
  let k := s.desk f.desk
  if f.via == .pcie || !(attached k f.via) || op == 0x0201 || newer f.seq k.newest then none
  else match k.kept.find? (fun c => c.op == op && c.frame == f) with
    | some c => some (if s.red.held.any (fun h => h.2.1 == f.desk && h.2.2 == c.response) then s else s.respond f c.response)
    | none => some ((s.addCtr (ctrDesk f.desk 0) 1).setDesk f.desk fun k =>
        { k with protoErrCount := min (k.protoErrCount + 1) 0xFFFFFFFF })

/-- A row of the opcode table: opcode, access kind, desk 0 only, the LENGTH it takes, and its body. -/
structure RuziaOp where
  op : Nat
  acc : Acc
  desk0 : Bool
  lenOk : CmdFrame → Bool
  body : Body

/-- Run one Ruzia command: take it, check it, run its body, answer it. A frame the engine cannot take now stays
with its sender and changes nothing (log entry 7). -/
def ruziaState (o : RuziaOp) (f : CmdFrame) (s : State) : State :=
  if !takeable s f then s else
  match frameCheck f with
  | .error e => s.turnAway o.op f e
  | .ok _ =>
    match repeated s o.op f with
    | some s' => s'
    | none =>
      match clears s o.op o.acc o.desk0 o.lenOk f with
      | .error e => if attached (s.desk f.desk) f.via then s.refusedWith o.op f e else s.turnAway o.op f e
      | .ok _ => s.answer o.op o.acc f (o.body s f)

/-- `ruziaState` as the outcome of a command. -/
def ruzia (o : RuziaOp) (f : CmdFrame) (s : State) : Host.Outcome State Fault Refusal := .next (ruziaState o f s)

/-- A payload of exactly `n` bytes. -/
def len (n : Nat) (f : CmdFrame) : Bool := f.len == n

/-- A fixed part of `fixed` bytes and a COUNT of 2 bytes at `o` giving records of `size` bytes (R311). -/
def lenCount (fixed o size : Nat) (f : CmdFrame) : Bool := f.len ≥ fixed && f.len == fixed + size * u16 f o

/-! ## Completion of deferred commands -/

/-- Remove a job and release its object. -/
def State.closeJob (s : State) (j : Job) : State :=
  let s := { s with jobs := s.jobs.filter fun k => !(k.order == j.order) }
  if j.handle == 0 then s else s.upd j.handle fun o => { o with job := none }

/-- Complete a deferred command with its event (R283). -/
def State.complete (s : State) (j : Job) (code status : Nat) (rest : List Byte := []) : State :=
  (s.closeJob j).raise [j.desk] code (donePrefix j.op status j.seq ++ rest)

/-- Complete with COMMAND_DONE. -/
def State.done (s : State) (j : Job) (status : Nat) (rest : List Byte := []) : State := s.complete j 0x0201 status rest

/-- Data in 240-byte fragments (R299, R300). -/
def fragmentsOf (d seq : Nat) : Nat → Nat → List Byte → List Output
  | 0, _, _ => []
  | n + 1, i, bs =>
    if bs.isEmpty then [] else .bulkFragment d seq i (bs.take 240) :: fragmentsOf d seq n (i + 1) (bs.drop 240)

/-- Send bulk data to the host of a DIR 1 command (R298, R300). -/
def State.sendBulk (s : State) (f : CmdFrame) (mode : Nat) (bs : List Byte) : State :=
  if mode == 1 then s.emit (.hostBulk f.desk f.seq bs)
  else s.emitAll (fragmentsOf f.desk f.seq (bs.length + 1) 0 bs)

/-- The change the command counts for its desk; a step 14 test shared by the opcodes that defer. -/
def Desk.busyBulk (k : Desk) : Bool := k.collecting.isSome

end Sys2Proof.Machine
end

