-- ==== Sys2Proof/Machine/Resources.lean ====
section
/-! DEFINITION. Allocation: quota use (R345), rings and their placement (R55-R58, R243), bank load (R83-R87), cores and
placement (R95-R105), sinks (R72), the feed graph (R188). -/
namespace Sys2Proof.Machine

/-! ## Quota use (R345) -/

/-- A deep ring (R57). -/
def Ring.deep (r : Ring) : Bool := r.depth > 64 * r.mult

/-- The depth a ring is to have, a change still to act counted (R71). -/
def Ring.depthDue (r : Ring) : Nat := (r.newDepth.map (·.2)).getD r.depth

def Ring.deepDue (r : Ring) : Bool := r.depthDue > 64 * r.mult

/-- Tile-slots of a tile set (R167). -/
def tileSlots (s : State) (o : Obj) : Nat :=
  match o.tiles? with
  | some t => t.tiles.length * s.heldMult o.dom
  | none => 0

/-- A block instance inside a host object: its charge is part of the host's. -/
def hostedBlock (o : Obj) : Bool := match o.block? with | some b => b.host != 0 | none => false

/-- One object's share of a quota kind. -/
def useOf (s : State) (kind : Nat) (o : Obj) : Nat :=
  match kind with
  | 1 => if o.ty == tStrip then (o.chan?.map (·.width)).getD 0 else 0
  | 2 => if o.ty == tBus then (o.chan?.map (·.width)).getD 0 else 0
  | 3 => tileSlots s o
  | 4 => (o.ring?.map (·.rows.length)).getD 0
  | 5 => (o.ring?.map fun r => if r.deepDue then r.rows.length else 0).getD 0
  | 6 => if o.ty == tRoute then 1 else 0
  | 7 => if o.ty == tStream then 1 else 0
  | 8 => if hostedBlock o then 0 else o.charge
  | 9 => if o.ty == tScene then 1 else 0
  | _ => 0

/-- Use of a kind by a desk; kind 11 is the lowest class held, 4 when none (R321). -/
def useAll (s : State) (desk kind : Nat) : Nat :=
  if kind == 10 then (s.desk desk).recallUse
  else if kind == 11 then (s.objs.filter fun o => o.desk == desk && o.cls ≤ 3).foldl (fun m o => min m o.cls) 4
  else sumNat ((s.objs.filter fun o => o.desk == desk).map (useOf s kind))

/-- Step 15: `add` more of a kind stays within the desk's quota (R345); desk 0 has none (R343). -/
def within (s : State) (desk kind add : Nat) : Except Err Unit :=
  need (desk == 0 || add == 0 || useAll s desk kind + add ≤ (s.desk desk).quota.getD (kind - 1) 0) eQuota

/-- Leave OVER_QUOTA in every kind whose use has fallen to the quota, reporting QUOTA_CLEARED (R347). -/
def State.clearQuota (s : State) (desk : Nat) : State :=
  ((s.desk desk).overs).foldl (fun s k =>
    let use := useAll s desk k
    let quota := (s.desk desk).quota.getD (k - 1) 0
    if use ≤ quota then
      (s.setDesk desk fun d => { d with overs := d.overs.filter (· != k) }).raise [desk, 0] 0x0207
        (le 2 desk ++ le 2 k ++ le 4 quota ++ le 4 use)
    else s) s

/-! ## Rings (R55-R58) -/

/-- Internal address of a physical row and of its tags (R535). -/
def rowAddr (b r : Nat) : Nat := 0x20000000 + b * 0x40000 + r * 256

def tagAddr (b r : Nat) : Nat := 0x21200000 + b * 0x10000 + r * 64

/-- Every tag of a row never-written: all bytes zero (R492). -/
def State.clearTags (s : State) (rows : List (Nat × Nat)) : State :=
  rows.foldl (fun s p => s.write (tagAddr p.1 p.2) (List.replicate 64 0)) s

/-- A physical row is used by some ring. -/
def State.rowUsed (s : State) (p : Nat × Nat) : Bool :=
  (s.faults.moving.any fun m => (m.2.2.1, m.2.2.2) == p) || s.objs.any fun o => match o.ring? with | some r => r.rows.contains p | none => false

/-- The place of row slot `i`: bank by the bank map. -/
def rowSlot (s : State) (i : Nat) : Nat × Nat := (s.faults.bankMap.getD (i % 64) 0, i / 64)

/-- A bank with a lasting fault takes no new rows (R88, R89). -/
def State.badBank (s : State) (b : Nat) : Bool := s.faults.lasting.contains (3, b)

def findRow (s : State) (taken : List (Nat × Nat)) : Nat → Nat → Option (Nat × Nat)
  | 0, _ => none
  | k + 1, i =>
    let p := rowSlot s (i % 65536)
    if s.rowUsed p || taken.contains p || s.badBank p.1 then findRow s taken k (i + 1) else some p

/-- `m` free rows for a ring of index `i`, each on its own bank where the map allows (R57). -/
def findRows (s : State) (i : Nat) : Nat → List (Nat × Nat) → Option (List (Nat × Nat))
  | 0, acc => some acc
  | m + 1, acc =>
    match findRow s acc 65536 (i + acc.length) with
    | some p => findRows s i m (acc ++ [p])
    | none => none

/-- Ring rows held in the engine (R62 limit of 65,536). -/
def State.ringRows (s : State) : Nat := sumNat (s.objs.map (useOf s 4))

/-- MAX_MULT in force: the multiplier of the rate until a start fixes it (R243). -/
def State.maxMult (s : State) (d : Nat) : Nat := if (s.dom d).maxMult == 0 then s.mult d else (s.dom d).maxMult

/-- A new ring's content. -/
def Ring.new (m depth : Nat) (rows : List (Nat × Nat)) (writer kind sub : Nat) : Ring :=
  { mult := m, depth := depth, rows := rows, writer := writer, writerKind := kind, writerSub := sub, first := none,
    lastWrite := 0, lastEvent := none, counted := [], body := [], unbindAt := none, newDepth := none }

/-- Add rings at given indices, one after the other. -/
def addRings (desk cls d m depth writer kind sub0 : Nat) : List Nat → State → Option State
  | [], s => some s
  | i :: is, s =>
    match findRows s i m [] with
    | none => none
    | some rows =>
      let n := is.length
      let o : Obj := { ty := tRing, idx := i, gen := 1, desk := desk, cls := cls, dom := d, freeing := false, job := none,
                       staged := 0, charge := 0, safe := 0, epoch := s.epoch,
                       kind := .ring (Ring.new m depth rows writer kind (sub0 + n)) }
      let hold := (List.range (s.maxMult d)).map (i + ·)
      let s1 := (s.addObj o).clearTags rows
      let s1 := { s1 with tabs := modAt s1.tabs tRing fun t => HandleTab.take t (hold.drop 1) }
      addRings desk cls d m depth writer kind sub0 is s1

/-- Allocate `n` rings of a domain at successive indices stepping by MAX_MULT (R243, R285, R316). The writer's
sub numbers run from `sub0` in index order. The answer is the first ring's index. -/
def allocRings (s : State) (desk cls d n depth writer kind sub0 : Nat) : Except Err (Nat × State) := do
  let m := s.mult d
  let step := s.maxMult d
  within s desk 4 (n * m)
  need (s.ringRows + n * m ≤ 65536) eNoResource
  match (s.tab tRing).pick (n * step) step 0 65536 with
  | none => .error { status := eNoResource }
  | some i =>
    match addRings desk cls d m (if depth == 0 then 64 * m else depth) writer kind sub0
        ((List.range n).map fun k => i + step * (n - 1 - k)) s with
    | none => .error { status := eNoResource }
    | some s => .ok (i, s)

/-- The handle of the ring at an index. -/
def State.ringHandle (s : State) (i : Nat) : Nat := ((s.objAt tRing i).map Obj.handle).getD 0

/-- Free one ring: its rows' tags go never-written, and the run of indices it held is returned. -/
def State.freeRing (s : State) (i : Nat) : State :=
  match s.ringAt i with
  | none => s
  | some (o, r) =>
    let s := (s.clearTags r.rows).dropObj tRing i
    { s with tabs := modAt s.tabs tRing fun t => t.drop (((List.range (s.maxMult o.dom)).map (i + ·)).drop 1) }

/-- Take the writer away from a ring: every tag of it is never-written (R61). -/
def State.dropWriter (s : State) (i : Nat) : State :=
  match s.ringAt i with
  | none => s
  | some (_, r) =>
    (s.clearTags r.rows).modObj tRing i fun o => o.onRing fun r =>
      { r with writer := 0, writerKind := 0, writerSub := 0, first := none, body := [], unbindAt := none }

/-- A ring's new depth acts: a grown ring's older samples read 0.0 (R71). -/
def Ring.takeDepth (r : Ring) (d : Nat) : Ring :=
  let body := if d > 64 * r.mult then r.body.filter fun p => p.1 < d / 8 else []
  { r with depth := d, newDepth := none, first := if d > r.depth then none else r.first, body := body }

/-- What is to happen to a domain's rings at the boundary of ashlar `a` happens (R61, R71). -/
def State.turnRings (s : State) (d a : Nat) : State :=
  let due (x : Nat) : Bool := x ≤ a
  let gone := (s.objs.filter fun o => o.dom == d && (o.ring?.bind (·.unbindAt)).any due).map (·.idx)
  let s := gone.foldl State.dropWriter s
  { s with objs := s.objs.map fun o => if o.dom != d then o else o.onRing fun r =>
      match r.newDepth with
      | some (x, n) => if due x then r.takeDepth n else r
      | none => r }

/-- The boundary at which a change of a ring acts: the next one of its domain, or none to wait for where it stands still. -/
def nextBoundary (s : State) (d : Nat) : Nat := if (s.dom d).runs then s.ash d + 1 else 0

/-- The dither word lengths last commanded (R164). -/
def ditherSet (now : List Nat) (next : Option (Nat × List Nat)) : List Nat := (next.map (·.2)).getD now

/-- Take the writer away from a ring at the next ashlar boundary (R61). -/
def State.unbindWriter (s : State) (i : Nat) : State :=
  match s.objAt tRing i with
  | none => s
  | some o =>
    (s.modObj tRing i fun x => x.onRing fun r => { r with unbindAt := some (nextBoundary s o.dom) }).turnRings o.dom 0

/-- Rings written by an object. -/
def State.ringsOf (s : State) (h : Nat) : List (Obj × Ring) :=
  s.objs.filterMap fun o => match o.ring? with | some r => if r.writer == h then some (o, r) else none | none => none

/-! ## Reading limits (R47, R64, R397) -/

/-- Samples of the offset limit of a ring in use (R64, R397). -/
def oMax (s : State) (r : Ring) : Nat :=
  if r.writerKind == 2 then r.depthDue - 8 * (r.mult * s.quarry.p)
  else if r.writerKind == 3 then
    match s.obj r.writer with
    | some o => match o.stream? with
      | some st => r.depthDue - 16 - 8 * ceilDiv st.linkOffset 8
      | none => r.depthDue - 16
    | none => r.depthDue - 16
  else r.depthDue - 16

/-- Read lag in own ashlars of a ring: 1, or m·P for a Seam landing (R43, R47). -/
def readLag (s : State) (r : Ring) : Nat := if r.writerKind == 2 then r.mult * s.quarry.p else 1

/-! ## Bank load (R83-R86) -/

/-- Routes with a source, as the distinct (ring handle, offset) pairs they read. -/
def State.readPairs (s : State) : List (Nat × Nat) :=
  ((s.routes.filter fun p => p.2.source != 0).map fun p => (p.2.source, p.2.offset)).eraseDups

def rowsOnBank (r : Ring) (b : Nat) : Nat := (r.rows.filter fun p => p.1 == b).length

/-- Committed load of a bank (R83). -/
def bankLoad (s : State) (b : Nat) : Nat :=
  sumNat (s.objs.map fun o => match o.ring? with | some r => if r.writer != 0 then rowsOnBank r b else 0 | none => 0) +
  sumNat (s.readPairs.map fun p => match s.obj p.1 with
    | some o => (o.ring?.map fun r => rowsOnBank r b).getD 0
    | none => 0)

/-- Copy a ring row into another physical row, samples and tags (R87). -/
def State.moveRow (s : State) (i part : Nat) (dst : Nat × Nat) : State :=
  match s.ringAt i with
  | none => s
  | some (_, r) =>
    match r.rows[part]? with
    | none => s
    | some src =>
      let s1 := s.write (rowAddr dst.1 dst.2) (s.read (rowAddr src.1 src.2) 256)
      let s1 := s1.write (tagAddr dst.1 dst.2) (s.read (tagAddr src.1 src.2) 64)
      let s1 := s1.clearTags [src]
      s1.modObj tRing i fun o => o.onRing fun r => { r with rows := modAt r.rows part fun _ => dst }

/-- Report a moved ring (R87). -/
def State.ringMoved (s : State) (i old : Nat) (dst : Nat × Nat) : State :=
  match s.objAt tRing i with
  | some o => s.raiseObj o.desk 0x0702 (le 4 o.handle ++ le 1 old ++ le 1 dst.1 ++ le 2 dst.2)
  | none => s

/-- A free row on another bank with room for a ring row's load. -/
def findRoom (s : State) (avoid : List Nat) : Nat → Nat → Option (Nat × Nat)
  | 0, _ => none
  | k + 1, i =>
    let p := rowSlot s i
    if avoid.contains p.1 || s.rowUsed p || s.badBank p.1 || bankLoad s p.1 + 2 > 8192 then findRoom s avoid k (i + 1) else some p

/-- Make room on the banks of a ring for one more read, relocating its rows (R86). -/
def roomFor (s : State) (i : Nat) : Except Err State :=
  match s.ringAt i with
  | none => .ok s
  | some (_, r) =>
    (List.range r.rows.length).foldlM (fun s part =>
      match (s.ringAt i).bind fun p => p.2.rows[part]? with
      | none => .ok s
      | some p =>
        if bankLoad s p.1 + 1 ≤ 8192 then .ok s else
        match findRoom s (r.rows.map (·.1)) 65536 0 with
        | some dst => .ok ((s.moveRow i part dst).ringMoved i p.1 dst)
        | none => .error { status := eNoResource }) s

/-! ## Cores (R94-R105) -/

/-- Charge placed on a core by one object, in 1/64 WU. -/
def coreShare (c : Nat) (o : Obj) : Nat :=
  match o.kind with
  | .chan k => if k.core == c then o.charge + sumNat (k.twins.map (·.charge)) else 0
  | .block b => if b.core == c then (if b.host == 0 then o.charge else 0) + sumNat (b.twins.map (·.charge)) else 0
  | .bridge b => if b.core == c then o.charge else 0
  | .svc v => if v.core == c then o.charge else 0
  | .capture v => if v.core == c then o.charge else 0
  | .meter m => sumNat ((m.cores.zipIdx.filter fun p => p.1 == c).map fun p =>
      o.charge * min 128 (m.points - 128 * p.2) / m.points)
  | _ => 0

/-- Standing charge, twins counted separately. -/
def standing (c : Nat) (o : Obj) : Nat :=
  match o.kind with
  | .chan k => if k.core == c then o.charge else 0
  | .block b => if b.host == 0 && b.core == c then o.charge else 0
  | _ => coreShare c o

/-- Charge of the objects on their way to a core (R118). -/
def incoming (s : State) (c : Nat) : Nat :=
  sumNat ((s.moves.filter fun m => m.target == c).flatMap fun m => m.objs.map fun h => ((s.obj h).map (·.charge)).getD 0)

def coreCharge (s : State) (c : Nat) : Nat := sumNat (s.objs.map (standing c)) + incoming s c

/-- Charge with every accepted TWIN counted (R110). -/
def coreLoad (s : State) (c : Nat) : Nat := sumNat (s.objs.map (coreShare c)) + incoming s c

/-- Local bytes packages need on a core (R96); library blocks state none. -/
def coreBytes (s : State) (c : Nat) : Nat :=
  sumNat (s.objs.map fun o => match o.block? with | some b => if b.core == c then b.localBytes else 0 | none => 0)

def State.core (s : State) (c : Nat) : Core := s.cores.getD c (Core.reset 0)

def State.setCore (s : State) (c : Nat) (f : Core → Core) : State := { s with cores := modAt s.cores c f }

/-- Engine-wide WU limit in 1/64 WU: lower with fewer than 6 working phases (R502). -/
def wuLimit (s : State) : Nat :=
  let n := ((List.range 7).filter fun i => !(bit s.sv.phaseFailed i)).length
  if n ≥ 6 then 28160 * 64 else 28160 * n / 6 * 64

def totalCharge (s : State) : Nat := sumNat (s.objs.map fun o => if hostedBlock o then 0 else o.charge)

/-- Channel units an object's instances read and write per base-rate ashlar (R97). -/
def portReads (s : State) (o : Obj) : Nat :=
  match o.kind with
  | .chan c => (if c.role == 0 then c.width else 2 * c.width) * s.mult o.dom
  | .block b => if b.host == 0 then b.chIn * s.mult o.dom else 0
  | .bridge b => b.channels * s.mult b.from_
  | .svc v => (if v.kind == 1 || v.kind == 2 then v.size else 0) * s.mult o.dom
  | .capture c => c.channels * s.mult o.dom
  | _ => 0

def portWrites (s : State) (o : Obj) : Nat :=
  sumNat ((s.ringsOf o.handle).map fun p => p.2.mult)

/-- The core an object's instances run on. -/
def coreOf (o : Obj) : Option Nat :=
  match o.kind with
  | .chan k => some k.core
  | .block b => some b.core
  | .bridge b => some b.core
  | .svc v => some v.core
  | .capture v => some v.core
  | _ => none

/-- Units the port of a core's cluster carries: reads and writes (R97). -/
def clusterUnits (s : State) (c : Nat) : Nat × Nat :=
  let os := s.objs.filter fun o => match coreOf o with | some k => k / 16 == c / 16 | none => false
  (sumNat (os.map (portReads s)), sumNat (os.map (portWrites s)))

/-- What a placement needs: charge in 1/64 WU, local bytes, ring units read and written. -/
structure Need where
  w : Nat
  bytes : Nat := 0
  rd : Nat := 0
  wr : Nat := 0
  deriving DecidableEq, Repr

def coreFits (s : State) (c : Nat) (n : Need) (lim : Nat) : Bool :=
  coreCharge s c + n.w ≤ lim * 64 && coreBytes s c + n.bytes ≤ 122880 &&
  (let u := clusterUnits s c; u.1 + n.rd ≤ 32768 && u.2 + n.wr ≤ 32768)

/-- Of the cores, the one with the least room left, then the lowest number (R105). -/
def bestCore (s : State) : List Nat → Option Nat
  | [] => none
  | c :: cs =>
    match bestCore s cs with
    | none => some c
    | some b => if coreCharge s b > coreCharge s c then some b else some c

def allocatableCore (s : State) (c : Nat) : Bool :=
  !(s.core c).reserve && !(s.core c).fused && !(s.faults.lasting.contains (1, c))

def domCores (s : State) (d : Nat) : List Nat :=
  (List.range 192).filter fun c => allocatableCore s c && (s.core c).dom == d

/-- Charge on failed cores of a domain that waits for room (R122, R355, R357). -/
def evacuating (s : State) (d : Nat) : Nat :=
  sumNat (((List.range 192).filter fun c => s.faults.waiting.contains (1, c) && (s.core c).dom == d).map fun c => coreCharge s c)

/-- Placement by R105: the core, and whether it lies above the ceiling. In a pair or triad no placement lies above
it (R235). -/
def place (s : State) (d : Nat) (n : Need) : Option (Nat × Bool) :=
  let kept := evacuating s d
  let room := sumNat ((domCores s d).map fun c => 160 * 64 - coreCharge s c)
  if totalCharge s + n.w > wuLimit s || (kept > 0 && room < kept + n.w) then none else
  match bestCore s ((domCores s d).filter fun c => coreFits s c n s.ceiling) with
  | some c => some (c, false)
  | none =>
    match bestCore s ((domCores s 3).filter fun c => coreFits s c n s.ceiling) with
    | some c => some (c, false)
    | none =>
      if s.red.mode != 0 then none else
      (bestCore s ((domCores s d).filter fun c => coreFits s c n 160)).map fun c => (c, true)

/-- Assign a core to a domain. -/
def State.useCore (s : State) (c d : Nat) : State := s.setCore c fun k => { k with dom := d }

/-- PLACEMENT_OVER_CEILING (R105). -/
def State.overCeiling (s : State) (desk h c : Nat) (overs : Bool) : State :=
  if overs then s.raiseObj desk 0x1106 (le 4 h ++ le 2 c ++ le 2 0 ++ le 4 (coreCharge s c)) else s

/-- A core whose last instance has gone returns to the unassigned set (R101). -/
def State.releaseCores (s : State) : State :=
  { s with cores := s.cores.zipIdx.map fun p =>
      if p.1.dom ≤ 2 && coreLoad s p.2 == 0 then { p.1 with dom := 3 } else p.1 }

/-! ## Consolidation (R106): moves (object handle, target core) that make room on one core -/

/-- Local bytes of the package instances that move with an object. -/
def bytesOf (s : State) (o : Obj) : Nat :=
  sumNat (s.objs.map fun x => match x.block? with
    | some b => if x.handle == o.handle || b.host == o.handle then b.localBytes else 0
    | none => 0)

/-- What a core must have for an object that now stands on core `c`; its ring units are new only to another cluster. -/
def moveNeed (s : State) (c k : Nat) (o : Obj) : Need :=
  let far := k / 16 != c / 16
  { w := o.charge, bytes := bytesOf s o, rd := if far then portReads s o else 0, wr := if far then portWrites s o else 0 }

/-- A target of the domain within the ceiling for an object that stands on core `c`. -/
def moveTarget (s : State) (d c : Nat) (o : Obj) : Option Nat :=
  bestCore s ((domCores s d).filter fun k => k != c && coreFits s k (moveNeed s c k o) s.ceiling)

/-- Move one object's instances to a core. -/
def Obj.toCore (o : Obj) (src dst : Nat) : Obj :=
  match o.kind with
  | .chan k => if k.core == src then { o with kind := .chan { k with core := dst } } else o
  | .block b => if b.core == src then { o with kind := .block { b with core := dst } } else o
  | .bridge b => if b.core == src then { o with kind := .bridge { b with core := dst } } else o
  | .svc v => if v.core == src then { o with kind := .svc { v with core := dst } } else o
  | .capture v => if v.core == src then { o with kind := .capture { v with core := dst } } else o
  | .meter m => { o with kind := .meter { m with cores := m.cores.map fun k => if k == src then dst else k } }
  | _ => o

/-- An object goes to a core with the blocks inside it (R103). -/
def State.moveObj (s : State) (h src dst : Nat) : State :=
  { s with objs := s.objs.map fun o =>
      if o.handle == h || (o.block?.any fun b => b.host == h) then o.toCore src dst else o }

def smallestFirst (l : List Obj) : List Obj :=
  l.inOrder fun a b => a.charge < b.charge || (a.charge == b.charge && a.handle ≤ b.handle)

/-- The charge a core may reach: 160 WU, or the ceiling in a pair or triad (R235). -/
def roomLimit (s : State) : Nat := if s.red.mode != 0 then s.ceiling else 160

/-- An instance with a TWIN running or staged stays until that Kerf ends (R110). -/
def hasTwins (o : Obj) : Bool :=
  match o.kind with
  | .chan k => !k.twins.isEmpty
  | .block b => !b.twins.isEmpty
  | .svc v => !v.twins.isEmpty
  | _ => false

def heldByTwins (s : State) (o : Obj) : Bool :=
  hasTwins o || s.objs.any fun x => hasTwins x && x.block?.any fun b => b.host == o.handle

/-- Plan moves off core `c` until `n` fits, at most 16 (R106 steps 2 to 4). -/
def planMoves (d c : Nat) (n : Need) (limit : Nat) (keep : Nat) : List Obj → State → List (Nat × Nat) → Option (List (Nat × Nat))
  | [], s, acc => if coreFits s c n limit then some acc else none
  | o :: os, s, acc =>
    if coreFits s c n limit then some acc
    else if acc.length ≥ 16 then none
    else if o.handle == keep || heldByTwins s o then planMoves d c n limit keep os s acc
    else match moveTarget s d c o with
      | none => planMoves d c n limit keep os s acc
      | some k => planMoves d c n limit keep os (s.moveObj o.handle c k) (acc ++ [(o.handle, k)])

def objsOnCore (s : State) (c : Nat) : List Obj := smallestFirst (s.objs.filter fun o => standing c o > 0 && !hostedBlock o)

/-- The first core, by least charge, whose plan makes room (R106 steps 1 and 5). -/
def consolidate (s : State) (d : Nat) (n : Need) : Option (Nat × List (Nat × Nat)) :=
  ((domCores s d).inOrder fun a b => coreCharge s a < coreCharge s b || (coreCharge s a == coreCharge s b && a ≤ b)).findSome?
    fun c => (planMoves d c n (roomLimit s) 0 (objsOnCore s c) s []).map fun m => (c, m)

/-- Start the transplants of a plan: each object moves at its switch (R118). -/
def State.startMoves (s : State) (d c : Nat) (moves : List (Nat × Nat)) : State :=
  { s with moves := s.moves ++ moves.map fun p =>
      { source := c, target := p.2, objs := [p.1], dom := d, slot := s.ash d, retried := false, spare := false } }

/-! ## Sinks (R72, R414) -/

/-- What a sink descriptor names: owner, domain, multiplier, class; whether SUB is one of its sinks, and whether its state forbids
a route there. -/
structure Sink where
  desk : Nat
  dom : Nat
  mult : Nat
  cls : Nat
  freeing : Bool
  fit : Bool
  closed : Bool
  deriving DecidableEq, Repr

/-- The domain of Seam sends at a lane multiplier: the first of domain A's family at that multiplier. -/
def seamDom (s : State) (m : Nat) : Nat :=
  ((List.range 3).find? fun d => s.mult d == m && rate44 (s.dom d).rate == rate44 (s.dom 0).rate).getD 0

/-- Inputs of a Service (R262, R273, R276). -/
def Svc.inputs (v : Svc) : Nat :=
  match v.kind with
  | 1 => v.size
  | 2 => v.size
  | 3 => 5
  | 5 => 2
  | _ => 0

def sinkOf (s : State) (kind sub h field : Nat) : Except Err Sink := do
  let range (b : Bool) (o : Obj) (d : Nat) : Except Err Sink := do
    .ok { desk := o.desk, dom := d, mult := s.mult d, cls := o.cls, freeing := o.freeing, fit := b, closed := false }
  match kind with
  | 1 => do
    let p ← resolvePort s h (field + 4)
    need (p < 128) eHandle (field + 4) h
    let t := s.tdm.getD p Tdm.reset
    .ok { desk := t.owner, dom := t.dom, mult := s.mult t.dom, cls := 0, freeing := false, fit := sub < t.slots, closed := t.dir != 1 }
  | 2 => do
    let o ← resolve s [tStream] h (field + 4)
    match o.stream? with
    | some st => range (st.tx && sub < st.channels) o o.dom
    | none => .error { status := eHandle, field := field + 4, handle := h }
  | 3 => do
    let p ← resolvePort s h (field + 4)
    need (256 ≤ p && p < 288) eHandle (field + 4) h
    let l := s.lanes.getD (p - 256) Lane.reset
    let seam := s.quadModes.getD ((p - 256) / 4) 4 == 0
    let forwarded := s.lanes.any fun x => x.fwd.any fun e => bit e.2 31 && bits e.2 11 0 == sub && bits e.2 20 16 == p - 256
    let d := seamDom s l.mult
    .ok { desk := l.owner, dom := d, mult := l.mult, cls := 0, freeing := false, fit := sub < 2800 / l.mult, closed := !seam || forwarded }
  | 4 => do
    let o ← resolve s [tStrip] h (field + 4)
    range (sub < (o.chan?.map (·.width)).getD 0) o o.dom
  | 5 => do
    let o ← resolve s [tBlock] h (field + 4)
    match o.tiles? with
    | some t => range (t.tier == 1 && sub < t.rows) o o.dom
    | none => .error { status := eHandle, field := field + 4, handle := h }
  | 6 => do
    let o ← resolve s [tBlock] h (field + 4)
    match o.tiles? with
    | some t => range (t.tier == 2 && sub < t.rows) o o.dom
    | none => .error { status := eHandle, field := field + 4, handle := h }
  | 7 => do
    let o ← resolve s [tBus] h (field + 4)
    match o.chan? with
    | some c => range (c.role == 1 && sub < 2 * c.width) o o.dom
    | none => .error { status := eHandle, field := field + 4, handle := h }
  | 8 => do
    let o ← resolve s [tBus] h (field + 4)
    match o.chan? with
    | some c => range (c.role ≥ 2 && sub < 2 * c.width) o o.dom
    | none => .error { status := eHandle, field := field + 4, handle := h }
  | 9 => do
    let o ← resolve s [tBlock] h (field + 4)
    match o.block? with
    | some b =>
      let n := match b.page with
        | 3 => 1
        | 4 => 1
        | 9 => ((s.obj b.host).bind Obj.chan?).elim 0 (·.width)
        | 0 => b.chIn
        | _ => 0
      range (sub < n) o o.dom
    | none => .error { status := eHandle, field := field + 4, handle := h }
  | 10 => do
    let o ← resolve s [tBridge] h (field + 4)
    match o.bridge? with
    | some b => range (sub < b.channels) o b.from_
    | none => .error { status := eHandle, field := field + 4, handle := h }
  | 11 => do
    let o ← resolve s [tSvc, tMeter] h (field + 4)
    match o.kind with
    | .svc v => range (sub < v.inputs) o o.dom
    | .meter m =>
      let k ← range (sub < m.points) o o.dom
      .ok { k with closed := m.taps.any fun t => t.point == sub }
    | _ => .error { status := eHandle, field := field + 4, handle := h }
  | 12 => do
    let o ← resolve s [tCapture] h (field + 4)
    range (sub < (o.capture?.map (·.channels)).getD 0) o o.dom
  | _ => .error { status := eRange, field := field }

/-- The route that serves a sink, if any (R62). -/
def State.routeTo (s : State) (kind sub h : Nat) : Option (Obj × Route) :=
  s.routes.find? fun p => p.2.kind == kind && p.2.sub == sub && p.2.sink == h

/-! ## The feed graph (R188) -/

/-- The Bus whose output ring a ring handle names. -/
def outBus (s : State) (ring : Nat) : Option Nat :=
  match (s.obj ring).bind Obj.ring? with
  | some r => if r.writerKind == 6 && r.writerSub < 0x100 then some r.writer else none
  | none => none

/-- Sources a route counts with: its source, those waiting, and a running Kerf's old one. -/
def Route.sources (r : Route) : List Nat :=
  [r.source] ++ r.waiting.filterMap (·.src) ++ (match r.kerf with | some k => [k.oldSrc] | none => [])

/-- Buses a tile set reads, and Buses its columns feed. -/
def rowBuses (s : State) (h : Nat) : List Nat :=
  (s.routes.filter fun p => (p.2.kind == 5 || p.2.kind == 6) && p.2.sink == h).flatMap fun p => p.2.sources.filterMap (outBus s)

def colBuses (s : State) (h : Nat) : List Nat :=
  (s.routes.filter fun p => (p.2.kind == 7 || p.2.kind == 8) &&
    p.2.sources.any fun x => match (s.obj x).bind Obj.ring? with | some r => r.writerKind == 5 && r.writer == h | none => false).map
    fun p => p.2.sink

/-- Edges of the graph. -/
def feedEdges (s : State) : List (Nat × Nat) :=
  ((s.objs.filter fun o => o.tiles?.isSome).flatMap fun o =>
    (rowBuses s o.handle).flatMap fun a => (colBuses s o.handle).map fun b => (a, b)).eraseDups

/-- A path from `a` to `b` in at most `fuel` edges. -/
def feedPath (es : List (Nat × Nat)) (b : Nat) : Nat → Nat → Option (List Nat)
  | 0, _ => none
  | k + 1, a => if a == b then some [a] else
    (es.filter fun e => e.1 == a).findSome? fun e => (feedPath es b k e.2).map (a :: ·)

/-- The Buses of a cycle, if the graph has one. -/
def feedCycle (s : State) : Option (List Nat) :=
  let es := feedEdges s
  es.findSome? fun e => feedPath es e.1 (es.length + 1) e.2

/-- Refuse a state whose feed graph has a cycle, naming up to 8 Buses (R188). -/
def acyclic (s : State) (field : Nat := 0xFFFF) : Except Err Unit :=
  match feedCycle s with
  | none => .ok ()
  | some l => .error { status := eState, field := field, detail := (l.take 8).flatMap (le 4) }

end Sys2Proof.Machine
end

