-- ==== Sys2Proof/Machine/Routing.lean ====
section
/-! DEFINITION. Route changes and the life of objects: the timeline of a route (R76-R82), the Kerf allowance (R85),
committed load (R86), deep reads (R70), deletion of routes and the freeing of objects (R82, R315). -/
namespace Sys2Proof.Machine

/-! ## The timeline of a route -/

/-- The reading a change leaves, from the reading before it. -/
def RChange.reading (c : RChange) (p : Nat × Nat) : Nat × Nat := (c.src.getD p.1, c.off.getD p.2)

/-- A CUT in effect: POLICY CUT or a length of 0 (R73). -/
def RChange.isCut (c : RChange) : Bool := c.cut || c.t == 0

/-- The reading in force at route index `i`, waiting changes counted. -/
def Route.readingAt (r : Route) (i : Nat) : Nat × Nat :=
  (r.waiting.filter fun c => c.s ≤ i).foldl (fun p c => c.reading p) (r.source, r.offset)

/-- The reading just before route index `i`. -/
def Route.readingBefore (r : Route) (i : Nat) : Nat × Nat :=
  (r.waiting.filter fun c => c.s < i).foldl (fun p c => c.reading p) (r.source, r.offset)

/-- First CUT inside a span ends its Kerf (R79). -/
def Route.kerfEnd (r : Route) (s t : Nat) : Nat :=
  (r.waiting.filter fun c => c.isCut && s < c.s && c.s < s + t).foldl (fun e c => min e c.s) (s + t)

/-- Spans (start, end) of Kerfs running or staged (R79). -/
def Route.spans (r : Route) : List (Nat × Nat) :=
  (match r.kerf with | some k => [(k.s, r.kerfEnd k.s k.t)] | none => []) ++
  (r.waiting.filter fun c => !c.isCut).map fun c => (c.s, r.kerfEnd c.s c.t)

/-- The first index at or after `i` where a Kerf of length `t` overlaps no other (R79); a Kerf of the same launch
is no obstacle. -/
def deferKerf (spans : List (Nat × Nat)) (t : Nat) : Nat → Nat → Nat
  | 0, i => i
  | n + 1, i =>
    match (spans.filter fun p => p.1 != i && p.1 < i + t && i < p.2).inOrder (fun a b => a.1 ≤ b.1) with
    | p :: _ => deferKerf spans t n p.2
    | [] => i

/-- Keep waiting changes in launch order. -/
def insertChange (c : RChange) : List RChange → List RChange
  | [] => [c]
  | x :: xs => if c.s < x.s then c :: x :: xs else x :: insertChange c xs

/-- Accept one change of the route at an index: ROUTE_SUPERSEDED and ROUTE_DEFERRED as R79 gives them. -/
def State.changeRoute (s : State) (idx : Nat) (c : RChange) : State :=
  match s.objAt tRoute idx with
  | none => s
  | some o =>
    match o.route? with
    | none => s
    | some r =>
      let at' := if c.isCut then c.s else deferKerf r.spans c.t 12 c.s
      let s1 := if at' != c.s then s.raiseObj o.desk 0x0801 (le 4 o.handle ++ le 4 0 ++ le 8 c.s ++ le 8 at') else s
      let lost := r.waiting.filter fun x => x.s == at'
      let s2 := lost.foldl (fun s x => s.raiseObj o.desk 0x0802 (le 4 o.handle ++ le 4 x.seq ++ le 8 (x.s % farMark))) s1
      s2.modObj tRoute idx fun o => o.onRoute fun r =>
        { r with waiting := insertChange { c with s := at' } (r.waiting.filter fun x => x.s != at') }

/-- Put a change in force at once (a STOPPED domain, R257). -/
def State.applyRoute (s : State) (idx : Nat) (c : RChange) : State :=
  s.modObj tRoute idx fun o => o.onRoute fun r =>
    let p := c.reading (r.source, r.offset)
    { r with source := p.1, offset := p.2, kerf := none }

/-- Launch the changes of a route whose index has come, as far as route index `j` (R76, R79). -/
def launchRoute (j : Nat) : List RChange → Route → Route
  | [], r => r
  | c :: cs, r =>
    if c.s ≤ j then
      let p := c.reading (r.source, r.offset)
      let k := if c.isCut then none else some { s := c.s, t := c.t, law := c.law, oldSrc := r.source, oldOff := r.offset }
      launchRoute j cs { r with source := p.1, offset := p.2, kerf := k, waiting := cs }
    else r

/-- A route as route index `j` finds it: changes launched, a finished Kerf gone. -/
def Route.at (r : Route) (j : Nat) : Route :=
  let r := launchRoute j r.waiting r
  match r.kerf with
  | some k => if j ≥ k.s + k.t then { r with kerf := none } else r
  | none => r

/-- A route once every route index below `j` has been read: changes below `j` launched, a Kerf that ends there gone. -/
def Route.readTo (r : Route) (j : Nat) : Route :=
  let r := if j == 0 then r else r.at (j - 1)
  match r.kerf with
  | some k => if j ≥ k.s + k.t then { r with kerf := none } else r
  | none => r

/-! ## Admission of readings -/

/-- Units a read of a ring puts on a bank (R83). -/
def ringRows (s : State) (h b : Nat) : Nat :=
  match (s.obj h).bind Obj.ring? with
  | some r => rowsOnBank r b
  | none => 0

/-- Readings of every route, in force or waiting: the committed pairs (R83, R86). -/
def State.pairs (s : State) : List (Nat × Nat) :=
  ((s.routes.flatMap fun p => (p.2.source, p.2.offset) :: p.2.waiting.map fun c => p.2.readingAt c.s).filter
    fun p => p.1 != 0).eraseDups

/-- A deep read (R70). -/
def deepRead (s : State) (p : Nat × Nat) : Bool :=
  match (s.obj p.1).bind Obj.ring? with
  | some r => r.deep && p.2 > 64 * r.mult - 16
  | none => false

def deepReads (s : State) (ps : List (Nat × Nat)) : Nat :=
  sumNat ((ps.filter (deepRead s)).map fun p => (((s.obj p.1).bind Obj.ring?).map (·.mult)).getD 0)

/-- Steps 15 and 16 for a new reading: deep reads and committed load, relocating where needed (R70, R86). -/
def admitReading (s : State) (p : Nat × Nat) : Except Err State := do
  if p.1 == 0 || s.pairs.contains p then .ok s
  else
    need (deepReads s (p :: s.pairs) ≤ 8192) eNoResource
    roomFor s (hIdx p.1)

/-- A Kerf as instants and its old reading. -/
structure KSpan where
  b : Nat
  e : Nat
  pair : Nat × Nat
  deriving DecidableEq, Repr

/-- All route Kerfs running or staged (R85). -/
def State.kspans (s : State) : List KSpan :=
  s.objs.flatMap fun o => match o.route? with
    | none => []
    | some r =>
      let fs := s.fs o.dom
      let mk (x t : Nat) (p : Nat × Nat) : KSpan :=
        { b := instantOf (8 * (x / 8)) fs, e := instantOf (8 * ((x + t) / 8 + 1)) fs, pair := p }
      (match r.kerf with | some k => [mk k.s k.t (k.oldSrc, k.oldOff)] | none => []) ++
      (r.waiting.filter fun c => !c.isCut).map fun c => mk c.s c.t (r.readingBefore c.s)

/-- Units of Kerf allowance a set of spans takes on a bank at an instant. -/
def allowanceAt (s : State) (ks : List KSpan) (b q : Nat) : Nat :=
  sumNat (((ks.filter fun k => k.b ≤ q && q < k.e && k.pair.1 != 0 && !(s.readPairs.contains k.pair)).map (·.pair)).eraseDups.map
    fun p => ringRows s p.1 b)

/-- R85: the new Kerf keeps every bank within 1,024 units and the engine within 16,384 Kerfs. -/
def kerfFits (s : State) (k : KSpan) : Bool :=
  let ks := k :: s.kspans
  ks.length ≤ 16384 &&
  (match (s.obj k.pair.1).bind Obj.ring? with
   | none => true
   | some r => r.rows.all fun row =>
      (ks.filter fun x => k.b ≤ x.b && x.b < k.e).all fun x => allowanceAt s ks row.1 x.b ≤ 1024)

/-- The largest offset that a reading of a ring may have: R64, and any up to 4,194,288 without a source. -/
def offsetLimit (s : State) (src : Nat) : Nat :=
  match (s.obj src).bind Obj.ring? with
  | some r => oMax s r
  | none => 4194288

/-- A Bench row takes the source: no column ring, and in tier 1 no output ring of a Bus (R169). -/
def benchSource (s : State) (kind src : Nat) : Bool :=
  let column := match (s.obj src).bind Obj.ring? with
    | some r => r.writerKind == 5
    | none => false
  !((kind == 5 || kind == 6) && column) && !(kind == 5 && (outBus s src).isSome)

/-- A source is 0, or a ring of the sink's domain and multiplier that a sink of its KIND takes (R73, R74, R169). -/
def sourceOk (s : State) (kind src : Nat) (d m field : Nat) : Except Err Unit := do
  if src == 0 then .ok ()
  else
    let o ← resolve s [tRing] src field
    need (o.dom == d && (o.ring?.map (·.mult)).getD 0 == m && !o.freeing) eState field src
    need (benchSource s kind src) eState field src

/-! ## Deleting routes (R82) -/

/-- The samples already made for a slot that loses its route are still driven. -/
def Tdm.endSlot (k : Nat) (t : Tdm) : Tdm :=
  match t.out.getLast? with
  | some o => { t with tails := (k, o.1 + 1) :: t.tails.filter fun x => x.1 != k }
  | none => t

/-- Free a route's entry. -/
def State.dropRoute (s : State) (idx : Nat) : State :=
  match s.objAt tRoute idx with
  | some o =>
    let s := match o.route? with
      | some r => if r.kind == 1 then { s with tdm := modAt s.tdm (hIdx r.sink) (Tdm.endSlot r.sub) } else s
      | none => s
    (s.dropObj tRoute idx).clearQuota o.desk
  | none => s

/-- Delete the route at an index. `force` is the Kerf of a forced release, whatever the POLICY; `launch` fixes the
index where R125 gives one. -/
def State.deleteRoute (s : State) (idx : Nat) (force : Bool) (launch : Option Nat) : State :=
  match s.objAt tRoute idx with
  | none => s
  | some o =>
    match o.route? with
    | none => s
    | some r =>
      if r.deleting then s else
      let s1 := r.waiting.foldl (fun s x => s.raiseObj o.desk 0x0802 (le 4 o.handle ++ le 4 x.seq ++ le 8 (x.s % farMark))) s
      if (s.dom o.dom).st == .stopped then s1.dropRoute idx else
      let base := match launch with
        | some i => i
        | none => if (s.dom o.dom).launchable then tickFor (s.tickLen o.dom) 0 (s.ash o.dom)
          else (if (s.dom o.dom).st == .fadingOut then farMark else 0) + (s.dom o.dom).restartAt
      let cut := !force && r.policy == 0
      let i := match r.kerf with
        | some k => if !cut && k.s + k.t > base then k.s + k.t else base
        | none => base
      let (n, s2) := s1.stamp
      s2.modObj tRoute idx fun o => { (o.onRoute fun r =>
        { r with deleting := true,
                 waiting := [{ order := n, desk := o.desk, seq := 0, s := i, src := some 0, off := none, cut := cut,
                               t := r.t, law := r.law, recallOf := 0 }] }) with freeing := true }

/-- Delete every route a test picks out. -/
def State.deleteRoutes (s : State) (force : Bool) (launch : Option Nat) (p : Obj × Route → Bool) : State :=
  (s.routes.filter p).foldl (fun s x => s.deleteRoute x.1.idx force launch) s

/-! ## Freeing objects (R315) -/

/-- Handles that own sinks of an object: itself and the blocks inside it. -/
def State.sinkHandles (s : State) (h : Nat) : List Nat :=
  h :: (s.objs.filter fun o => match o.block? with | some b => b.host == h | none => false).map Obj.handle

/-- Rings an object writes, its blocks' included. -/
def State.outRings (s : State) (h : Nat) : List (Obj × Ring) := (s.sinkHandles h).flatMap s.ringsOf

/-- Handles that a route's reading is of: the source, waiting sources and a running Kerf's old source. -/
def State.readers (s : State) (h : Nat) : List (Obj × Route) := s.routes.filter fun p => p.2.sources.contains h

/-- Changes an object holds accepted and not launched (R315), and the object without them. -/
def Obj.dropChanges (o : Obj) (now : Nat) : Nat × Obj :=
  match o.kind with
  | .chan c => (c.pend.length + (c.twins.filter fun t => t.s > now).length,
      { o with kind := .chan { c with pend := [], twins := c.twins.filter fun t => t.s ≤ now } })
  | .block b => (b.pend.length + (b.twins.filter fun t => t.s > now).length,
      { o with kind := .block { b with pend := [], twins := b.twins.filter fun t => t.s ≤ now } })
  | .group g => (g.pend.length, { o with kind := .group { g with pend := [] } })
  | .tiles t => (t.pend.length, { o with kind := .tiles { t with pend := [] } })
  | .meter m => (m.pend.length + m.ctl.length, { o with kind := .meter { m with pend := [], ctl := [] } })
  | .svc v => (v.pend.length + v.live.length + (v.twins.filter fun t => t.s > now).length,
      { o with kind := .svc { v with pend := [], live := [], twins := v.twins.filter fun t => t.s ≤ now } })
  | .capture c => (c.pend.length, { o with kind := .capture { c with pend := [] } })
  | _ => (0, o)

/-- The ashlar an object's own fade holds its index to, where its kind fades as it is freed. -/
def Obj.holdUntil (o : Obj) : Option Nat :=
  match o.kind with
  | .tiles t => t.release
  | .block b => b.retire
  | .capture c => c.release
  | .stream st => st.fade.map fun p => ceilDiv (p.1 + p.2) 8
  | _ => none

/-- A library block a Strip or Bus is disabling retires when its crossfade ends, never before (R125). -/
def Obj.byTwin (o : Obj) : Bool :=
  match o.block? with
  | some b => b.package == 0 && b.host != 0
  | none => false

/-- A freeing object that nothing holds any longer: no route into its sinks, no reader of its rings, no fade. -/
def State.mayRelease (s : State) (o : Obj) : Bool :=
  !o.byTwin &&
  let hs := s.sinkHandles o.handle
  let rings := if o.ty == tRing then [o.handle] else (s.outRings o.handle).map fun p => p.1.handle
  !(s.routes.any fun p => hs.contains p.2.sink || rings.any fun h => p.2.sources.contains h) &&
  (match o.group? with | some g => g.members.isEmpty | none => true) &&
  (match o.holdUntil with | some a => a ≤ s.ash (if o.dom ≤ 2 then o.dom else 0) | none => true)

/-- Forget a freed handle where other objects name it: taps, solo sources, group members, field I/O targets. -/
def Obj.forget (h : Nat) (o : Obj) : Obj :=
  match o.kind with
  | .meter m => { o with kind := .meter { m with taps := m.taps.filter fun t => t.obj != h } }
  | .svc v => { o with kind := .svc { v with solos := v.solos.filter fun x => x.obj != h } }
  | .group g => { o with kind := .group { g with members := g.members.filter fun m => m.1 != h } }
  | _ => o

/-- No port slot or lane slot writes a ring any longer. -/
def State.unlistRing (s : State) (i : Nat) : State :=
  let ports := s.tdm.map fun (t : Tdm) => { t with binds := t.binds.filter fun b => b.2 != i }
  let lanes := s.lanes.map fun (l : Lane) => { l with lands := l.lands.filter fun b => b.2 != i }
  { s with tdm := ports, lanes := lanes }

/-- Release an object's index with its rings and blocks (R315), and the room it held. -/
def State.release (s : State) (o : Obj) : State :=
  let h := o.handle
  let hs := s.sinkHandles h
  let rings := if o.ty == tRing then [] else (s.outRings h).map fun p => p.1.idx
  let s := rings.foldl (fun s i => s.freeRing i) s
  let s := (hs.drop 1).foldl (fun s b => s.dropObj tBlock (hIdx b)) s
  let s := if o.ty == tRing then (s.unlistRing o.idx).freeRing o.idx else s.dropObj o.ty o.idx
  let s := match o.block? with
    | some b => if b.host == 0 then s else s.upd b.host fun x => { x with charge := x.charge - o.charge }
    | none => s
  let s := { s with objs := s.objs.map fun x => hs.foldl (fun x b => x.forget b) x }
  s.releaseCores.clearQuota o.desk

/-- Release every freeing object that may be released; routes whose Kerf to none has ended go first. -/
def State.finishFrees (s : State) : State :=
  let done := s.routes.filter fun p => p.2.deleting && p.2.waiting.isEmpty && p.2.kerf.isNone
  let s := done.foldl (fun s p => s.dropRoute p.1.idx) s
  let fs := s.objs.filter fun o => o.freeing && o.ty != tRoute
  fs.foldl (fun s o => if s.mayRelease o then s.release o else s) s

/-- Operands of a free command, checked in the order of R309 up to step 14 (R315). -/
def freeChecks (s : State) (f : CmdFrame) (tys : List Nat) : Except Err Obj := do
  let o ← resolve s tys (u32 f 0) 0
  owned f o.desk o.handle
  need (u8 f 4 == 0 || f.desk == 0) eDenied 4 o.handle
  need (u8 f 4 ≤ 1) eRange 4
  reserved f 5 3
  need (!o.freeing) eState 0 o.handle
  let rings := if o.ty == tRing then [o.handle] else (s.outRings o.handle).map fun p => p.1.handle
  need (u8 f 4 == 1 || !(rings.any fun h => !(s.readers h).isEmpty)) eState 0 o.handle
  need (!(s.openOn o.handle) && o.staged == 0) eBusy 0 o.handle
  .ok o

/-- Start a free: changes dropped, readers and inward routes deleted, the index released once nothing holds it. -/
def State.startFree (s : State) (o : Obj) : Nat × State :=
  let now := s.idx (if o.dom ≤ 2 then o.dom else 0)
  let (n, _) := o.dropChanges now
  let s := s.upd o.handle fun x => { (x.dropChanges now).2 with freeing := true }
  let hs := s.sinkHandles o.handle
  let rings := if o.ty == tRing then [o.handle] else (s.outRings o.handle).map fun p => p.1.handle
  let s := s.deleteRoutes false none fun p => hs.contains p.2.sink
  let s := s.deleteRoutes true none fun p => rings.any fun h => p.2.sources.contains h
  (n, s.finishFrees)

/-- The body every plain free command shares. -/
def freeBody (tys : List Nat) (ok : State → Obj → Except Err Unit) (before : Obj → State → State) : Body := fun s f => do
  let o ← freeChecks s f tys
  ok s o
  let (n, s) := (before o s).startFree o
  okResp s (le 4 n)

end Sys2Proof.Machine
end

