-- ==== Sys2Proof/Machine/RingRoute.lean ====
section
/-! DEFINITION. The ring family (R55-R71, R324) and the route family (R72-R82, R325, R326). -/
namespace Sys2Proof.Machine

/-! ## Rings -/

/-- Samples of the deep body region in use (R69). -/
def State.deepUsed (s : State) : Nat :=
  sumNat (s.objs.map fun o => match o.ring? with | some r => if r.deepDue then r.depthDue else 0 | none => 0)

/-- Rows held by deep rings (R68). -/
def State.deepRows (s : State) : Nat := sumNat (s.objs.map (useOf s 5))

/-- A deep depth: a power of two from 128 m to 1,048,576 m (R69). -/
def deepDepth (m d : Nat) : Bool := 128 * m ≤ d && d ≤ 1048576 * m && d == 2 ^ d.log2

def ringInfoBody : Body := fun s f => do
  let o ← resolve s [tRing] (u32 f 0) 0
  match o.ring? with
  | none => .error { status := eHandle, field := 0, handle := o.handle }
  | some r =>
    okResp s (o.prefixBytes s ++ le 1 r.mult ++ le 1 r.writerKind ++ le 2 0 ++ le 4 r.depth ++ le 4 (s.readers o.handle).length ++
      le 4 r.writer ++ le 8 (s.ctr (ctrRing o.idx 0)) ++ le 8 (s.ctr (ctrRing o.idx 1)) ++ le 8 (s.ctr (ctrRing o.idx 2)) ++
      r.rows.flatMap fun p => le 1 p.1 ++ le 1 0 ++ le 2 p.2)

def opRingInfo : RuziaOp := ⟨0x0700, .read, false, len 4, ringInfoBody⟩

/-- `ring.info`. -/
def execRingInfo (f : CmdFrame) (s : State) : Host.Outcome State Fault Refusal :=
  ruzia opRingInfo f s

def ringAllocBody : Body := fun s f => do
  let d ← domainAt f 0
  let c ← classOf s f 1
  let n := u16 f 2
  need (1 ≤ n && n ≤ 64) eRange 2
  let m := s.mult d
  let depth := u32 f 4
  need (depth == 0 || deepDepth m depth) eRange 4
  classPermitted s f.desk c 1
  allocatable s d
  within s f.desk 4 (n * m)
  if depth != 0 then
    within s f.desk 5 (n * m)
    need (s.deepRows + n * m ≤ 4096 && s.deepUsed + n * depth ≤ 536870912) eNoResource
  let (i, s) ← allocRings s f.desk c d n depth 0 0 0
  okResp s (le 4 (s.ringHandle i))

def opRingAlloc : RuziaOp := ⟨0x0701, .change, false, len 8, ringAllocBody⟩

/-- `ring.alloc`: every ring or none. -/
def execRingAlloc (f : CmdFrame) (s : State) : Host.Outcome State Fault Refusal :=
  ruzia opRingAlloc f s

/-- A ring of an object's own outputs is freed with the object alone (R315); a ring bound to a port or a lane is unbound with
its release. -/
def ringFreeOk (_s : State) (o : Obj) : Except Err Unit :=
  need ((o.ring?.map fun r => r.writerKind == 0 || (1 ≤ r.writerKind && r.writerKind ≤ 2)).getD false) eState 0 o.handle

def opRingFree : RuziaOp := ⟨0x0702, .change, false, len 8, freeBody [tRing] ringFreeOk fun _ s => s⟩

/-- `ring.free`. -/
def execRingFree (f : CmdFrame) (s : State) : Host.Outcome State Fault Refusal :=
  ruzia opRingFree f s

def ringDeepBody : Body := fun s f => do
  let o ← resolve s [tRing] (u32 f 0) 0
  owned f o.desk o.handle
  match o.ring? with
  | none => .error { status := eHandle, field := 0, handle := o.handle }
  | some r =>
    let d := u32 f 4
    need (d == 0 || deepDepth r.mult d) eRange 4
    let d := if d == 0 then 64 * r.mult else d
    let r' := { r with newDepth := some (nextBoundary s o.dom, d) }
    need (!((s.readers o.handle).any fun p =>
      p.2.source == o.handle && p.2.offset > oMax s r' ||
      p.2.waiting.any fun c => let q := p.2.readingAt c.s; q.1 == o.handle && q.2 > oMax s r')) eState 4 o.handle
    need (!(r.writerKind == 2 && s.quarry.p > 8 && !r'.deepDue)) eState 4 o.handle
    settled o
    if r'.deepDue then
      within s o.desk 5 (if r.deepDue then 0 else r.mult)
      let rows := s.deepRows - (if r.deepDue then r.mult else 0) + r.mult
      let used := s.deepUsed - (if r.deepDue then r.depthDue else 0) + d
      need (rows ≤ 4096 && used ≤ 536870912) eNoResource
    let s := (s.upd o.handle fun x => x.onRing fun _ => r').turnRings o.dom 0
    okResp (s.clearQuota o.desk)

def opRingDeep : RuziaOp := ⟨0x0703, .change, false, len 8, ringDeepBody⟩

/-- `ring.deep` acts at the next ashlar boundary; samples older than a growth read 0.0 (R71). -/
def execRingDeep (f : CmdFrame) (s : State) : Host.Outcome State Fault Refusal :=
  ruzia opRingDeep f s

/-! ## Routes -/

def routeInfoBody : Body := fun s f => do
  let o ← resolve s [tRoute] (u32 f 0) 0
  match o.route? with
  | none => .error { status := eHandle, field := 0, handle := o.handle }
  | some r =>
    okResp s (o.prefixBytes s ++ le 1 r.kind ++ le 1 0 ++ le 2 r.sub ++ le 4 r.sink ++ le 4 r.source ++ le 4 r.offset ++
      le 1 r.policy ++ le 1 r.law ++ le 1 (min 4 r.waiting.length) ++ le 1 (if r.kerf.isSome then 1 else 0) ++ le 4 r.t)

def opRouteInfo : RuziaOp := ⟨0x0800, .read, false, len 4, routeInfoBody⟩

/-- `route.info`. -/
def execRouteInfo (f : CmdFrame) (s : State) : Host.Outcome State Fault Refusal :=
  ruzia opRouteInfo f s

/-- A law byte with its override (R313). -/
def lawAt (f : CmdFrame) (o dflt : Nat) : Except Err Nat := do
  let v := u8 f o
  need (v ≤ 2 || v == 0xFF) eRange o
  .ok (override v 0xFF dflt)

/-- A T of the range of R196 with its override. -/
def tAt (f : CmdFrame) (o limit dflt : Nat) : Except Err Nat := do
  let v := u32 f o
  need (v ≤ limit || v == 0xFFFFFFFF) eRange o
  .ok (override v 0xFFFFFFFF dflt)

/-- R85 for a change accepted with a Kerf at index `i`. -/
def kerfAllowed (s : State) (o : Obj) (r : Route) (i t : Nat) : Except Err Unit :=
  let fs := s.fs o.dom
  need (kerfFits s { b := instantOf (8 * (i / 8)) fs, e := instantOf (8 * ((i + t) / 8 + 1)) fs, pair := r.readingBefore i })
    eBusy 0 o.handle

/-- A new entry with its sink, before any change. -/
def Route.new (kind sub sink policy law t : Nat) : Route :=
  { kind := kind, sub := sub, sink := sink, source := 0, offset := 0, policy := policy, law := law, t := t, next := none,
    waiting := [], kerf := none, deleting := false, bound := 0 }

/-- Create an entry and give it its first source; the answer is its index. -/
def State.addRoute (s : State) (desk cls d : Nat) (r : Route) : Except Err (Nat × State) := do
  need ((s.ofType tRoute).length < 65536) eNoResource
  match (s.tab tRoute).pick 1 1 0 65536 with
  | none => .error { status := eNoResource }
  | some i =>
    .ok (i, s.addObj { ty := tRoute, idx := i, gen := 1, desk := desk, cls := cls, dom := d, freeing := false, job := none,
                       staged := 0, charge := 0, safe := 0, epoch := s.epoch, kind := .route r })

/-- Step 12: the routes as they would stand make no loop (R188). -/
def noFeedLoop (trial : Except Err (Nat × State)) (field : Nat) : Except Err Unit :=
  match trial with
  | .ok (_, s) => acyclic s field
  | .error _ => .ok ()

def routeCreateBody : Body := fun s f => do
  let kind := u8 f 0
  let sub := u16 f 2
  let h := u32 f 4
  let src := u32 f 8
  let off := u32 f 12
  let k ← sinkOf s kind sub h 0
  if src != 0 then
    let _ ← resolve s [tRing] src 8
  need (f.desk == k.desk || f.desk == 0) eDenied 4 h
  reserved f 1 1
  need k.fit eRange 2 h
  let dd := s.desk f.desk
  need (u8 f 16 ≤ 1 || u8 f 16 == 0xFF) eRange 16
  let policy := override (u8 f 16) 0xFF dd.defPolicy
  let law ← lawAt f 17 dd.defLaw
  let cls ← classOf s f 18
  reserved f 19 1
  let t ← tAt f 20 96000 dd.defT
  need (off ≤ offsetLimit s src) eRange 12 src
  let l ← launchAt s f 24
  sourceOk s kind src k.dom k.mult 8
  need (!k.freeing && !k.closed) eState 0 h
  need ((s.routeTo kind sub h).isNone) eState 0 h
  let r := Route.new kind sub h policy law t
  noFeedLoop (s.addRoute k.desk cls k.dom { r with source := src, offset := off }) 8
  classPermitted s f.desk cls 18
  need (cls ≥ k.cls) eClass 18
  let o : Obj := { ty := tRoute, idx := 0, gen := 1, desk := k.desk, cls := cls, dom := k.dom, freeing := false, job := none,
                   staged := 0, charge := 0, safe := 0, epoch := s.epoch, kind := .route r }
  let w ← schedule s l k.dom 0 false 24
  if policy == 1 && t > 0 && !w.now then kerfAllowed s o r w.s t
  within s k.desk 6 1
  let s ← admitReading s (src, off)
  let (i, s) ← s.addRoute k.desk cls k.dom r
  let (n, s) := s.stamp
  let c : RChange := { order := n, desk := f.desk, seq := f.seq, s := w.s, src := some src, off := some off, cut := policy == 0,
                       t := t, law := law, recallOf := 0 }
  let s := if w.now then s.applyRoute i c else s.changeRoute i c
  lateCheck f w
  let s := s.slipEvent f 0x0801 1 w
  okResp s (le 4 (((s.objAt tRoute i).map Obj.handle).getD 0) ++ le 8 w.index)

def opRouteCreate : RuziaOp := ⟨0x0801, .change, false, len 40, routeCreateBody⟩

/-- `route.create`: a change from source 0 to SOURCE and OFFSET (R325). -/
def execRouteCreate (f : CmdFrame) (s : State) : Host.Outcome State Fault Refusal :=
  ruzia opRouteCreate f s

def routeDeleteBody : Body := fun s f => do
  let o ← resolve s [tRoute] (u32 f 0) 0
  owned f o.desk o.handle
  settled o
  need (o.staged == 0) eBusy 0 o.handle
  okResp (s.deleteRoute o.idx false none).finishFrees

def opRouteDelete : RuziaOp := ⟨0x0802, .change, false, len 4, routeDeleteBody⟩

/-- `route.delete` (R82). -/
def execRouteDelete (f : CmdFrame) (s : State) : Host.Outcome State Fault Refusal :=
  ruzia opRouteDelete f s

/-- Which of the three change commands: 0 cut, 1 kerf, 2 set. -/
structure RouteReq where
  obj : Obj
  route : Route
  change : RChange
  when_ : When
  deriving DecidableEq, Repr

def atItem {α : Type} (i : Nat) (x : Except Err α) : Except Err α :=
  match x with
  | .ok a => .ok a
  | .error e => .error { e with item := if e.item == 0xFFFF then i else e.item }

/-- Check record `i` of a change command (R326). -/
def routeRecord (kind : Nat) (s : State) (f : CmdFrame) (l : Launch) (i : Nat) : Except Err RouteReq := atItem i do
  let b := 20 + 20 * i
  let o ← resolve s [tRoute] (u32 f b) b
  match o.route? with
  | none => .error { status := eHandle, field := b, handle := o.handle }
  | some r =>
    let mask := u8 f (b + 12)
    let src := u32 f (b + 4)
    let off := u32 f (b + 8)
    if bit mask 0 && src != 0 then
      let _ ← resolve s [tRing] src (b + 4)
    owned f o.desk o.handle b
    need (1 ≤ mask && mask ≤ 3) eRange (b + 12)
    need (kind != 0 || u8 f (b + 13) == 0xFF) eRange (b + 13)
    let law ← lawAt f (b + 13) r.law
    reserved f (b + 14) 2
    need (kind != 0 || u32 f (b + 16) == 0xFFFFFFFF) eRange (b + 16)
    let t ← tAt f (b + 16) 96000 r.t
    need (!o.freeing) eState b o.handle
    let w ← schedule s l o.dom 0 false 0
    let c : RChange := { order := 0, desk := f.desk, seq := f.seq, s := w.s, src := if bit mask 0 then some src else none,
                         off := if bit mask 1 then some off else none, cut := kind == 0 || (kind == 2 && r.policy == 0),
                         t := t, law := law, recallOf := 0 }
    let p := c.reading (r.readingAt w.s)
    need (p.2 ≤ offsetLimit s p.1) eRange (b + 8) p.1
    if bit mask 0 then sourceOk s r.kind src o.dom (s.mult o.dom) (b + 4)
    .ok { obj := o, route := r, change := c, when_ := w }

/-- Step 12 for the whole list: no route twice (R326), and no loop in the feed graph (R188). -/
def routeListOk (s : State) (qs : List RouteReq) : Except Err Unit := do
  qs.zipIdx.forM fun q => atItem q.2
    (need (!((qs.take q.2).any fun p => p.obj.idx == q.1.obj.idx)) eState (20 + 20 * q.2) q.1.obj.handle)
  acyclic (qs.foldl (fun s q => if q.when_.now then s.applyRoute q.obj.idx q.change else s.changeRoute q.obj.idx q.change) s)

/-- Step 14 for record `i`: no deferred command open, at most 4 changes waiting (R80), the Kerf allowance (R85). -/
def routeRecordBusy (s : State) (i : Nat) (q : RouteReq) : Except Err Unit := atItem i do
  let b := 20 + 20 * i
  settled q.obj b
  need (q.route.waiting.length < 4) eBusy b q.obj.handle
  if !q.change.isCut && !q.when_.now then
    kerfAllowed s q.obj q.route (deferKerf q.route.spans q.change.t 12 q.when_.s) q.change.t

/-- Admit and apply the records in order. -/
def routeApply (op : Nat) (f : CmdFrame) : List RouteReq → State → Except Err State
  | [], s => .ok s
  | q :: qs, s => do
    let s ← admitReading s (q.change.reading (q.route.readingAt q.when_.s))
    let (n, s) := s.stamp
    let c := { q.change with order := n }
    let s := if q.when_.now then s.applyRoute q.obj.idx c else s.changeRoute q.obj.idx c
    routeApply op f qs (s.slipEvent f op 1 q.when_)

def routeChangeBody (op kind : Nat) : Body := fun s f => do
  let n := u16 f 16
  need (1 ≤ n && n ≤ 11) eRange 16
  reserved f 18 2
  let l ← launchAt s f 0
  let qs ← eachItem (routeRecord kind s f l) n 0
  routeListOk s qs
  qs.zipIdx.forM fun q => routeRecordBusy s q.2 q.1
  let s ← routeApply op f qs s
  qs.forM fun q => lateCheck f q.when_
  okResp s (qs.flatMap fun q => le 8 q.when_.index)

def opRouteCut : RuziaOp := ⟨0x0803, .change, false, lenCount 20 16 20, routeChangeBody 0x0803 0⟩

/-- `route.cut`. -/
def execRouteCut (f : CmdFrame) (s : State) : Host.Outcome State Fault Refusal :=
  ruzia opRouteCut f s

def opRouteKerf : RuziaOp := ⟨0x0804, .change, false, lenCount 20 16 20, routeChangeBody 0x0804 1⟩

/-- `route.kerf`. -/
def execRouteKerf (f : CmdFrame) (s : State) : Host.Outcome State Fault Refusal :=
  ruzia opRouteKerf f s

def opRouteSet : RuziaOp := ⟨0x0805, .change, false, lenCount 20 16 20, routeChangeBody 0x0805 2⟩

/-- `route.set`: CUT or Kerf by the route's POLICY. -/
def execRouteSet (f : CmdFrame) (s : State) : Host.Outcome State Fault Refusal :=
  ruzia opRouteSet f s

def routePolicyBody : Body := fun s f => do
  let o ← resolve s [tRoute] (u32 f 0) 0
  owned f o.desk o.handle
  match o.route? with
  | none => .error { status := eHandle, field := 0, handle := o.handle }
  | some r =>
    need (u8 f 4 ≤ 1 || u8 f 4 == 0xFF) eRange 4
    let p := override (u8 f 4) 0xFF r.policy
    let law ← lawAt f 5 r.law
    reserved f 6 2
    let t ← tAt f 8 96000 r.t
    settled o
    okResp (s.upd o.handle fun x => x.onRoute fun r =>
      if (s.dom o.dom).st == .stopped then { r with policy := p, law := law, t := t } else { r with next := some (p, law, t) })

def opRoutePolicy : RuziaOp := ⟨0x0806, .change, false, len 12, routePolicyBody⟩

/-- `route.policy`: the policy fields act at the next tick (R73). -/
def execRoutePolicy (f : CmdFrame) (s : State) : Host.Outcome State Fault Refusal :=
  ruzia opRoutePolicy f s

end Sys2Proof.Machine
end

