-- ==== Sys2Proof/Machine/Params.lean ====
section
/-! DEFINITION. Parameters and their changes: ramps (R180, R201), the Kerf modes of R133, launching, and the TWIN
spans of R135. The tables themselves are in the files of their objects. -/
namespace Sys2Proof.Machine

/-! ## Ramps (R179, R180) -/

/-- Start a ramp towards `g` from the value reached, over `t` samples. -/
def GainRec.start (g reached : Word) (t : Nat) : GainRec :=
  if t == 0 then GainRec.rest g
  else { gainEnd := g, step := fDiv (fSub g reached) (fInt t), count := t }

/-- The record at its next sample. -/
def GainRec.tick (r : GainRec) : GainRec := { r with count := r.count - 1 }

/-- The value in force at the present sample. -/
def GainRec.value (r : GainRec) : Word :=
  if r.count == 0 then r.gainEnd else fFma (fNegate r.step) (fInt r.count) r.gainEnd

/-! ## Modes and tables (R131, R133) -/

/-- Kerf mode of a parameter. -/
inductive Mode where
  | stored
  | step
  | twin
  | twin0
  | object
  | db
  | lin
  | mute
  | sign
  | pan
  | enable
  deriving DecidableEq, Repr

/-- One row of a parameter table: range as signed or unsigned, codes accepted beside it, default, mode. -/
structure PSpec where
  lo : Int
  hi : Int
  also : List Nat := []
  signed : Bool := false
  dflt : Nat
  mode : Mode
  real : Bool := false
  deriving DecidableEq, Repr

/-- Place of a finite binary32 code in the order of its values. -/
def realKey (v : Nat) : Int := if v < 2 ^ 31 then v else -((v - 2 ^ 31 : Nat) : Int)

/-- A value is in its parameter's range; a binary32 value must be finite (R340). -/
def PSpec.ok (p : PSpec) (v : Nat) : Bool :=
  if p.real then !(fSpecial (BitVec.ofNat 32 v)) && p.lo ≤ realKey v && realKey v ≤ p.hi else
  p.also.contains v || (let x : Int := if p.signed then s32 v else v; p.lo ≤ x && x ≤ p.hi)

/-- Code of −∞ (R7). -/
def minusInf : Nat := 0x80000000

/-- A two's complement code. -/
def code (v : Int) : Nat := twos 32 v

/-- A gain of R142, R159: −∞, or −14,400 to +1,200 mB. -/
def levelSpec : PSpec := { lo := -14400, hi := 1200, also := [minusInf], signed := true, dflt := 0, mode := .db }

/-! ## Values -/

/-- A value at rest. -/
def PVal.rest (id v : Nat) (m : Mode) : PVal :=
  match m with
  | .db => { id := id, written := v, use := v, ramp := GainRec.rest (if v == minusInf then 0#32 else fInt (s32 v)),
             db := v != minusInf }
  | .mute => { id := id, written := v, use := v, ramp := GainRec.rest (if v == 0 then oneW else 0#32), db := false }
  | .lin => { id := id, written := v, use := v, ramp := GainRec.rest (fRat v 65536), db := false }
  | .sign => { id := id, written := v, use := v, ramp := GainRec.rest (if v == 0 then oneW else fNegate oneW), db := false }
  | _ => { id := id, written := v, use := v, ramp := GainRec.rest 0#32, db := false }

/-- The value held for an identifier; one never written is at its default. -/
def valOf (vs : List PVal) (id dflt : Nat) (m : Mode) : PVal :=
  match vs.find? fun v => v.id == id with
  | some v => v
  | none => PVal.rest id dflt m

def setVal (vs : List PVal) (v : PVal) : List PVal := v :: vs.filter fun x => x.id != v.id

/-- Factor of a value in force: R8 for a millibel scale. -/
def PVal.factor (v : PVal) : Word := if v.db then fGainMb v.ramp.value else v.ramp.value

/-- Take a new value by its mode over `t` samples, from what is reached (R134, R201). -/
def PVal.launch (v : PVal) (m : Mode) (new t : Nat) : PVal :=
  match m with
  | .db =>
    let linear := new == minusInf || (v.ramp.count > 0 && !v.db) || v.use == minusInf || fIsZero v.factor
    if linear then { v with use := new, ramp := GainRec.start (fGain new) v.factor t, db := false }
    else
      let reached := if v.db then v.ramp.value else fInt (s32 v.use)
      { v with use := new, ramp := GainRec.start (fInt (s32 new)) reached t, db := true }
  | .mute => { v with use := new, ramp := GainRec.start (if new == 0 then oneW else 0#32) v.ramp.value t }
  | .lin => { v with use := new, ramp := GainRec.start (fRat new 65536) v.ramp.value t }
  | .sign => { v with use := new, ramp := GainRec.start (if new == 0 then oneW else fNegate oneW) v.ramp.value t }
  | _ => { v with use := new }

/-- A value as its next sample finds it; a finished linear ramp to a finite millibel value rests in its scale. -/
def PVal.tick (v : PVal) : PVal := { v with ramp := v.ramp.tick }

/-! ## The three parts every parameterised object holds -/

structure Params where
  vals : List PVal
  pend : List PChange
  twins : List Twin
  deriving DecidableEq, Repr

def Obj.params (o : Obj) : Params :=
  match o.kind with
  | .chan c => ⟨c.vals, c.pend, c.twins⟩
  | .block b => ⟨b.vals, b.pend, b.twins⟩
  | .svc v => ⟨v.vals, v.pend, v.twins⟩
  | .meter m => ⟨m.vals, m.pend, []⟩
  | .capture c => ⟨c.vals, c.pend, []⟩
  | _ => ⟨[], [], []⟩

def Obj.setParams (o : Obj) (p : Params) : Obj :=
  match o.kind with
  | .chan c => { o with kind := .chan { c with vals := p.vals, pend := p.pend, twins := p.twins } }
  | .block b => { o with kind := .block { b with vals := p.vals, pend := p.pend, twins := p.twins } }
  | .svc v => { o with kind := .svc { v with vals := p.vals, pend := p.pend, twins := p.twins } }
  | .meter m => { o with kind := .meter { m with vals := p.vals, pend := p.pend } }
  | .capture c => { o with kind := .capture { c with vals := p.vals, pend := p.pend } }
  | _ => o

/-- Launch order on one object: by index, tick-level writes before launched ones, then by acceptance (R29, R54). -/
def PChange.before (a b : PChange) : Bool :=
  a.s < b.s || (a.s == b.s && ((a.tick && !b.tick) || (a.tick == b.tick && a.order ≤ b.order)))

def insertP (c : PChange) : List PChange → List PChange
  | [] => [c]
  | x :: xs => if PChange.before x c then x :: insertP c xs else c :: x :: xs

/-- Launch what has come by sample `j`. `mode` gives each identifier's Kerf. -/
def launchVals (spec : Nat → Option PSpec) (j : Nat) : List PChange → List PVal → List PVal × List PChange
  | [], vs => (vs, [])
  | c :: cs, vs =>
    if c.s ≤ j then
      match spec c.id with
      | some p => launchVals spec j cs (setVal vs ((valOf vs c.id p.dflt p.mode).launch p.mode c.value c.t))
      | none => launchVals spec j cs vs
    else (vs, c :: cs)

/-! ## TWIN spans (R135) -/

/-- The first sample of a span: the start of the warm-up ashlar, or S. -/
def Twin.first (t : Twin) : Nat := if t.w == 0 then t.s else 8 * ((t.s - t.w) / 8)

/-- The first sample after the crossfade. -/
def Twin.after (t : Twin) : Nat := t.s + t.t

def spanFirst (s w : Nat) : Nat := if w == 0 then s else 8 * ((s - w) / 8)

/-- Where a TWIN may launch: moved past every TWIN of the block in its way, in order of launch. -/
def deferTwin (ts : List Twin) (w t : Nat) : Nat → Nat → Nat
  | 0, s => s
  | n + 1, s =>
    match (ts.filter fun x => x.first < s + max t 1 && spanFirst s w < max x.after (x.first + 1)).inOrder
        (fun a b => a.s ≤ b.s) with
    | x :: _ => deferTwin ts w t n (if w == 0 then max s x.after else max s (8 * ceilDiv x.after 8 + w))
    | [] => s

/-- A staged TWIN that a change of the same block and launch joins. -/
def joins (now page s : Nat) (t : Twin) : Bool := t.page == page && t.s == s && t.recallOf == 0 && now < t.first

/-- Charge of every TWIN on a core whose span meets samples `a` to `b`, in 1/64 WU (R110). -/
def twinLoad (s : State) (c a b : Nat) : Nat :=
  sumNat (s.objs.map fun o => if coreOf o == some c then
    sumNat ((o.params.twins.filter fun t => t.first < b && a < t.after).map (·.charge)) else 0)

/-- R110: a TWIN of charge `w` keeps its core within 160 WU over its span. -/
def twinFits (s : State) (c w a b : Nat) : Bool := coreCharge s c + twinLoad s c a b + w ≤ 160 * 64

/-! ## The shared payload of R317 -/

/-- COUNT of a parameter write and the length it needs. -/
def paramLen (f : CmdFrame) : Bool :=
  f.len ≥ 32 && (if u16 f 30 == 0xFFFF then f.len == 48 else f.len == 32 + 8 * u16 f 30)

/-- The records of a payload, as (identifier, value), with the reserved field checked. -/
def recordAt (f : CmdFrame) (i : Nat) : Except Err (Nat × Nat) := do
  let b := 32 + 8 * i
  if u16 f (b + 2) != 0 then .error { status := eRange, field := b + 2, item := i } else .ok (u16 f b, u32 f (b + 4))

/-- Records of bulk data. -/
def bulkRecords : Nat → List Byte → List (Nat × Nat)
  | 0, _ => []
  | n + 1, bs => if bs.length < 8 then [] else (fieldAt bs 0 2, fieldAt bs 4 4) :: bulkRecords n (bs.drop 8)

/-- T, W and LAW of a parameter write. -/
structure Timing3 where
  t : Nat
  w : Nat
  law : Nat
  deriving DecidableEq, Repr

def timing3 (f : CmdFrame) : Except Err Timing3 := do
  let t ← tAt f 20 96000 480
  let w ← tAt f 24 32768 1024
  let law ← lawAt f 28 0
  reserved f 29 1
  .ok { t := t, w := w, law := law }

/-- Every record names a parameter of the object and a value in its range (R131). -/
def checkRecords (spec : Nat → Option PSpec) (h : Nat) : Nat → List (Nat × Nat) → Except Err Unit
  | _, [] => .ok ()
  | i, (id, v) :: rs => do
    match spec id with
    | none => .error { status := eRange, field := 32 + 8 * i, item := i, handle := h }
    | some p =>
      if p.ok v then checkRecords spec h (i + 1) rs
      else .error { status := eRange, field := 36 + 8 * i, item := i, handle := h }

/-- The later of two records of one identifier applies (R317). -/
def lastRecords : List (Nat × Nat) → List (Nat × Nat)
  | [] => []
  | (id, v) :: rs => if rs.any fun r => r.1 == id then lastRecords rs else (id, v) :: lastRecords rs

/-- The state or engine forbids the value a list gives a parameter: the refusal names its record (R282). -/
def needRecord (ok : Bool) (recs : List (Nat × Nat)) (id h : Nat) : Except Err Unit :=
  let at' := recs.length - 1 - (recs.reverse.findIdx fun r => r.1 == id)
  if ok then .ok () else .error { status := eState, field := 36 + 8 * at', item := at', handle := h }

/-- A write body: check the whole list against the object and apply it. -/
abbrev ParamWrite := State → CmdFrame → Obj → List (Nat × Nat) → Except Err (When × State)

/-- The body of a parameter write command (R317). -/
def paramSetBody (op : Nat) (tys : List Nat) (write : ParamWrite) : Body := fun s f => do
  let o ← resolve s tys (u32 f 0) 0
  owned f o.desk o.handle
  if u16 f 30 == 0xFFFF then
    let b ← bulkAt s f 32 0 32768
    need (b.len % 8 == 0 && 1 ≤ b.len) eRange 36
    let _ ← timing3 f
    let _ ← launchAt s f 4
    settled o
    mayDefer s f
    accResp (s.defer f op o.handle (some b) 0 0)
  else
    need (1 ≤ u16 f 30 && u16 f 30 ≤ 26) eRange 30
    let recs ← eachItem (recordAt f) (u16 f 30) 0
    let (w, s') ← write s f o recs
    if (s'.jobs.length > s.jobs.length) then accResp s' (le 8 w.index) else okResp s' (le 8 w.index)

/-- The body of a parameter read command (R318). `use` answers a value in force. -/
def paramGetBody (tys : List Nat) (spec : State → Obj → Nat → Option PSpec) (use : State → Obj → Nat → PSpec → Nat × State) :
    Body := fun s f => do
  let o ← resolve s tys (u32 f 0) 0
  need (1 ≤ u16 f 4 && u16 f 4 ≤ 19) eRange 4
  reserved f 6 2
  let ids ← eachItem (fun i => do
    let id := u16 f (8 + 2 * i)
    if (spec s o id).isNone then .error { status := eRange, field := 8 + 2 * i, item := i, handle := o.handle } else .ok id)
    (u16 f 4) 0
  let (bs, s) := ids.foldl (fun (p : List Byte × State) id =>
    match spec p.2 o id with
    | none => p
    | some q =>
      let (u, s) := use p.2 o id q
      (p.1 ++ le 2 id ++ le 2 0 ++ le 4 (valOf o.params.vals id q.dflt q.mode).written ++ le 4 u, s)) ([], s)
  okResp s (le 2 (u16 f 4) ++ le 2 0 ++ bs)

/-- IN_USE of a plain value: the code in force at rest; a ramp between codes has no code, and its word is open. -/
def plainUse (s : State) (o : Obj) (id : Nat) (p : PSpec) : Nat × State :=
  let v := valOf o.params.vals id p.dflt p.mode
  if v.ramp.count == 0 then (v.use, s)
  else let (w, s) := s.draw; (w.toNat, s)

/-- Length of a parameter read. -/
def getLen (f : CmdFrame) : Bool := f.len ≥ 8 && f.len == 8 + 2 * u16 f 4

end Sys2Proof.Machine
end

