-- ==== Sys2Proof/Machine/Bench.lean ====
section
/-! DEFINITION. The Bench: placement of tiles (R173, R174), change queues (R182), row factors (R185), pan terms
(R155-R158, R187), node ramps (R179-R181) and the column sums (R175-R177). -/
namespace Sys2Proof.Machine

/-! ## Tile-slots -/

/-- Tile-slots held on a logical array. -/
def arrayUsed (s : State) (a : Nat) : Nat :=
  sumNat (s.objs.map fun o => match o.tiles? with
    | some t => (t.tiles.filter (· == a)).length * s.heldMult o.dom
    | none => 0)

def slotsUsed (s : State) : Nat := sumNat ((List.range 16).map (arrayUsed s))

/-- Give `n` tiles of `m` slots to arrays in ascending order, from the free slots of each. -/
def giveTiles (m : Nat) : List (Nat × Nat) → Nat → List Nat
  | [], _ => []
  | (a, free) :: rest, n =>
    let k := min n (free / m)
    List.replicate k a ++ giveTiles m rest (n - k)

/-- An array with a lasting fault takes no new tiles (R192, R194). -/
def State.badArray (s : State) (a : Nat) : Bool := s.faults.lasting.contains (2, s.faults.arrayMap.getD a a)

def freeSlots (s : State) : List (Nat × Nat) :=
  (List.range 16).map fun a => (a, if s.badArray a then 0 else 32 - arrayUsed s a)

/-- Pack every tile set anew, the widest tiles first, so that free slots stand together (R174). -/
def repackAll (s : State) : List Obj → List (Nat × Nat) → List (Nat × List Nat)
  | [], _ => []
  | o :: os, free =>
    match o.tiles? with
    | none => repackAll s os free
    | some t =>
      let m := s.heldMult o.dom
      let ts := giveTiles m free t.tiles.length
      (o.idx, ts) :: repackAll s os (free.map fun p => (p.1, p.2 - m * (ts.filter (· == p.1)).length))

/-- Pairs (from, to) of the tiles a new placement moves. -/
def movedTiles (old new : List Nat) : List (Nat × Nat) := ((old.zip new).filter fun p => p.1 != p.2)

/-- Move the tiles of the pool together, each move reported by TILESET_MOVED (R173). -/
def State.gatherTiles (s : State) : State :=
  let os := (s.objs.filter fun o => o.tiles?.isSome).inOrder fun a b => s.heldMult a.dom ≥ s.heldMult b.dom
  (repackAll s os (((List.range 16).filter fun a => !(s.badArray a)).map fun a => (a, 32))).foldl (fun s p =>
    match s.objAt tBlock p.1 with
    | none => s
    | some o =>
      let ms := movedTiles ((o.tiles?.map (·.tiles)).getD []) p.2
      let s := s.modObj tBlock p.1 fun o => o.onTiles fun t => { t with tiles := p.2 }
      ms.eraseDups.foldl (fun s m => s.raiseObj o.desk 0x0503
        (le 4 o.handle ++ le 2 (ms.filter (· == m)).length ++ le 1 (s.faults.arrayMap.getD m.1 0) ++
          le 1 (s.faults.arrayMap.getD m.2 0))) s) s

/-- Arrays for `n` tiles of `m` slots, after a gathering of slots where that alone makes room (R174). -/
def placeTiles (s : State) (n m : Nat) : Except Err (List Nat × State) :=
  let free := freeSlots s
  if sumNat (free.map fun p => p.2 / m) ≥ n then .ok (giveTiles m free n, s)
  else if slotsUsed s + n * m ≤ 512 then
    let s := s.gatherTiles
    let free := freeSlots s
    if sumNat (free.map fun p => p.2 / m) ≥ n then .ok (giveTiles m free n, s) else .error { status := eNoResource }
  else .error { status := eNoResource }

/-! ## Change queues (R182) -/

/-- The array that holds a node's tile. -/
def Tiles.arrayOf (t : Tiles) (row col : Nat) : Nat := t.tiles.getD ((row / 64) * (t.cols / 64) + col / 64) 0

/-- Entries a queue holds. -/
def queueUsed (s : State) (a : Nat) : Nat :=
  sumNat (s.objs.map fun o => match o.tiles? with
    | some t => (t.pend.filter fun c => t.arrayOf c.row c.col == a).length
    | none => 0)

/-- Changes of nodes (row, column) fit the queues of their arrays. -/
def queueFits (s : State) (t : Tiles) (cells : List (Nat × Nat)) : Bool :=
  (List.range 16).all fun a =>
    let n := (cells.filter fun c => t.arrayOf c.1 c.2 == a).length
    n == 0 || queueUsed s a + n ≤ 131072

/-! ## Row factors (R185) -/

/-- Groups of a row, by their in-force membership. -/
def groupsOf (s : State) (h row : Nat) : List Group :=
  s.objs.filterMap fun o => match o.group? with
    | some g => if g.members.contains (h, row) then some g else none
    | none => none

/-- Row factor from the offsets in force in a domain. -/
def factorOf (offs : List Nat) : Word :=
  if offs.contains minusInf then 0#32 else
  let e : Int := offs.foldl (fun (n : Int) o => n + s32 o) 0
  if e == 0 then oneW else if e > 2400 then fGainInt 2400 else if e < -14400 then 0#32 else fGainInt e

def rowFactor (s : State) (d h row : Nat) : Word :=
  factorOf ((groupsOf s h row).map fun g => g.offsetUse.getD d 0)

def Tiles.rowRec (t : Tiles) (row : Nat) : GainRec :=
  match t.rowRecs.find? fun r => r.row == row with
  | some r => r.ramp
  | none => GainRec.unity

/-! ## Pan terms (R155, R156, R187) -/

/-- Outputs of a pan MODE. -/
def panOutputs : Nat → Nat
  | 1 => 2
  | 2 => 3
  | 3 => 6
  | 4 => 12
  | 5 => 16
  | _ => 0

/-- PAN_FOLLOW in force. -/
def Chan.follows (c : Chan) : Bool :=
  if c.panFollow == 0xFF then [2, 3, 6, 12, 16].contains c.width else c.panFollow == 1

/-- The fixed-point factors of the pair law at `p / q` with `x = 2 p / q - 1`, scaled by 2^n: left (`l`) or right. -/
def pairFix (law : Nat) (l : Bool) (p q n : Nat) : Int :=
  let tr : Int := if l then cosFix n (piFix n * p / (2 * q)) else sinFix n (piFix n * p / (2 * q))
  let ln : Int := if l then 2 ^ n * (q - p : Nat) / q else 2 ^ n * p / q
  match law with
  | 0 => tr
  | 1 => sqrtFix n (tr * ln / 2 ^ n)
  | _ => ln

/-- The pair law as a word (R156). -/
def pairWord (law : Nat) (l : Bool) (p q : Nat) : Word :=
  let edge := if l then p else q - p
  if edge == 0 then oneW
  else if edge ≥ q then 0#32
  else if law == 0 then (if l then fCosHalfPi p q else fSinHalfPi p q)
  else if law == 1 then ziv (fun n => (0, pairFix 1 l p q n)) 4 96
  else fRat (if l then (q - p : Nat) else p) q

/-- Balance of a stereo Strip on one output side: min(law(x)/law(0), 1) times `num / 131072`. -/
def balanceWord (law : Nat) (l : Bool) (p q num : Nat) : Word :=
  let near := if l then 2 * p ≤ q else 2 * p ≥ q
  let edge := if l then p else q - p
  if num == 0 then 0#32
  else if near then fRat num 131072
  else if edge ≥ q then 0#32
  else if law == 2 then fRat (2 * (q - edge) * num) (q * 131072)
  else ziv (fun n => (0, pairFix law l p q n * 2 ^ n / pairFix law l q (2 * q) n * num / 131072)) 4 96

/-- The pan value in force under an identifier. -/
def panVal (c : Chan) (id dflt : Nat) : Nat := (valOf c.vals id dflt .pan).use

/-- The pan term of an object's channel `k` into output `out` of a Bus whose layout is given. -/
def panWord (c : Chan) (k out : Nat) (layout : List (Nat × Nat)) : Word :=
  let mode := panVal c 0x0A00 (if c.width ≤ 2 then 1 else 0)
  let law := panVal c 0x0A05 0
  let x : Int := s32 (panVal c 0x0A01 0)
  let p := (x + 65536).toNat
  match mode with
  | 1 =>
    if c.width == 1 then pairWord law (out == 0) p 131072
    else
      let w := panVal c 0x0A04 65536
      balanceWord law (out == 0) p 131072 (if k == out then 65536 + w else 65536 - w)
  | 2 =>
    if p ≤ 65536 then
      (match out with | 0 => pairWord law true p 65536 | 2 => pairWord law false p 65536 | _ => 0#32)
    else
      (match out with
        | 2 => pairWord law true (p - 65536) 65536
        | 1 => pairWord law false (p - 65536) 65536
        | _ => 0#32)
  | 0 => oneW
  | m =>
    if (m == 3 || m == 4) && out == 3 then fGain (panVal c 0x0A06 minusInf)
    else Config.panTerm ([m, law, panVal c 0x0A01 0, panVal c 0x0A02 65536, panVal c 0x0A03 0, panVal c 0x0A04 65536, out] ++
      (if m == 5 then layout.flatMap fun q => [q.1, q.2] else []))

/-- The object and channel whose output ring a ring handle names, if that object's Panner is on. -/
def pannerOf (s : State) (ring : Nat) : Option (Chan × Nat) :=
  match (s.obj ring).bind Obj.ring? with
  | some r =>
    if (r.writerKind == 4 || r.writerKind == 6) && r.writerSub < 0x100 then
      match (s.obj r.writer).bind Obj.chan? with
      | some c => if c.panOn then some (c, r.writerSub) else none
      | none => none
    else none
  | none => none

/-- Attributes of a Bus due at a tick boundary come into force (R322). -/
def Chan.takeAttrs (j : Nat) (c : Chan) : Chan :=
  match c.attrNext with
  | some (i, p, l) => if i ≤ j then { c with panFollow := p, layout := l, attrNext := none } else c
  | none => c

/-- Policy fields set since the last tick boundary come into force (R73). -/
def Route.takePolicy (r : Route) : Route :=
  match r.next with
  | some (p, law, t) => { r with policy := p, law := law, t := t, next := none }
  | none => r

/-- What tick boundary `j` of a domain brings to its routes and Buses: new policy fields (R73), attributes due (R322), and the sources
the pan terms rest on, as launched before `j` (R187). -/
def State.bindTerms (s : State) (d j : Nat) : State :=
  { s with objs := s.objs.map fun o => if o.dom != d then o else
      (o.onChan (Chan.takeAttrs j)).onRoute fun r =>
        { r.takePolicy with bound := if j == 0 then r.source else (r.readingAt (j - 1)).1 } }

/-- The Buses fed by a column, with the channel fed: (Bus index, channel, Bus). -/
def fedBuses (s : State) (colRing : Nat) : List (Nat × Nat × Chan) :=
  (s.routes.filterMap fun p =>
    if (p.2.kind == 7 || p.2.kind == 8) && p.2.bound == colRing then
      (s.obj p.2.sink).bind fun o => o.chan?.map fun c => (o.idx, p.2.sub / 2, c)
    else none).inOrder fun a b => a.1 ≤ b.1

/-- The pan term of node (row, col) as the parameters stand, on the routes of the last tick boundary (R187). -/
def termOf (s : State) (h : Nat) (t : Tiles) (step row col : Nat) : Word :=
  let kind := if t.tier == 1 then 5 else 6
  match s.routeTo kind row h with
  | none => oneW
  | some (_, r) =>
    match pannerOf s r.bound with
    | none => oneW
    | some (c, k) =>
      let n := panOutputs (panVal c 0x0A00 (if c.width ≤ 2 then 1 else 0))
      match (fedBuses s (s.ringHandle (t.firstRing + step * col))).find? fun b => b.2.2.follows && b.2.2.width == n with
      | some b => panWord c k b.2.1 b.2.2.layout
      | none => oneW

/-! ## Node changes -/

def Tiles.node (t : Tiles) (row col : Nat) : Option Node := t.nodes.find? fun n => n.row == row && n.col == col

/-- A node no command has touched. -/
def Node.fresh (row col : Nat) (pan : Word) : Node :=
  { row := row, col := col, gain := minusInf, use := minusInf, pan := pan, ramp := GainRec.rest 0#32 }

def setNode (ns : List Node) (n : Node) : List Node :=
  n :: ns.filter fun x => !(x.row == n.row && x.col == n.col)

/-- The target of R179. -/
def nodeTarget (gain : Nat) (pan : Word) : Word := fMul (fGain gain) pan

/-- A node taking a gain and a term together, over `t` samples from the gain reached (R180, R181). -/
def Node.aim (n : Node) (gain : Nat) (pan : Word) (t : Nat) : Node :=
  { n with use := gain, pan := pan, ramp := GainRec.start (nodeTarget gain pan) n.ramp.value t }

/-- What moves the nodes of a tile set at sample `j`: the gain changes that have come (per node the last accepted) and, at the
nodes `panLen` names, new pan terms; both meeting at one node form one ramp of the longest T (R181). -/
def Tiles.moveNodes (t : Tiles) (term : Nat → Nat → Word) (j : Nat) (panLen : Nat → Nat → Option Nat) : Tiles :=
  let due := t.pend.filter fun c => c.s ≤ j
  let new := ((due.map fun c => (c.row, c.col)).eraseDups).filter fun p => !(t.nodes.any fun n => n.row == p.1 && n.col == p.2)
  let nodes := new.foldl (fun ns p => Node.fresh p.1 p.2 (term p.1 p.2) :: ns) t.nodes
  let move (n : Node) : Node :=
    let cs := (due.filter fun c => c.row == n.row && c.col == n.col).inOrder fun a b => a.order ≤ b.order
    let gain := (cs.getLast?.map (·.gain)).getD n.use
    let len := cs.foldl (fun m c => max m c.t) 0
    match panLen n.row n.col with
    | some l =>
      if term n.row n.col != n.pan then n.aim gain (term n.row n.col) (max l len)
      else if cs.isEmpty then n else n.aim gain n.pan len
    | none => if cs.isEmpty then n else n.aim gain n.pan len
  { t with nodes := nodes.map move, pend := t.pend.filter fun c => c.s > j }

/-- Every record of the set at its next sample. -/
def Tiles.tickAll (t : Tiles) : Tiles :=
  { t with nodes := t.nodes.map fun n => { n with ramp := n.ramp.tick },
           rowRecs := t.rowRecs.map fun r => { r with ramp := r.ramp.tick } }

/-- Set or start the factor of a row. -/
def Tiles.aimRow (t : Tiles) (row : Nat) (f : Word) (len : Nat) : Tiles :=
  let old := t.rowRec row
  if old.gainEnd == f then t
  else { t with rowRecs := { row := row, ramp := GainRec.start f old.value len } :: t.rowRecs.filter fun r => r.row != row }

/-- Column output samples of one index: rows' samples in, one word and a clip flag per column asked (R175, R176). -/
def colSum (t : Tiles) (x : Nat → Word) (col : Nat) : Word × Bool :=
  let ns := (t.nodes.filter fun n => n.col == col).inOrder fun a b => a.row ≤ b.row
  accWord (ns.foldl (fun acc n => accAdd acc (fMul (x n.row) (t.rowRec n.row).value) n.ramp.value) (0, 0))

/-- The changes a Group has for a domain at a tick boundary, applied (R186). -/
def Group.launch (g : Group) (d j : Nat) (domOf : Nat → Nat) : Group :=
  (g.pend.filter fun c => c.dom == d && c.s ≤ j).foldl (fun (g : Group) c =>
    match c.member with
    | none => { g with offsetUse := modAt g.offsetUse d fun _ => c.value }
    | some (h, first, n, isIn) =>
      if h == 0 then { g with members := g.members.filter fun m => domOf m.1 != d }
      else
        let rest := g.members.filter fun m => !(m.1 == h && first ≤ m.2 && m.2 < first + n)
        { g with members := if isIn then rest ++ (List.range n).map (fun i => (h, first + i)) else rest })
    { g with pend := g.pend.filter fun c => !(c.dom == d && c.s ≤ j) }

/-- The largest T among the due changes of a Group that meet a row. -/
def Group.lenFor (g : Group) (d j : Nat) (m : Nat × Nat) : Nat :=
  (g.pend.filter fun c => c.dom == d && c.s ≤ j && (match c.member with
    | some (h, first, n, _) => h == 0 || (h == m.1 && first ≤ m.2 && m.2 < first + n)
    | none => true)).foldl (fun k c => max k c.t) 0

/-- Domain of a tile set handle. -/
def State.domOf (s : State) (h : Nat) : Nat := ((s.obj h).map (·.dom)).getD 3

/-- Apply every Group change due in a domain, then start the ramp of each row whose factor changes (R186); `settle`
puts the factors in force without one. -/
def State.groupTick (s : State) (d j : Nat) (settle : Bool) : State :=
  let due := s.objs.filter fun o => match o.group? with | some g => g.pend.any fun c => c.dom == d && c.s ≤ j | none => false
  if due.isEmpty then s else
  let s1 : State := due.foldl (fun s o => s.upd o.handle fun x => x.onGroup fun g => g.launch d j s.domOf) s
  let touched := (s.objs ++ s1.objs).flatMap fun o => (o.group?.map (·.members)).getD []
  let rows := (touched.filter fun m => s1.domOf m.1 == d).eraseDups
  rows.foldl (fun s m =>
    let len := due.foldl (fun k o => max k ((o.group?.map fun g => g.lenFor d j m).getD 0)) 0
    s.upd m.1 fun x => x.onTiles fun t => t.aimRow m.2 (rowFactor s1 d m.1 m.2) (if settle then 0 else len)) s1

/-- Put every pan term of a domain's tile sets in force without a ramp. -/
def State.settlePans (s : State) (d : Nat) : State :=
  let s := s.bindTerms d 0
  { s with objs := s.objs.map fun o =>
      if o.dom == d then o.onTiles fun t => t.moveNodes (termOf s o.handle t (s.maxMult d)) 0 (fun _ _ => some 0) else o }

/-- The rows of a tile set that read an object's output rings. -/
def rowsReading (s : State) (h : Nat) (o : Obj) (t : Tiles) (row : Nat) : Bool :=
  match s.routeTo (if t.tier == 1 then 5 else 6) row o.handle with
  | some (_, r) => match (s.obj r.bound).bind Obj.ring? with
    | some g => g.writer == h && g.writerSub < 0x100
    | none => false
  | none => false

/-- BENCH_CLIP events (R177). -/
def State.clip (s : State) (o : Obj) : State :=
  let s := s.addCtr (ctrTiles o.idx) 1
  let t := s.tickOf o.dom
  match o.tiles? with
  | some ts =>
    if ts.lastClip.any (fun k => t < k + 1000) then s
    else (s.upd o.handle fun x => x.onTiles fun ts => { ts with lastClip := some t }).raiseObj o.desk 0x0502
      (le 4 o.handle ++ le 4 0 ++ le 8 (s.ctr (ctrTiles o.idx)))
  | none => s

end Sys2Proof.Machine
end

