-- ==== Sys2Proof/Machine/Channel.lean ====
section
/-! DEFINITION. The parameter tables, charges and structure of Strips and Buses (R123-R159), and their commands
(R322). -/
namespace Sys2Proof.Machine

/-! ## Tables -/

/-- Sidechain fields common to Gate and Compressor (R143). -/
def sideSpec : Nat → Option PSpec
  | 0x10 => some { lo := 0, hi := 1, dflt := 0, mode := .twin }
  | 0x11 => some { lo := 20000, hi := 2000000, also := [0], dflt := 0, mode := .twin }
  | 0x12 => some { lo := 1000000, hi := 20000000, also := [0], dflt := 0, mode := .twin }
  | _ => none

/-- The Sieve (R139). -/
def sieveSpec : Nat → Option PSpec
  | 0 => some { lo := 0, hi := 4, dflt := 0, mode := .twin }
  | 1 => some { lo := 10000, hi := 500000, dflt := 80000, mode := .twin }
  | 2 => some { lo := 0, hi := 1, dflt := 1, mode := .twin }
  | _ => none

/-- The Input block (R142). -/
def inputSpec (width : Nat) : Nat → Option PSpec
  | 0 => some { lo := -2400, hi := 2400, signed := true, dflt := 0, mode := .db }
  | 1 => some { lo := 0, hi := 2 ^ width - 1, dflt := 0, mode := .sign }
  | 2 => some { lo := 0, hi := 1, dflt := 1, mode := .twin }
  | 3 => some levelSpec
  | 4 => some { lo := 0, hi := 1, dflt := 0, mode := .mute }
  | _ => none

/-- The Gate (R143). -/
def gateSpec : Nat → Option PSpec
  | 0 => some { lo := 0, hi := 1, dflt := 0, mode := .twin }
  | 1 => some { lo := -8000, hi := 0, signed := true, dflt := code (-4000), mode := .twin }
  | 2 => some { lo := 0, hi := 9000, dflt := 6000, mode := .twin }
  | 3 => some { lo := 0x10000, hi := 0x140000, dflt := 0x20000, mode := .twin }
  | 4 => some { lo := 1, hi := 4800, dflt := 24, mode := .twin }
  | 5 => some { lo := 0, hi := 96000, dflt := 2400, mode := .twin }
  | 6 => some { lo := 48, hi := 480000, dflt := 4800, mode := .twin }
  | 7 => some { lo := 0, hi := 2000, dflt := 300, mode := .twin }
  | n => sideSpec n

/-- The Compressor (R144). -/
def compSpec : Nat → Option PSpec
  | 0 => some { lo := -6000, hi := 0, signed := true, dflt := code (-2000), mode := .twin }
  | 1 => some { lo := 0x10000, hi := 0x640000, also := [0xFFFFFFFF], dflt := 0x40000, mode := .twin }
  | 2 => some { lo := 0, hi := 2400, dflt := 600, mode := .twin }
  | 3 => some { lo := 1, hi := 4800, dflt := 240, mode := .twin }
  | 4 => some { lo := 48, hi := 480000, dflt := 4800, mode := .twin }
  | 5 => some { lo := 0, hi := 1, dflt := 1, mode := .twin }
  | 6 => some { lo := 0, hi := 2400, dflt := 0, mode := .db }
  | 7 => some { lo := 0, hi := 0x10000, dflt := 0x10000, mode := .lin }
  | n => sideSpec n

/-- One EQ band's field (R146). -/
def eqSpec (n : Nat) : Option PSpec :=
  let band := n / 16
  if band > 7 then none else
  match n % 16 with
  | 0 => some { lo := 0, hi := 8, dflt := if band == 0 then 2 else if band == 7 then 3 else 1, mode := .twin }
  | 1 => some { lo := 20000, hi := 20000000, dflt := 100000 * 2 ^ band, mode := .twin }
  | 2 => some { lo := -2400, hi := 2400, signed := true, dflt := 0, mode := .twin }
  | 3 => some { lo := 0x199A, hi := 0x280000, dflt := 0x10000, mode := .twin }
  | _ => none

/-- The De-esser (R148). -/
def deessSpec : Nat → Option PSpec
  | 0 => some { lo := 2000000, hi := 16000000, dflt := 6500000, mode := .twin }
  | 1 => some { lo := -6000, hi := 0, signed := true, dflt := code (-3000), mode := .twin }
  | 2 => some { lo := 0, hi := 2400, dflt := 1200, mode := .twin }
  | 3 => some { lo := 0, hi := 1, dflt := 0, mode := .twin }
  | _ => none

/-- The limiter (R149). -/
def limitSpec : Nat → Option PSpec
  | 0 => some { lo := 0, hi := 1, dflt := 1, mode := .twin0 }
  | 1 => some { lo := -2400, hi := 0, signed := true, dflt := code (-100), mode := .twin }
  | 2 => some { lo := 48, hi := 96000, dflt := 2400, mode := .twin }
  | _ => none

/-- The Delay (R151) with its present DELAY_MAX. -/
def delaySpec (m max : Nat) : Nat → Option PSpec
  | 0 => some { lo := 0, hi := max, dflt := 0, mode := .twin0 }
  | 1 => some { lo := 0, hi := 480000 * m, dflt := 96000 * m, mode := .stored }
  | _ => none

/-- The Insert (R153). -/
def insertSpec : Nat → Option PSpec
  | 0 => some { lo := 0, hi := 1, dflt := 0, mode := .twin0 }
  | 1 => some { lo := -2400, hi := 2400, signed := true, dflt := 0, mode := .db }
  | 2 => some { lo := -2400, hi := 2400, signed := true, dflt := 0, mode := .db }
  | 3 => some { lo := 0, hi := 4096, dflt := 8, mode := .twin0 }
  | _ => none

/-- The Panner (R155). -/
def panSpec (width : Nat) : Nat → Option PSpec
  | 0 => some { lo := 0, hi := 5, dflt := if width ≤ 2 then 1 else 0, mode := .pan }
  | 1 => some { lo := -65536, hi := 65536, signed := true, dflt := 0, mode := .pan }
  | 2 => some { lo := -65536, hi := 65536, signed := true, dflt := 65536, mode := .pan }
  | 3 => some { lo := 0, hi := 65536, dflt := 0, mode := .pan }
  | 4 => some { lo := 0, hi := 65536, dflt := 65536, mode := .pan }
  | 5 => some { lo := 0, hi := 2, dflt := 0, mode := .pan }
  | 6 => some { lo := -9600, hi := 0, also := [minusInf], signed := true, dflt := minusInf, mode := .pan }
  | _ => none

/-- A direct-output tap (R159); points 0 and 1 are for Strips alone (R128). -/
def tapSpec (strip : Bool) (n : Nat) : Option PSpec :=
  if n / 16 > 3 then none else
  match n % 16 with
  | 0 => some { lo := if strip then 0 else 2, hi := 12, dflt := 2, mode := .twin0 }
  | 1 => some levelSpec
  | _ => none

/-- The structure block (R159). -/
def structSpec : Nat → Option PSpec
  | 0 => some { lo := 0, hi := 0xFFF, dflt := 0, mode := .enable }
  | 1 => some { lo := 0, hi := 3, dflt := 0, mode := .object }
  | 2 => some { lo := 0, hi := 3, dflt := 2, mode := .object }
  | 3 => some { lo := 0, hi := 1, dflt := 1, mode := .object }
  | _ => none

/-- DELAY_MAX in force for an object. -/
def Chan.delayMax (c : Chan) (m : Nat) : Nat := (valOf c.vals 0x0801 (96000 * m) .stored).written

/-- The parameter table of a Strip or Bus (R131). -/
def chanSpec (c : Chan) (m : Nat) (id : Nat) : Option PSpec :=
  let strip := c.role == 0
  match id / 256 with
  | 0 => structSpec (id % 256)
  | 1 => if strip then sieveSpec (id % 256) else none
  | 2 => inputSpec c.width (id % 256)
  | 3 => gateSpec (id % 256)
  | 4 => compSpec (id % 256)
  | 5 => eqSpec (id % 256)
  | 6 => deessSpec (id % 256)
  | 7 => limitSpec (id % 256)
  | 8 => delaySpec m (c.delayMax m) (id % 256)
  | 9 => insertSpec (id % 256)
  | 10 => if c.role ≥ 2 then none else panSpec c.width (id % 256)
  | 11 => tapSpec strip (id % 256)
  | _ => none

/-! ## Structure and charges (R125, R137) -/

/-- The block page an ENABLE bit switches. -/
def bitPage : Nat → Nat
  | 0 => 3
  | 1 => 4
  | 2 => 5
  | 3 => 6
  | 4 => 7
  | 5 => 8
  | 6 => 9
  | 7 => 10
  | _ => 11

/-- Pages 3 to 10 as ENABLE bits; a page without its own bit is 31. -/
def pageBit : Nat → Nat
  | 3 => 0
  | 4 => 1
  | 5 => 2
  | 6 => 3
  | 7 => 4
  | 8 => 5
  | 9 => 6
  | 10 => 7
  | _ => 31

/-- Cycle bound of an ENABLE bit's block in a Strip (R137). -/
def bitCycles : Nat → Nat
  | 0 => 96
  | 1 => 128
  | 2 => 288
  | 3 => 96
  | 4 => 192
  | 5 => 48
  | 6 => 32
  | 7 => 48
  | _ => 16

/-- The charge of R98 in 1/64 WU for a cycle bound. -/
def chargeOf (cycles m : Nat) : Nat := ceilDiv (cycles * m) 16

/-- Charge of one ENABLE bit for a whole object. -/
def bitCharge (c : Chan) (m b : Nat) : Nat := c.width * chargeOf (bitCycles b * (if c.role == 0 then 1 else 2)) m

def maskBits (mask : Nat) : List Nat := (List.range 12).filter fun i => bit mask i

/-- Charge of an object of an ENABLE mask: Input and the enabled blocks. -/
def maskCharge (c : Chan) (m mask : Nat) : Nat :=
  c.width * chargeOf (32 * (if c.role == 0 then 1 else 2)) m + sumNat ((maskBits mask).map (bitCharge c m))

/-- A Delay line lies in the DRAM region: its samples there (R151). -/
def delayTake (c : Chan) (m : Nat) : Nat := if c.delayMax m > 64 * m then c.width * c.delayMax m else 0

/-- Samples of the delay region in use. -/
def State.delayUsed (s : State) : Nat :=
  sumNat (s.objs.map fun o => match o.chan? with
    | some c => if bit c.enable 5 || bit c.enableUse 5 then delayTake c (s.heldMult o.dom) else 0
    | none => 0)

/-- Sieve instances in use (R20). -/
def State.sieveUsed (s : State) : Nat :=
  sumNat (s.objs.map fun o => match o.chan? with
    | some c => if c.role == 0 then c.width * s.heldMult o.dom else 0
    | none => 0)

/-- Channels of Buses of a stage: MIX, or MASTER and MATRIX together (R124). -/
def State.busChannels (s : State) (mix : Bool) : Nat :=
  sumNat (s.objs.map fun o => match o.chan? with
    | some c => if c.role != 0 && (c.role == 1) == mix then c.width else 0
    | none => 0)

/-- A Block instance of a page inside an object, or the standalone frame of one. -/
def Block.hosted (host page core : Nat) : Block :=
  { host := host, page := page, package := 0, typ := 0, position := 0, core := core, localBytes := 0, overTicks := [],
    bypass := false, removed := false, chIn := 0, chOut := 0, firstRing := 0, vals := [], pend := [], twins := [],
    retire := none }

/-- Give the host a Block handle for a page (R125). -/
def State.addBlock (s : State) (o : Obj) (page core charge : Nat) : Except Err State :=
  match (s.tab tBlock).pick 1 1 0 131072 with
  | none => .error { status := eNoResource }
  | some i =>
    let s := s.addObj { ty := tBlock, idx := i, gen := 1, desk := o.desk, cls := o.cls, dom := o.dom, freeing := false,
                        job := none, staged := 0, charge := charge, safe := 0, epoch := s.epoch,
                        kind := .block (Block.hosted o.handle page core) }
    .ok (s.upd o.handle fun x => x.onChan fun c =>
      { c with blocks := (page, i) :: c.blocks.filter fun b => b.1 != page })

/-- Retire the instance of a page: handles of the page marked freeing go, with their charge (R125). -/
def State.retireBlocks (s : State) (h page : Nat) : State :=
  let gone := s.objs.filter fun o => match o.block? with | some b => b.host == h && b.page == page && o.freeing | none => false
  gone.foldl (fun s o =>
    let s := s.dropObj tBlock o.idx
    s.upd h fun x => x.onChan fun c => { c with blocks := c.blocks.filter fun b => b.2 != o.idx }) s

/-- Pages of a mask that carry an instance. -/
def maskPages (mask : Nat) : List Nat := ((maskBits mask).map bitPage).eraseDups

/-- Blocks of the pages newly enabled. -/
def addPages (o : Obj) (c : Chan) (m core : Nat) (mask : Nat) : List Nat → State → Except Err State
  | [], s => .ok s
  | p :: ps, s => do
    let charge := sumNat (((maskBits mask).filter fun b => bitPage b == p).map (bitCharge c m))
    let s ← s.addBlock o p core charge
    addPages o c m core mask ps s

/-- Rings of taps (by number) and then of the Insert send, allocated where first needed (R153, R159). -/
def State.addTapRings (s : State) (o : Obj) (width : Nat) : List Nat → Except Err State
  | [] => .ok s
  | b :: bs => do
    let c := o.chan?
    let need? := match c with
      | some c => if b == 6 then c.sendRing == 0 && !(c.tapRings.any fun p => p.1 == 100) else !(c.tapRings.any fun p => p.1 == b)
      | none => false
    if !need? then s.addTapRings o width bs
    else
      let kind := if o.ty == tStrip then 4 else 6
      let (i, s) ← allocRings s o.desk o.cls o.dom width 0 o.handle kind (if b == 6 then 0x200 else 0x100 + 16 * (b - 8))
      let s := s.upd o.handle fun x => x.onChan fun c =>
        if b == 6 then { c with sendRing := i, tapRings := c.tapRings ++ [(100, i)] }
        else { c with tapRings := c.tapRings ++ [(b, i)] }
      s.addTapRings o width bs

/-- ENABLE bits that need rings, in the order they are taken: taps, then the Insert. -/
def ringBits (mask : Nat) : List Nat := ((maskBits mask).filter fun b => b ≥ 8) ++ (if bit mask 6 then [6] else [])

/-- The frame of a new object. -/
def Chan.new (role width enable panFollow core : Nat) : Chan :=
  { role := role, width := width, enable := enable, enableUse := enable, vals := [], pend := [], twins := [],
    chans := List.replicate width { x1 := 0, y1 := 0, sx1 := 0, sy1 := 0, line := [], look := [], dry := [], line2 := [], look2 := [], dry2 := [], points := [] },
    outRing := 0, sendRing := 0, tapRings := [], blocks := [], core := core, panFollow := panFollow,
    layout := [], attrNext := none, panOn := bit enable 7, cough := GainRec.unity }

/-! ## Allocation -/

/-- Allocate a Strip (role 0) or a Bus, placed by R105 or by consolidation (R106). -/
def allocChan (op role o0 enableAt panFollow : Nat) : Body := fun s f => do
  let d ← domainAt f 0
  let width := u8 f 1
  need (1 ≤ width && width ≤ 16) eRange 1
  let cls ← classOf s f 2
  let mask := u32 f enableAt
  need (mask ≤ 0xFFF) eRange enableAt
  if o0 == 3 then reserved f 3 1
  need (!(role ≥ 2 && bit mask 7)) eState enableAt
  classPermitted s f.desk cls 2
  allocatable s d
  let m := s.mult d
  let c := Chan.new role width mask panFollow 0
  let w := maskCharge c m mask
  let ty := if role == 0 then tStrip else tBus
  within s f.desk (if role == 0 then 1 else 2) width
  within s f.desk 8 w
  let rings := width * (1 + (ringBits mask).length)
  within s f.desk 4 (rings * m)
  if role == 0 then need (s.sieveUsed + width * m ≤ 4096) eNoResource
  else need (s.busChannels (role == 1) + width ≤ 512) eNoResource
  if bit mask 5 then need (s.delayUsed + delayTake c m ≤ 1073741824) eNoResource
  let nd : Need := { w := w, rd := (if role == 0 then width else 2 * width) * m, wr := rings * m }
  let pk := place s d nd
  let plan := if pk.isNone then consolidate s d nd else none
  need (pk.isSome || plan.isSome) eNoResource
  need (pk.isSome || deferredOk f) eBusy
  if pk.isNone then mayDefer s f
  let core := match pk, plan with
    | some p, _ => p.1
    | none, some q => q.1
    | none, none => 0
  match (s.tab ty).pick 1 1 0 (2 ^ 20) with
  | none => .error { status := eNoResource }
  | some i =>
    let s := (s.addObj { ty := ty, idx := i, gen := 1, desk := f.desk, cls := cls, dom := d, freeing := false, job := none,
                         staged := 0, charge := w, safe := 0, epoch := s.epoch,
                         kind := .chan { c with core := core } }).useCore core d
    match s.objAt ty i with
    | none => .error { status := eNoResource }
    | some o =>
      let (r, s) ← allocRings s f.desk cls d width 0 o.handle (if role == 0 then 4 else 6) 0
      let s := s.upd o.handle fun x => x.onChan fun c => { c with outRing := r }
      let s ← s.addTapRings o width (ringBits mask)
      let s ← s.addBlock o 2 core (c.width * chargeOf (32 * (if role == 0 then 1 else 2)) m)
      let s ← addPages o c m core mask (maskPages mask) s
      let s := s.overCeiling f.desk o.handle core (match pk with | some p => p.2 | none => false)
      let resp := le 4 o.handle ++ le 4 (s.ringHandle r)
      match pk, plan with
      | none, some q =>
        let s := (s.defer f op o.handle none 1 core).upd o.handle fun x => { x with job := some (f.desk, f.seq) }
        accResp (s.startMoves d core q.2) resp
      | _, _ => okResp s resp

def opStripAlloc : RuziaOp := ⟨0x0301, .change, false, len 8, allocChan 0x0301 0 3 4 0xFF⟩

/-- `strip.alloc`. -/
def execStripAlloc (f : CmdFrame) (s : State) : Host.Outcome State Fault Refusal :=
  ruzia opStripAlloc f s

def busAllocBody : Body := fun s f => do
  need (u8 f 3 ≤ 2) eRange 3
  need (u8 f 8 ≤ 1 || u8 f 8 == 0xFF) eRange 8
  reserved f 9 3
  allocChan 0x0401 (u8 f 3 + 1) 0 4 (u8 f 8) s f

def opBusAlloc : RuziaOp := ⟨0x0401, .change, false, len 12, busAllocBody⟩

/-- `bus.alloc`. -/
def execBusAlloc (f : CmdFrame) (s : State) : Host.Outcome State Fault Refusal :=
  ruzia opBusAlloc f s

/-! ## Info and free -/

def chanInfoBody (ty : Nat) : Body := fun s f => do
  let o ← resolve s [ty] (u32 f 0) 0
  match o.chan? with
  | none => .error { status := eHandle, field := 0, handle := o.handle }
  | some c =>
    let pages := (List.range 10).flatMap fun i =>
      match c.blocks.find? fun b => b.1 == i + 2 with
      | some b => le 4 (((s.objAt tBlock b.2).map Obj.handle).getD 0)
      | none => le 4 0
    okResp s (o.prefixBytes s ++ le 1 c.width ++ le 1 (c.role - 1) ++ le 1 (if c.role == 0 then 0 else if c.follows then 1 else 0) ++ le 1 0 ++
      le 4 c.enable ++ le 4 (s.ringHandle c.outRing) ++ pages)

def opStripInfo : RuziaOp := ⟨0x0300, .read, false, len 4, chanInfoBody tStrip⟩

/-- `strip.info`. -/
def execStripInfo (f : CmdFrame) (s : State) : Host.Outcome State Fault Refusal :=
  ruzia opStripInfo f s

def opBusInfo : RuziaOp := ⟨0x0400, .read, false, len 4, chanInfoBody tBus⟩

/-- `bus.info`. -/
def execBusInfo (f : CmdFrame) (s : State) : Host.Outcome State Fault Refusal :=
  ruzia opBusInfo f s

def anyFree (_s : State) (_o : Obj) : Except Err Unit := .ok ()

def noBefore (_o : Obj) (s : State) : State := s

def opStripFree : RuziaOp := ⟨0x0302, .change, false, len 8, freeBody [tStrip] anyFree noBefore⟩

/-- `strip.free`. -/
def execStripFree (f : CmdFrame) (s : State) : Host.Outcome State Fault Refusal :=
  ruzia opStripFree f s

def opBusFree : RuziaOp := ⟨0x0402, .change, false, len 8, freeBody [tBus] anyFree noBefore⟩

/-- `bus.free`. -/
def execBusFree (f : CmdFrame) (s : State) : Host.Outcome State Fault Refusal :=
  ruzia opBusFree f s

/-! ## Parameter writes (R132-R135, R159, R317) -/

/-- Is the block of an identifier enabled, by the accepted mask. -/
def Chan.pageOn (c : Chan) (id : Nat) : Bool :=
  match id / 256 with
  | 11 => bit c.enable (8 + id % 256 / 16)
  | p => if pageBit p == 31 then true else bit c.enable (pageBit p)

/-- One page's share of a write: the values its TWIN takes and whether it warms up. -/
structure PageReq where
  page : Nat
  vals : List (Nat × Nat)
  warm : Bool
  deriving DecidableEq, Repr

/-- Identifier under which an ENABLE bit's switch travels in a TWIN. -/
def enableId (b : Nat) : Nat := 0x10000 + b

/-- The TWIN parts of a write, by page: parameters of TWIN modes, and the ENABLE bits that change (R159). -/
def pageReqs (c : Chan) (m : Nat) (recs : List (Nat × Nat)) : List PageReq :=
  let ps := recs.flatMap fun r =>
    match chanSpec c m r.1 with
    | none => []
    | some p => match p.mode with
      | .twin => if c.pageOn r.1 then [({ page := r.1 / 256, vals := [r], warm := true } : PageReq)] else []
      | .twin0 => if c.pageOn r.1 then [{ page := r.1 / 256, vals := [r], warm := false }] else []
      | .object => [{ page := 0, vals := [r], warm := true }]
      | .enable => ((List.range 12).filter fun b => bit r.2 b != bit c.enable b).map fun b =>
          { page := bitPage b, vals := [(enableId b, if bit r.2 b then 1 else 0)], warm := b ≤ 4 }
      | _ => []
  ((ps.map (·.page)).eraseDups).map fun g =>
    let q := ps.filter fun p => p.page == g
    { page := g, vals := q.flatMap (·.vals), warm := q.any (·.warm) }

/-- Charge of a page's twin instance: the block's, the whole object's for page 0, none in hardware or for an enable. -/
def twinCharge (o : Obj) (c : Chan) (m : Nat) (q : PageReq) : Nat :=
  if !q.warm || q.page == 1 || q.vals.any (fun v => v.1 ≥ 0x10000) then 0
  else if q.page == 0 then o.charge
  else if q.page == 2 then c.width * chargeOf (32 * (if c.role == 0 then 1 else 2)) m
  else bitCharge c m (pageBit q.page)

/-- The Block handle PARAM_DEFERRED carries: the object's own for the Sieve and an Object TWIN (R135). -/
def deferHandle (s : State) (o : Obj) (c : Chan) (page : Nat) : Nat :=
  if page ≤ 1 then o.handle
  else match c.blocks.find? fun b => b.1 == page with
    | some b => ((s.objAt tBlock b.2).map Obj.handle).getD o.handle
    | none => o.handle

/-- More values for a staged TWIN. -/
def Twin.join (t : Twin) (vals : List (Nat × Nat)) (warm : Nat) : Twin :=
  { t with vals := vals ++ t.vals.filter (fun v => !(vals.any fun u => u.1 == v.1)), w := max t.w warm }

/-- A TWIN that applies at once, for a domain that processes nothing. -/
def Twin.atOnce (page : Nat) (vals : List (Nat × Nat)) : Twin :=
  { page := page, order := 0, desk := 0, seq := 0, s := 0, w := 0, t := 0, law := 0, vals := vals, charge := 0, recallOf := 0 }

/-- Stage one page's TWIN: merged with one of the same launch, or deferred past those in its way (R135). -/
def stageTwin (f : CmdFrame) (o : Obj) (x : Timing3) (w : When) (recallOf : Nat) (q : PageReq) (s : State) : Except Err State :=
  match s.obj o.handle with
  | none => .ok s
  | some o =>
    match o.chan? with
    | none => .ok s
    | some c =>
      let m := s.mult o.dom
      let now := s.idx o.dom
      let warm := if q.warm then x.w else 0
      if c.twins.any (joins now q.page w.s) then
        .ok (s.upd o.handle fun y => y.onChan fun c =>
          { c with twins := c.twins.map fun t => if joins now q.page w.s t then t.join q.vals warm else t })
      else
        let at' := deferTwin (c.twins.filter fun t => t.page == q.page) warm x.t 16 w.s
        let charge := twinCharge o c m q
        if charge > 0 && !(twinFits s c.core charge (spanFirst at' warm) (at' + x.t)) then
          .error { status := eNoResource, handle := o.handle }
        else
          let (n, s) := s.stamp
          let s := if at' != w.s then
              s.raiseObj o.desk 0x1107 (le 4 (deferHandle s o c q.page) ++ le 4 0 ++ le 8 w.index ++ le 8 (at' % farMark))
            else s
          let t : Twin := { page := q.page, order := n, desk := f.desk, seq := f.seq, s := at', w := warm, t := x.t,
                            law := x.law, vals := q.vals, charge := charge, recallOf := recallOf }
          .ok (s.upd o.handle fun y => y.onChan fun c => { c with twins := c.twins ++ [t] })

/-- End a TWIN: its values come into force, and blocks it disables retire with their charge (R125, R159, R200). -/
def State.commitTwin (s : State) (h : Nat) (t : Twin) : State :=
  match s.obj h with
  | none => s
  | some o =>
    match o.chan? with
    | none => s
    | some c =>
      let m := s.mult o.dom
      let off := (t.vals.filter fun v => v.1 ≥ 0x10000 && v.2 == 0).map fun v => v.1 - 0x10000
      let on := (t.vals.filter fun v => v.1 ≥ 0x10000 && v.2 == 1).map fun v => v.1 - 0x10000
      let mask := on.foldl setBit (off.foldl clearBit c.enableUse)
      let vals := (t.vals.filter fun v => v.1 < 0x10000).foldl (fun vs v =>
        match chanSpec c m v.1 with
        | some p => setVal vs { valOf vs v.1 p.dflt p.mode with use := v.2 }
        | none => vs) c.vals
      let freed := sumNat (off.map (bitCharge c m))
      let s := s.upd h fun x => { (x.onChan fun c => { c with
          vals := vals, enableUse := mask, panOn := bit mask 7, twins := c.twins.filter fun u => u.order != t.order }) with charge := x.charge - freed }
      let pages := (off.map bitPage).eraseDups
      let s := pages.foldl (fun s p => if p == 11 && bits mask 11 8 != 0 then s else s.retireBlocks h p) s
      if freed > 0 then s.releaseCores.clearQuota o.desk else s

/-- Room on the object's own core for newly enabled blocks: within the ceiling, above it, or by consolidation (R159). -/
def enableRoom (s : State) (o : Obj) (c : Chan) (add bytes : Nat) : Option (Bool × List (Nat × Nat)) :=
  if totalCharge s + add > wuLimit s then none
  else if coreFits s c.core { w := add, bytes := bytes } s.ceiling then some (false, [])
  else if s.red.mode == 0 && coreFits s c.core { w := add, bytes := bytes } 160 then some (true, [])
  else (planMoves o.dom c.core { w := add, bytes := bytes } (roomLimit s) o.handle (objsOnCore s c.core) s []).map fun p => (false, p)

/-- Take the blocks a mask newly enables: rings, handles, charge; and let those it disables go at `i`. -/
def switchMask (o : Obj) (c : Chan) (mask i : Nat) (s : State) : Except Err State := do
  let m := s.mult o.dom
  let onBits := (maskBits mask).filter fun b => !(bit c.enable b)
  let offBits := (maskBits c.enable).filter fun b => !(bit mask b)
  let onPages := ((onBits.map bitPage).eraseDups).filter fun p => !(p == 11 && bits c.enable 11 8 != 0)
  let offPages := ((offBits.map bitPage).eraseDups).filter fun p => !(p == 11 && bits mask 11 8 != 0)
  let s ← s.addTapRings o c.width ((ringBits mask).filter fun b => onBits.contains b)
  let dying := s.objs.filter fun x => match x.block? with
    | some b => b.host == o.handle && offPages.contains b.page && !x.freeing
    | none => false
  let s := dying.foldl (fun s x =>
    (s.upd x.handle fun y => { y with freeing := true }).deleteRoutes false (some i) fun p => p.2.sink == x.handle) s
  let s := s.upd o.handle fun x => { (x.onChan fun c => { c with
    enable := mask, blocks := c.blocks.filter fun b => !(offPages.contains b.1) }) with
      charge := x.charge + sumNat (onBits.map (bitCharge c m)) }
  addPages o c m c.core mask onPages s

/-- Per-channel factor records of POLARITY are kept under their own identifiers. -/
def signId (k : Nat) : Nat := 0x20000 + k

/-- Store a value without a Kerf. -/
def putVal (c : Chan) (m : Nat) (r : Nat × Nat) : Chan :=
  match chanSpec c m r.1 with
  | some p =>
    let vs := if p.mode == .sign then (List.range c.width).foldl (fun vs k =>
        setVal vs (PVal.rest (signId k) (if bit r.2 k then 1 else 0) .sign)) c.vals else c.vals
    { c with vals := setVal vs (PVal.rest r.1 r.2 p.mode) }
  | none => c

/-- Launch one value of a Strip or Bus: POLARITY ramps each channel's sign factor (R142). -/
def launchChanVal (c : Chan) (m : Nat) (h : PChange) (vs : List PVal) : List PVal :=
  match chanSpec c m h.id with
  | none => vs
  | some p =>
    let old := valOf vs h.id p.dflt p.mode
    if p.mode == .sign then
      let vs := setVal vs { old with use := h.value }
      (List.range c.width).foldl (fun vs k =>
        let b := if bit h.value k then 1 else 0
        let v := valOf vs (signId k) 0 .sign
        if v.use == b then vs else setVal vs (v.launch .sign b h.t)) vs
    else setVal vs (old.launch p.mode h.value h.t)

/-- Launch every ramp of an object that has come by sample `j`. -/
def launchChan (m j : Nat) : List PChange → Chan → Chan
  | [], c => { c with pend := [] }
  | h :: hs, c => if h.s ≤ j then launchChan m j hs { c with vals := launchChanVal c m h c.vals } else { c with pend := h :: hs }

/-- A parameter write on a Strip or Bus. -/
def chanWrite : ParamWrite := fun s f o recs0 => do
  match o.chan? with
  | none => .error { status := eHandle, field := 0, handle := o.handle }
  | some c =>
    let m := s.mult o.dom
    let recs := lastRecords recs0
    let newMax := (recs.find? fun r => r.1 == 0x0801).map (·.2)
    let spec (id : Nat) : Option PSpec := if id == 0x0800 then delaySpec m (newMax.getD (c.delayMax m)) 0 else chanSpec c m id
    checkRecords spec o.handle 0 recs0
    let x ← timing3 f
    let maskRec := (recs.find? fun r => r.1 == 0).map (·.2)
    let reqs := pageReqs c m recs
    need (!(x.law != 0 && reqs.any fun q => q.page == 7)) eRange 28
    need (!(x.t > 65535 && recs.any fun r => r.1 / 256 == 10)) eRange 20
    let l ← launchAt s f 4
    settled o
    needRecord (newMax.isNone || !(bit c.enable 5)) recs0 0x0801 o.handle
    needRecord ((recs.find? fun r => r.1 == 0x0A00).all fun r => match r.2 with
      | 0 => true
      | 1 => c.width ≤ 2
      | _ => c.width == 1) recs0 0x0A00 o.handle
    needRecord (!(c.role ≥ 2 && maskRec.any fun v => bit v 7)) recs0 0 o.handle
    let warm := if reqs.any (·.warm) then x.w else 0
    let w ← schedule s l o.dom warm false 4
    let mask := maskRec.getD c.enable
    let onBits := (maskBits mask).filter fun b => !(bit c.enable b)
    let add := sumNat (onBits.map (bitCharge c m))
    within s o.desk 8 add
    if bit mask 5 && !(bit c.enable 5 || bit c.enableUse 5) then
      need (s.delayUsed + (let c := (recs.foldl (fun c r => putVal c m r) c); delayTake c m) ≤ 1073741824) eNoResource
    let room := enableRoom s o c add 0
    need (add == 0 || room.isSome) eNoResource 0 o.handle
    let moves := if add == 0 then [] else ((room.map (·.2)).getD [])
    need (moves.isEmpty || deferredOk f) eBusy 0 o.handle
    if !moves.isEmpty then mayDefer s f
    let s ← switchMask o c mask w.s s
    let s ← reqs.foldlM (fun s q => if w.now then .ok s else stageTwin f o x w 0 q s) s
    lateCheck f w
    let (n, s) := s.stamp
    let s := s.upd o.handle fun y => y.onChan fun c1 =>
      recs.foldl (fun c2 r =>
        match spec r.1 with
        | none => c2
        | some p =>
          let old := valOf c2.vals r.1 p.dflt p.mode
          if p.mode == .enable then c2
          else if p.mode == .stored || w.now || !(c.pageOn r.1) then putVal c2 m r
          else
            let c2 := { c2 with vals := setVal c2.vals { old with written := r.2 } }
            match p.mode with
            | .twin => c2
            | .twin0 => c2
            | .object => c2
            | _ => { c2 with pend := insertP { order := n, desk := f.desk, seq := f.seq, s := w.s, tick := w.tick, id := r.1,
                                               value := r.2, t := x.t, recallOf := 0 } c2.pend }) c1
    let s := if w.now then reqs.foldl (fun s q => s.commitTwin o.handle (Twin.atOnce q.page q.vals)) s else s
    let s := s.overCeiling o.desk o.handle c.core (add > 0 && ((room.map (·.1)).getD false))
    let s := if moves.isEmpty then s else
      (s.defer f (if o.ty == tStrip then 0x0303 else 0x0403) o.handle none 1 c.core).startMoves o.dom c.core moves
    .ok (w, s.slipEvent f (if o.ty == tStrip then 0x0303 else 0x0403) 1 w)

def opStripParamSet : RuziaOp := ⟨0x0303, .change, false, paramLen, paramSetBody 0x0303 [tStrip] chanWrite⟩

/-- `strip.param.set`. -/
def execStripParamSet (f : CmdFrame) (s : State) : Host.Outcome State Fault Refusal :=
  ruzia opStripParamSet f s

def opBusParamSet : RuziaOp := ⟨0x0403, .change, false, paramLen, paramSetBody 0x0403 [tBus] chanWrite⟩

/-- `bus.param.set`. -/
def execBusParamSet (f : CmdFrame) (s : State) : Host.Outcome State Fault Refusal :=
  ruzia opBusParamSet f s

/-- A present value of a Strip or Bus for a read: ENABLE's masks, and an EQ FREQ clamped to 0.45 fs (R146). -/
def chanUse (s : State) (o : Obj) (id : Nat) (p : PSpec) : Nat × State :=
  match o.chan? with
  | none => (0, s)
  | some c =>
    if id == 0 then (c.enableUse, s)
    else if id / 256 == 5 && id % 16 == 1 then (min (valOf c.vals id p.dflt p.mode).use (s.fs o.dom * 450), s)
    else plainUse s o id p

def chanGetSpec (s : State) (o : Obj) (id : Nat) : Option PSpec :=
  match o.chan? with
  | some c => if id == 0 then some { lo := 0, hi := 0xFFF, dflt := c.enable, mode := .enable } else chanSpec c (s.mult o.dom) id
  | none => none

def opStripParamGet : RuziaOp := ⟨0x0304, .read, false, getLen, paramGetBody [tStrip] chanGetSpec chanUse⟩

/-- `strip.param.get`. -/
def execStripParamGet (f : CmdFrame) (s : State) : Host.Outcome State Fault Refusal :=
  ruzia opStripParamGet f s

def opBusParamGet : RuziaOp := ⟨0x0404, .read, false, getLen, paramGetBody [tBus] chanGetSpec chanUse⟩

/-- `bus.param.get`. -/
def execBusParamGet (f : CmdFrame) (s : State) : Host.Outcome State Fault Refusal :=
  ruzia opBusParamGet f s

/-! ## Bus attributes -/

/-- PAN_FOLLOW and layout of a Bus are to change at the next tick boundary of its domain (R322). -/
def State.setAttrs (s : State) (o : Obj) (f : Nat × List (Nat × Nat) → Nat × List (Nat × Nat)) : State :=
  let at' := if (s.dom o.dom).runs then (s.idx o.dom / s.tickLen o.dom + 1) * s.tickLen o.dom else 0
  s.upd o.handle fun x => x.onChan fun c =>
    let v := f ((c.attrNext.map (·.2)).getD (c.panFollow, c.layout))
    Chan.takeAttrs 0 { c with attrNext := some (at', v) }

def busAttrBody : Body := fun s f => do
  let o ← resolve s [tBus] (u32 f 0) 0
  owned f o.desk o.handle
  need (u8 f 4 ≤ 1 || u8 f 4 == 0xFF) eRange 4
  reserved f 5 3
  settled o
  okResp (s.setAttrs o fun v => (u8 f 4, v.2))

def opBusAttrSet : RuziaOp := ⟨0x0405, .change, false, len 8, busAttrBody⟩

/-- `bus.attr.set`: the tick boundary that follows finds the attribute, and the terms it changes ramp over 480 samples. -/
def execBusAttrSet (f : CmdFrame) (s : State) : Host.Outcome State Fault Refusal :=
  ruzia opBusAttrSet f s

def busLayoutBody : Body := fun s f => do
  let o ← resolve s [tBus] (u32 f 0) 0
  owned f o.desk o.handle
  let ps ← eachItem (fun i => do
    let a := u16 f (4 + 4 * i)
    let e := u16 f (6 + 4 * i)
    need (-18000 ≤ s16 a && s16 a ≤ 18000) eRange (4 + 4 * i)
    need (e ≤ 9000) eRange (6 + 4 * i)
    .ok (a, e)) 16 0
  settled o
  need ((o.chan?.map (·.width)).getD 0 == 16) eState 0 o.handle
  okResp (s.setAttrs o fun v => (v.1, ps))

def opBusLayout : RuziaOp := ⟨0x0406, .change, false, len 68, busLayoutBody⟩

/-- `bus.layout`. -/
def execBusLayout (f : CmdFrame) (s : State) : Host.Outcome State Fault Refusal :=
  ruzia opBusLayout f s

end Sys2Proof.Machine
end

