-- ==== Sys2Proof/Machine/NodeGroup.lean ====
section
/-! DEFINITION. The node family (R165-R183, R323) and the group family (R184-R186). -/
namespace Sys2Proof.Machine

/-! ## Tile sets -/

def tilesInfoBody : Body := fun s f => do
  let o ← resolve s [tBlock] (u32 f 0) 0
  match o.tiles? with
  | none => .error { status := eHandle, field := 0, handle := o.handle }
  | some t =>
    let mask := (t.tiles.map fun a => s.faults.arrayMap.getD a a).foldl setBit 0
    okResp s (o.prefixBytes s ++ le 1 t.tier ++ le 1 0 ++ le 2 t.rows ++ le 2 t.cols ++ le 2 0 ++ le 4 (s.ringHandle t.firstRing) ++
      le 4 mask ++ le 8 (s.ctr (ctrTiles o.idx)))

def opNodeTilesInfo : RuziaOp := ⟨0x0500, .read, false, len 4, tilesInfoBody⟩

/-- `node.tiles.info`. -/
def execNodeTilesInfo (f : CmdFrame) (s : State) : Host.Outcome State Fault Refusal :=
  ruzia opNodeTilesInfo f s

/-- Allocate one tile set with its column rings; the answer is its index. -/
def newTiles (s : State) (desk cls d tier rows cols : Nat) : Except Err (Nat × State) := do
  let m := s.mult d
  let n := (rows / 64) * (cols / 64)
  within s desk 3 (n * m)
  within s desk 4 (cols * m)
  let (arr, s) ← placeTiles s n m
  match (s.tab tBlock).pick 1 1 0xF0000 512 with
  | none => .error { status := eNoResource }
  | some i =>
    let s := s.addObj { ty := tBlock, idx := i, gen := 1, desk := desk, cls := cls, dom := d, freeing := false, job := none,
                        staged := 0, charge := 0, safe := 0, epoch := s.epoch,
                        kind := .tiles { tier := tier, rows := rows, cols := cols, firstRing := 0, tiles := arr, nodes := [],
                                         rowRecs := [], pend := [], lastClip := none, release := none } }
    let h := ((s.objAt tBlock i).map Obj.handle).getD 0
    let (r, s) ← allocRings s desk cls d cols 0 h 5 0
    .ok (i, s.upd h fun x => x.onTiles fun t => { t with firstRing := r })

/-- Input sinks of the FEED list in order: a Bus with its place in the list, and the sub (R170). -/
def feedSinks (s : State) (f : CmdFrame) (tier : Nat) : Except Err (List ((Obj × Nat) × Nat)) := do
  let bs ← eachItem (fun i => atItem i do
    let o ← resolve s [tBus] (u32 f (8 + 4 * i)) (8 + 4 * i)
    need (o.desk == f.desk || f.desk == 0) eDenied (8 + 4 * i) o.handle
    .ok o) (u8 f 3) 0
  .ok (bs.zipIdx.flatMap fun b => (List.range ((b.1.chan?.map (·.width)).getD 0)).map fun k => (b, 2 * k + (tier - 1)))

/-- KIND of the sinks of a Bus that a FEED reaches. -/
def feedKind (o : Obj) : Nat := (o.chan?.map fun b => if b.role == 1 then 7 else 8).getD 7

/-- A FEED sink is of the tile set's domain and has no route yet (R74, R170). -/
def feedOpen (s : State) (d : Nat) (x : (Obj × Nat) × Nat) : Except Err Unit := atItem x.1.2 do
  need (x.1.1.dom == d && !x.1.1.freeing) eState (8 + 4 * x.1.2) x.1.1.handle
  need ((s.routeTo (feedKind x.1.1) x.2 x.1.1.handle).isNone) eState (8 + 4 * x.1.2) x.1.1.handle

/-- Create the FEED routes from columns `c` on. -/
def addFeeds (f : CmdFrame) (cls d first step : Nat) : List ((Obj × Nat) × Nat) → Nat → State → Except Err State
  | [], _, s => .ok s
  | ((o, _), sub) :: rest, c, s => do
    let dd := s.desk f.desk
    let kind := feedKind o
    let src := s.ringHandle (first + step * c)
    need ((s.routeTo kind sub o.handle).isNone) eState 8 o.handle
    within s o.desk 6 1
    let s ← admitReading s (src, 0)
    let (i, s) ← s.addRoute o.desk (max cls o.cls) d (Route.new kind sub o.handle dd.defPolicy dd.defLaw dd.defT)
    let w ← schedule s { kind := 0, dom := 0, val := 0 } d 0 false 0
    let (n, s) := s.stamp
    let ch : RChange := { order := n, desk := f.desk, seq := f.seq, s := w.s, src := some src, off := some 0,
                          cut := dd.defPolicy == 0, t := dd.defT, law := dd.defLaw, recallOf := 0 }
    addFeeds f cls d first step rest (c + 1) (if w.now then s.applyRoute i ch else s.changeRoute i ch)

def tilesAllocBody : Body := fun s f => do
  let feeds0 ← feedSinks s f (max 1 (u8 f 1))
  let d ← domainAt f 0
  need (u8 f 1 == 1 || u8 f 1 == 2) eRange 1
  let cls ← classOf s f 2
  need (u8 f 3 ≤ 58) eRange 3
  let rows := u16 f 4
  let cols := u16 f 6
  need (rows % 64 == 0 && 64 ≤ rows && rows ≤ 4096) eRange 4
  need (cols % 64 == 0 && 64 ≤ cols && cols ≤ 1024) eRange 6
  need (feeds0.length ≤ cols) eRange 8
  feeds0.forM (feedOpen s d)
  classPermitted s f.desk cls 2
  allocatable s d
  let (i, s) ← newTiles s f.desk cls d (u8 f 1) rows cols
  match s.objAt tBlock i with
  | none => .error { status := eNoResource }
  | some o =>
    let first := (o.tiles?.map (·.firstRing)).getD 0
    let s ← addFeeds f cls d first (s.maxMult d) feeds0 0 s
    acyclic s
    okResp s (le 4 o.handle ++ le 4 (s.ringHandle first))

def opNodeTilesAlloc : RuziaOp := ⟨0x0501, .change, false, fun f => f.len ≥ 8 && f.len == 8 + 4 * u8 f 3, tilesAllocBody⟩

/-- `node.tiles.alloc`. -/
def execNodeTilesAlloc (f : CmdFrame) (s : State) : Host.Outcome State Fault Refusal :=
  ruzia opNodeTilesAlloc f s

/-- Only a tile set takes this family's free. -/
def tilesOnly (_s : State) (o : Obj) : Except Err Unit := need (o.tiles?.isSome) eHandle 0 o.handle

def opNodeTilesFree : RuziaOp := ⟨0x0502, .change, false, len 8, freeBody [tBlock] tilesOnly noBefore⟩

/-- `node.tiles.free` (R172). -/
def execNodeTilesFree (f : CmdFrame) (s : State) : Host.Outcome State Fault Refusal :=
  ruzia opNodeTilesFree f s

def tilesDefaultBody : Body := fun s f => do
  need (s.mult 0 == 1) eState
  let cls := (s.desk f.desk).defClass
  allocatable s 0
  need (slotsUsed s == 0) eNoResource
  let (i, s) ← newTiles s f.desk cls 0 1 3584 512
  let (j, s) ← newTiles s f.desk cls 0 2 512 512
  okResp s (le 4 (((s.objAt tBlock i).map Obj.handle).getD 0) ++ le 4 (((s.objAt tBlock j).map Obj.handle).getD 0))

def opNodeTilesDefault : RuziaOp := ⟨0x0503, .change, true, len 0, tilesDefaultBody⟩

/-- `node.tiles.default` (R171). -/
def execNodeTilesDefault (f : CmdFrame) (s : State) : Host.Outcome State Fault Refusal :=
  ruzia opNodeTilesDefault f s

/-! ## Node changes -/

/-- A node gain: −∞, or −14,400 to +1,200 mB (R178). -/
def gainOk (v : Nat) : Bool := levelSpec.ok v

/-- Check record (row, column, gain) `i` of a node command. -/
def nodeRecordOk (t : Tiles) (base i : Nat) (r : Nat × Nat × Nat) : Except Err Unit := atItem i do
  need (r.1 < t.rows) eRange (base + 8 * i)
  need (r.2.1 < t.cols) eRange (base + 8 * i + 2)
  need (gainOk r.2.2) eRange (base + 8 * i + 4)

def nodeRecordsOk (t : Tiles) (base : Nat) : Nat → List (Nat × Nat × Nat) → Except Err Unit
  | _, [] => .ok ()
  | i, r :: rs => do
    nodeRecordOk t base i r
    nodeRecordsOk t base (i + 1) rs

/-- The node record a written gain leaves before its launch. -/
def Tiles.written (t : Tiles) (term : Nat → Nat → Word) (r : Nat × Nat × Nat) : Tiles :=
  let n := (t.node r.1 r.2.1).getD (Node.fresh r.1 r.2.1 (term r.1 r.2.1))
  { t with nodes := setNode t.nodes { n with gain := r.2.2 } }

/-- Stage or apply the changes of a node command at its launch. -/
def applyNodes (s : State) (o : Obj) (f : CmdFrame) (l : Launch) (len : Nat) (recs : List (Nat × Nat × Nat)) :
    Except Err (When × State) := do
  match o.tiles? with
  | none => .error { status := eHandle, field := 0, handle := o.handle }
  | some t =>
    let w ← schedule s l o.dom 0 false 4
    let idle := (s.dom o.dom).st == .stopped || (s.dom o.dom).st == .halted
    need (idle || queueFits s t (recs.map fun r => (r.1, r.2.1))) eBusy
    lateCheck f w
    let (n, s) := s.stamp
    let term := termOf s o.handle t (s.maxMult o.dom)
    let s := s.upd o.handle fun x => x.onTiles fun t =>
      let t := recs.foldl (fun t r => t.written term r) t
      if idle then
        { t with nodes := t.nodes.map fun n => if recs.any (fun r => r.1 == n.row && r.2.1 == n.col) then n.aim n.gain n.pan 0 else n }
      else
        { t with pend := t.pend ++ recs.zipIdx.map fun p =>
            { order := n * 131072 + p.2, s := w.s, row := p.1.1, col := p.1.2.1, gain := p.1.2.2, t := len, recallOf := 0 } }
    .ok (w, s)

def nodeSetBody : Body := fun s f => do
  let o ← resolve s [tBlock] (u32 f 0) 0
  match o.tiles? with
  | none => .error { status := eHandle, field := 0, handle := o.handle }
  | some t =>
    owned f o.desk o.handle
    let n := u16 f 24
    need (1 ≤ n) eRange 24
    reserved f 26 2
    need (u32 f 20 ≤ 65535) eRange 20
    let recs := (List.range n).map fun i => (u16 f (28 + 8 * i), u16 f (30 + 8 * i), u32 f (32 + 8 * i))
    nodeRecordsOk t 28 0 recs
    let l ← launchAt s f 4
    settled o
    let (w, s) ← applyNodes s o f l (u32 f 20) recs
    okResp (s.slipEvent f 0x0504 1 w) (le 8 w.index)

/-- Up to 18 records; more are a length the opcode does not take (chapter 6, Bench limits). -/
def opNodeSet : RuziaOp := ⟨0x0504, .change, false, fun f => lenCount 28 24 8 f && u16 f 24 ≤ 18, nodeSetBody⟩

/-- `node.set`. -/
def execNodeSet (f : CmdFrame) (s : State) : Host.Outcome State Fault Refusal :=
  ruzia opNodeSet f s

def nodeBulkBody : Body := fun s f => do
  let o ← resolve s [tBlock] (u32 f 0) 0
  need (o.tiles?.isSome) eHandle 0 o.handle
  owned f o.desk o.handle
  need (1 ≤ u32 f 24) eRange 24
  need (u32 f 20 ≤ 65535) eRange 20
  let b ← bulkAt s f 28 0 1048576
  let _ ← launchAt s f 4
  need (b.len == 8 * u32 f 24) eLength 32
  settled o
  mayDefer s f
  accResp (s.defer f 0x0505 o.handle (some b) 0 0)

def opNodeBulk : RuziaOp := ⟨0x0505, .change, false, fun f => f.len == 44 && u32 f 24 ≤ 131072, nodeBulkBody⟩

/-- `node.bulk`: deferred; its data arrives, loads (R182) and commits at NODE_LOAD_COMPLETE. -/
def execNodeBulk (f : CmdFrame) (s : State) : Host.Outcome State Fault Refusal :=
  ruzia opNodeBulk f s

/-- Records of `node.bulk` data. -/
def nodeRecords : Nat → List Byte → List (Nat × Nat × Nat)
  | 0, _ => []
  | n + 1, bs => if bs.length < 8 then [] else (fieldAt bs 0 2, fieldAt bs 2 2, fieldAt bs 4 4) :: nodeRecords n (bs.drop 8)

/-- NODE_STAGED for a job; a command that never committed has no commit ashlar, and that word is open (log entry 2). -/
def State.nodeStaged (s : State) (j : Job) (status : Nat) : State :=
  let (x, s) := if status == 0 then (s.now, s) else s.drawNat
  s.complete j 0x0501 status (le 4 j.handle ++ le 4 (u32 j.frame 24) ++ le 8 x)

/-- The last change of a `node.bulk` has been loaded: the command commits (R182). -/
def execNodeLoadComplete (order : Nat) (s : State) : Host.Outcome State Fault Refusal :=
  if !s.serving then .next s else
  match s.jobs.find? fun j => j.order == order && j.op == 0x0505 && j.stage == 1 with
  | none => .next s
  | some j =>
    match s.obj j.handle with
    | none => .next (s.nodeStaged j eHandle)
    | some o =>
      match o.tiles? with
      | none => .next (s.nodeStaged j eHandle)
      | some t =>
        let recs := nodeRecords (u32 j.frame 24) j.data
        match nodeRecordsOk t 0 0 recs, launchAt s j.frame 4 with
        | .error e, _ => .next (s.nodeStaged j e.status)
        | .ok _, .error e => .next (s.nodeStaged j e.status)
        | .ok _, .ok l =>
          match applyNodes s o j.frame l (u32 j.frame 20) recs with
          | .error e => .next (s.nodeStaged j e.status)
          | .ok (w, s') => .next ((s'.slipEvent j.frame 0x0505 1 w).nodeStaged j 0)

def nodeGetBody : Body := fun s f => do
  let o ← resolve s [tBlock] (u32 f 0) 0
  match o.tiles? with
  | none => .error { status := eHandle, field := 0, handle := o.handle }
  | some t =>
    let n := u16 f 4
    need (1 ≤ n && n ≤ 14) eRange 4
    reserved f 6 2
    let bs ← eachItem (fun i => atItem i do
      let r := u16 f (8 + 4 * i)
      let c := u16 f (10 + 4 * i)
      need (r < t.rows) eRange (8 + 4 * i)
      need (c < t.cols) eRange (10 + 4 * i)
      let x := (t.node r c).getD (Node.fresh r c 0)
      .ok (le 2 r ++ le 2 c ++ le 4 x.gain ++ leWord x.ramp.gainEnd ++ leWord x.ramp.value)) n 0
    okResp s (le 2 n ++ le 2 0 ++ bs.flatten)

def opNodeGet : RuziaOp := ⟨0x0506, .read, false, lenCount 8 4 4, nodeGetBody⟩

/-- `node.get`. -/
def execNodeGet (f : CmdFrame) (s : State) : Host.Outcome State Fault Refusal :=
  ruzia opNodeGet f s

/-! ## Groups -/

/-- Membership a Group will have once its waiting changes have launched. -/
def Group.accepted (g : Group) : List (Nat × Nat) :=
  (g.pend.inOrder fun a b => a.order ≤ b.order).foldl (fun ms c =>
    match c.member with
    | some (h, first, n, isIn) =>
      if h == 0 then []
      else
        let rest := ms.filter fun m => !(m.1 == h && first ≤ m.2 && m.2 < first + n)
        if isIn then rest ++ (List.range n).map (fun i => (h, first + i)) else rest
    | none => ms) g.members

def groupInfoBody : Body := fun s f => do
  let o ← resolve s [tGroup] (u32 f 0) 0
  match o.group? with
  | none => .error { status := eHandle, field := 0, handle := o.handle }
  | some g => okResp s (o.prefixBytes s ++ le 4 g.offset ++ le 4 g.t ++ le 4 g.accepted.length)

def opGroupInfo : RuziaOp := ⟨0x0600, .read, false, len 4, groupInfoBody⟩

/-- `group.info`. -/
def execGroupInfo (f : CmdFrame) (s : State) : Host.Outcome State Fault Refusal :=
  ruzia opGroupInfo f s

def groupAllocBody : Body := fun s f => do
  let cls ← classOf s f 0
  reserved f 1 3
  classPermitted s f.desk cls 0
  match (s.tab tGroup).pick 1 1 0 256 with
  | none => .error { status := eNoResource }
  | some i =>
    let s := s.addObj { ty := tGroup, idx := i, gen := 1, desk := f.desk, cls := cls, dom := 3, freeing := false, job := none,
                        staged := 0, charge := 0, safe := 0, epoch := s.epoch,
                        kind := .group { offset := 0, offsetUse := [0, 0, 0], t := 480, members := [], pend := [] } }
    okResp s (le 4 (((s.objAt tGroup i).map Obj.handle).getD 0))

def opGroupAlloc : RuziaOp := ⟨0x0601, .change, false, len 4, groupAllocBody⟩

/-- `group.alloc`: 256 Groups (R184). -/
def execGroupAlloc (f : CmdFrame) (s : State) : Host.Outcome State Fault Refusal :=
  ruzia opGroupAlloc f s

/-- Tick boundaries of R186 for the domains given, all on time, or moved as R219 moves a Group change: (domain, index)
pairs and whether it slipped. `q` is the launch instant; none takes each domain's next boundary. -/
def boundaries (s : State) (l : Launch) (ds : List Nat) (q : Nat) : List (Nat × Nat) :=
  ds.map fun d => (d, if (s.dom d).st == .fadingOut then farMark + (s.dom d).restartAt else if l.kind == 0 then tickFor (s.tickLen d) 0 (s.ash d)
    else roundUp (if l.kind == 1 && q == 0 then l.index s d else firstAt q (s.fs d)) (s.tickLen d))

def allOnTime (s : State) (bs : List (Nat × Nat)) : Bool := bs.all fun p => p.2 ≥ farMark || onTime p.2 0 (s.ash p.1)

/-- Move by whole domain A ticks until every boundary is on time. -/
def slipGroup (s : State) (l : Launch) (ds : List Nat) (q0 step : Nat) : Nat → Nat → List (Nat × Nat)
  | 0, k => boundaries s l ds (q0 + k * step)
  | n + 1, k =>
    let bs := boundaries s l ds (q0 + k * step)
    if allOnTime s bs then bs else slipGroup s l ds q0 step n (k + 1)

/-- Launches of a Group change over all three domains, the ones that do not run at 0 (taken at once); and the slip. -/
def groupWhen (s : State) (f : CmdFrame) (l : Launch) (rowDoms : List Nat) : Except Err (List (Nat × Nat) × When) := do
  let run := (List.range 3).filter fun d => (s.dom d).runs
  let mine := run.filter fun d => rowDoms.contains d
  let mine := if mine.isEmpty then [0] else mine
  let first := boundaries s l run 0
  let idx (bs : List (Nat × Nat)) : Nat := ((bs.find? fun p => p.1 == mine.headD 0).map (·.2)).getD 0
  need (l.kind == 0 || mine.all fun d => l.index s d ≤ s.idx d + 2 ^ 32) eRange
  if l.kind == 0 || allOnTime s (first.filter fun p => mine.contains p.1) then
    .ok (first.map fun p => if onTime p.2 0 (s.ash p.1) then p else (p.1, tickFor (s.tickLen p.1) 0 (s.ash p.1)),
      { s := idx first, tick := l.kind == 0, asked := idx first, slipped := false, now := false })
  else
    let moved := if mine.length ≤ 1 then run.map fun d => (d, tickFor (s.tickLen d) 0 (s.ash d))
      else
        let q0 := if l.kind == 2 then l.val else instantOf l.val (s.fs l.dom)
        slipGroup s l run q0 (instantOf (s.tickLen 0) (s.fs 0)) 65536 1
    if strictFlag f then .error { status := eLate, detail := le 8 (idx moved) }
    else .ok (moved, { s := idx moved, tick := false, asked := idx first, slipped := true, now := false })

/-- Queue a Group's change for every domain, and settle it in those that do not run. -/
def queueGroup (s : State) (h value t : Nat) (member : Option (Nat × Nat × Nat × Bool)) (bs : List (Nat × Nat)) (recallOf : Nat) :
    State :=
  let (n, s) := s.stamp
  let ds := (List.range 3).filter fun d => member.all fun m => m.1 == 0 || s.domOf m.1 == d
  let cs : List GChange := ds.map fun d =>
    { order := n, s := assoc bs d, dom := d, value := value, t := t, member := member, recallOf := recallOf }
  let s := s.upd h fun x => x.onGroup fun g => { g with pend := g.pend ++ cs }
  ((List.range 3).filter fun d => !((s.dom d).runs)).foldl (fun s d => s.groupTick d 0 true) s

/-- Domains of a Group's rows. -/
def Group.doms (g : Group) (s : State) : List Nat := (g.accepted.map fun m => s.domOf m.1).eraseDups

def groupSetBody : Body := fun s f => do
  let o ← resolve s [tGroup] (u32 f 0) 0
  owned f o.desk o.handle
  match o.group? with
  | none => .error { status := eHandle, field := 0, handle := o.handle }
  | some g =>
    need (gainOk (u32 f 4)) eRange 4
    need (u32 f 8 ≤ 65535) eRange 8
    let l ← launchAt s f 12
    settled o
    let (bs, w) ← groupWhen s f l (g.doms s)
    let s := s.upd o.handle fun x => x.onGroup fun g => { g with offset := u32 f 4, t := u32 f 8 }
    okResp ((queueGroup s o.handle (u32 f 4) (u32 f 8) none bs 0).slipEvent f 0x0603 1 w) (le 8 w.index)

def opGroupSet : RuziaOp := ⟨0x0603, .change, false, len 28, groupSetBody⟩

/-- `group.set`. -/
def execGroupSet (f : CmdFrame) (s : State) : Host.Outcome State Fault Refusal :=
  ruzia opGroupSet f s

/-- Groups a row will belong to. -/
def rowGroups (s : State) (h row : Nat) : Nat :=
  (s.objs.filter fun o => match o.group? with | some g => g.accepted.contains (h, row) | none => false).length

def groupMemberBody : Body := fun s f => do
  let o ← resolve s [tGroup] (u32 f 0) 0
  let k ← resolve s [tBlock] (u32 f 4) 4
  match o.group?, k.tiles? with
  | some g, some t =>
    owned f o.desk o.handle
    owned f k.desk k.handle 4
    let first := u16 f 8
    let n := u16 f 10
    need (first < t.rows) eRange 8
    need (1 ≤ n && n ≤ 4096 && first + n ≤ t.rows) eRange 10
    need (u8 f 12 ≤ 1) eRange 12
    reserved f 13 3
    need (u32 f 16 ≤ 65535) eRange 16
    let l ← launchAt s f 20
    settled o
    settled k 4
    need (u8 f 12 == 0 || (List.range n).all fun i => g.accepted.contains (k.handle, first + i) ||
      rowGroups s k.handle (first + i) < 4) eState 8 k.handle
    let (bs, w) ← groupWhen s f l [k.dom]
    okResp ((queueGroup s o.handle 0 (u32 f 16) (some (k.handle, first, n, u8 f 12 == 1)) bs 0).slipEvent f 0x0604 1 w) (le 8 w.index)
  | _, _ => .error { status := eHandle, field := 4, handle := k.handle }

def opGroupMemberSet : RuziaOp := ⟨0x0604, .change, false, len 36, groupMemberBody⟩

/-- `group.member.set`. -/
def execGroupMemberSet (f : CmdFrame) (s : State) : Host.Outcome State Fault Refusal :=
  ruzia opGroupMemberSet f s

def groupFreeBody : Body := fun s f => do
  let o ← freeChecks s f [tGroup]
  let n := (o.group?.map (·.pend.length)).getD 0
  let t := (o.group?.map (·.t)).getD 0
  let s := s.upd o.handle fun x => { (x.onGroup fun g => { g with pend := [] }) with freeing := true }
  let bs := boundaries s { kind := 0, dom := 0, val := 0 } ((List.range 3).filter fun d => (s.dom d).runs) 0
  okResp (queueGroup s o.handle 0 t (some (0, 0, 0, false)) bs 0).finishFrees (le 4 n)

def opGroupFree : RuziaOp := ⟨0x0602, .change, false, len 8, groupFreeBody⟩

/-- `group.free`: its rows ramp at their domains' next boundaries, and the index goes with the last (R186). -/
def execGroupFree (f : CmdFrame) (s : State) : Host.Outcome State Fault Refusal :=
  ruzia opGroupFree f s

end Sys2Proof.Machine
end

