-- ==== Sys2Proof/Machine/Place.lean ====
section
/-! DEFINITION. Shared forms of the allocating and writing commands: a seat for an object's instances (R104-R106), the plain
parameter write of services and package blocks (R132, R135), and data sent to the host (R298, R300). -/
namespace Sys2Proof.Machine

/-! ## Seats -/

/-- Where an instance goes: its core, the transplants that make room there, and whether it lies above the ceiling. -/
structure Seat where
  core : Nat
  moves : List (Nat × Nat)
  overs : Bool
  deriving DecidableEq, Repr

/-- A seat by R105, or by consolidation where the command may be deferred (R106, R281). -/
def seat (s : State) (f : CmdFrame) (d : Nat) (n : Need) : Except Err Seat :=
  match place s d n with
  | some p => .ok { core := p.1, moves := [], overs := p.2 }
  | none => match consolidate s d n with
    | none => .error { status := eNoResource }
    | some q => do
      need (deferredOk f) eBusy
      mayDefer s f
      .ok { core := q.1, moves := q.2, overs := false }

/-- A seat for a command that is never deferred. -/
def seatNow (s : State) (d : Nat) (n : Need) : Except Err Seat :=
  match place s d n with
  | some p => .ok { core := p.1, moves := [], overs := p.2 }
  | none => .error { status := eNoResource }

/-- Answer an allocation: at once, or deferred until its seats' transplants end. -/
def State.seated (s : State) (f : CmdFrame) (op h d : Nat) (ts : List Seat) (payload : List Byte) : Except Err (State × Resp) :=
  let desk := ((s.obj h).map (·.desk)).getD 0
  let s := ts.foldl (fun s t => s.overCeiling desk h t.core t.overs) s
  let busy := ts.filter fun t => !t.moves.isEmpty
  match busy.getLast? with
  | none => okResp s payload
  | some t =>
    let s := (s.defer f op h none 1 t.core).upd h fun x => { x with job := some (f.desk, f.seq) }
    accResp (busy.foldl (fun s t => s.startMoves d t.core t.moves) s) payload

/-- The lowest run of `n` free numbers below `limit`, given the runs (first, length) in use. -/
def freeRun (used : List (Nat × Nat)) (n limit : Nat) : Option Nat :=
  let starts := (0 :: used.map fun u => u.1 + u.2).inOrder (· ≤ ·)
  starts.find? fun i => i + n ≤ limit && used.all fun u => i + n ≤ u.1 || u.1 + u.2 ≤ i

/-! ## The plain parameter write -/

/-- Stage the TWIN of an object without pages, merged or deferred as R135 has it. -/
def stagePlain (f : CmdFrame) (h : Nat) (x : Timing3) (w : When) (warm charge recallOf : Nat) (vals : List (Nat × Nat)) (s : State) :
    Except Err State :=
  match s.obj h with
  | none => .ok s
  | some o =>
    let p := o.params
    let now := s.idx o.dom
    if p.twins.any (joins now 0 w.s) then
      .ok (s.upd h fun y => y.setParams
        { p with twins := p.twins.map fun t => if joins now 0 w.s t then t.join vals warm else t })
    else
      let at' := deferTwin p.twins warm x.t 16 w.s
      if charge > 0 && !(twinFits s ((coreOf o).getD 0) charge (spanFirst at' warm) (at' + x.t)) then
        .error { status := eNoResource, handle := h }
      else
        let (n, s) := s.stamp
        let s := if at' != w.s then s.raiseObj o.desk 0x1107 (le 4 h ++ le 4 0 ++ le 8 w.index ++ le 8 (at' % farMark)) else s
        let t : Twin := { page := 0, order := n, desk := f.desk, seq := f.seq, s := at', w := warm, t := x.t, law := x.law,
                          vals := vals, charge := charge, recallOf := recallOf }
        .ok (s.upd h fun y => y.setParams { y.params with twins := y.params.twins ++ [t] })

/-- One record stored, for a domain that processes nothing. -/
def putPlain (spec : Nat → Option PSpec) (vs : List PVal) (r : Nat × Nat) : List PVal :=
  match spec r.1 with
  | some p => setVal vs (PVal.rest r.1 r.2 p.mode)
  | none => vs

def isTwinMode (m : Mode) : Bool := m == .twin || m == .twin0

/-- One record accepted: written now, waiting for its launch where its mode ramps or steps. -/
def acceptPlain (spec : Nat → Option PSpec) (f : CmdFrame) (w : When) (n t recallOf : Nat) (p : Params) (r : Nat × Nat) : Params :=
  match spec r.1 with
  | none => p
  | some q =>
    let old := valOf p.vals r.1 q.dflt q.mode
    if q.mode == .stored then { p with vals := putPlain spec p.vals r }
    else
      let vals := setVal p.vals { old with written := r.2 }
      if isTwinMode q.mode then { p with vals := vals }
      else { p with vals := vals,
                    pend := insertP { order := n, desk := f.desk, seq := f.seq, s := w.s, tick := w.tick, id := r.1, value := r.2,
                                      t := t, recallOf := recallOf } p.pend }

/-- A parameter write on an object with one table: `law0` is the law its TWINs use where the command names none. -/
def plainWrite (op : Nat) (spec : State → Obj → Nat → Option PSpec) (law0 : Nat) : ParamWrite := fun s f o recs0 => do
  let sp := spec s o
  let recs := lastRecords recs0
  checkRecords sp o.handle 0 recs0
  let x ← timing3 f
  let x := if u8 f 28 == 0xFF then { x with law := law0 } else x
  let l ← launchAt s f 4
  settled o
  let ofMode (g : Mode → Bool) := recs.filter fun r => (sp r.1).any fun p => g p.mode
  let twins := ofMode isTwinMode
  let warm := if (ofMode fun m => m == .twin).isEmpty then 0 else x.w
  let charge := if (ofMode fun m => m == .twin).isEmpty then 0 else o.charge
  let w ← schedule s l o.dom warm false 4
  let s ← if twins.isEmpty || w.now then .ok s else stagePlain f o.handle x w warm charge 0 twins s
  lateCheck f w
  let (n, s) := s.stamp
  let s := s.upd o.handle fun y =>
    let p := y.params
    y.setParams (if w.now then { p with vals := recs.foldl (putPlain sp) p.vals }
      else recs.foldl (acceptPlain sp f w n x.t 0) p)
  .ok (w, s.slipEvent f op 1 w)

/-! ## Data to the host -/

/-- Hold a command whose data goes to the host: it is sent, and the command completes, at the end of its transfer. -/
def State.deferOut (s : State) (f : CmdFrame) (op handle : Nat) (b : Bulk) (data : List Byte) : State :=
  let (n, s) := s.stamp
  let j : Job := { desk := f.desk, seq := f.seq, op := op, frame := f, order := n, handle := handle, ashlar := s.now, data := data,
                   stage := 2, num := b.mode }
  { s with jobs := s.jobs ++ [j] }

/-- The value a parameter has at sample `i`, waiting changes counted. -/
def valAt (p : Params) (id dflt i : Nat) : Nat :=
  (p.pend.filter fun c => c.id == id && c.s ≤ i).foldl (fun _ c => c.value) (valOf p.vals id dflt .step).use

end Sys2Proof.Machine
end

