-- ==== Sys2Proof/Machine/Services.lean ====
section
/-! DEFINITION. The meter, svc and capture families (R260-R279, R335): tables, allocation, taps, talk keys, solo sources,
freezing and playback. Their audio and measurements are in `Audio.lean` and `Slot.lean`. -/
namespace Sys2Proof.Machine

/-! ## Taps (R160, R264, R276) -/

/-- Sources of a solo bus once its waiting changes have launched: (object, channel, mode). -/
def applySources (l : List (Nat × Nat × Nat)) (c : SChange) : List (Nat × Nat × Nat) :=
  c.sources.foldl (fun l x =>
    let k := (x.1, x.2.1, x.2.2.1)
    if x.2.2.2 then (if l.contains k then l else l ++ [k]) else l.filter (· != k))
    (if c.exclusive then l.filter fun k => c.sources.any fun x => x.2.2.2 && (x.1, x.2.1, x.2.2.1) == k else l)

def Svc.acceptedSolos (v : Svc) : List (Nat × Nat × Nat) :=
  (v.live.inOrder fun a b => a.s < b.s || (a.s == b.s && a.order ≤ b.order)).foldl applySources
    ((v.solos.filter fun x => !x.leaving).map fun x => (x.obj, x.chan, x.mode))

/-- Taps on an object channel: meter taps and solo sources together. -/
def State.tapsOn (s : State) (h chan : Nat) : Nat :=
  sumNat (s.objs.map fun o => match o.kind with
    | .meter m => (m.taps.filter fun t => t.obj == h && t.chan == chan).length
    | .svc v => (v.acceptedSolos.filter fun x => x.1 == h && x.2.1 == chan).length
    | _ => 0)

/-! ## Meters -/

def meterSpec (_s : State) (o : Obj) (id : Nat) : Option PSpec :=
  match o.meter? with
  | none => none
  | some m =>
    if m.loud then
      if 0x3100 ≤ id && id < 0x3100 + m.points then some { lo := 0, hi := 0x20000, dflt := 0x10000, mode := .step } else none
    else match id with
      | 0x3000 => some { lo := 0, hi := 1, dflt := 1, mode := .step }
      | 0x3001 => some { lo := -2400, hi := 0, signed := true, dflt := code (-100), mode := .step }
      | _ => none

def meterInfoBody : Body := fun s f => do
  let o ← resolve s [tMeter] (u32 f 0) 0
  match o.meter? with
  | none => .error { status := eHandle, field := 0, handle := o.handle }
  | some m =>
    okResp s (o.prefixBytes s ++ le 1 (if m.loud then 1 else 0) ++ le 1 (flagAt m.paired 0) ++ le 2 m.points ++ le 4 m.firstSlot)

def opMeterInfo : RuziaOp := ⟨0x0C00, .read, false, len 4, meterInfoBody⟩

/-- `meter.info`. -/
def execMeterInfo (f : CmdFrame) (s : State) : Host.Outcome State Fault Refusal :=
  ruzia opMeterInfo f s

/-- Meters of a kind with their objects. -/
def State.meters (s : State) (loud : Bool) : List (Obj × Meter) :=
  s.objs.filterMap fun o => match o.meter? with | some m => if m.loud == loud then some (o, m) else none | none => none

/-- Points in use, `m` per point (R260). -/
def pointsUsed (s : State) : Nat := sumNat ((s.meters false).map fun p => p.2.points * s.mult p.1.dom)

def Loud.reset (base ashlar : Nat) : Loud :=
  { run := 0, steps := 0, resetAshlar := ashlar, stepAshlar := 0, base := base, values := [], valid := false }

/-- Seat a Meter's instances one after the other, 128 points each (R261). -/
def seatPoints (f : CmdFrame) (h d m loudW : Nat) : Nat → State → List Seat → Except Err (List Seat × State)
  | 0, s, acc => .ok (acc, s)
  | n + 1, s, acc => do
    let k := min 128 (n + 1)
    let w := if loudW > 0 then loudW else chargeOf (64 * k) m
    let t ← seat s f d { w := w, rd := k * m }
    let s := (s.upd h fun x => x.onMeter fun mm => { mm with cores := mm.cores ++ [t.core] }).useCore t.core d
    if loudW > 0 then .ok (acc ++ [t], s) else seatPoints f h d m 0 (n + 1 - k) s (acc ++ [t])

def meterAllocBody : Body := fun s f => do
  let loud := u8 f 0 == 1
  need (u8 f 0 ≤ 1) eRange 0
  let d ← domainAt f 1
  let cls ← classOf s f 2
  need (u8 f 3 ≤ 1) eRange 3
  let n := u16 f 4
  need (1 ≤ n && n ≤ (if loud then 24 else 1024)) eRange 4
  reserved f 6 2
  classPermitted s f.desk cls 2
  allocatable s d
  let m := s.mult d
  let w := if loud then chargeOf 2048 m else chargeOf (64 * n) m
  within s f.desk 8 w
  let mine := s.meters loud
  need (mine.length < (if loud then 128 else 1024)) eNoResource
  need (loud || pointsUsed s + n * m ≤ 16384) eNoResource
  match freeRun (mine.map fun p => (p.2.firstSlot, if loud then 1 else p.2.points)) (if loud then 1 else n)
      (if loud then 128 else 16384), (s.tab tMeter).pick 1 1 0 (2 ^ 20) with
  | some slot, some i =>
    let s := s.addObj { ty := tMeter, idx := i, gen := 1, desk := f.desk, cls := cls, dom := d, freeing := false, job := none,
                        staged := 0, charge := w, safe := 0, epoch := s.epoch,
                        kind := .meter { loud := loud, paired := u8 f 3 == 1, points := n, firstSlot := slot, refresh := 0, taps := [],
                                         state := List.replicate n { peak := 0, done := [], doneTick := 0 },
                                         ld := Loud.reset (s.idx d) s.now, cores := [], vals := [], pend := [], ctl := [] } }
    let h := ((s.objAt tMeter i).map Obj.handle).getD 0
    let (ts, s) ← seatPoints f h d m (if loud then w else 0) n s []
    s.seated f 0x0C01 h d ts (le 4 h ++ le 4 slot)
  | _, _ => .error { status := eNoResource }

def opMeterAlloc : RuziaOp := ⟨0x0C01, .change, false, len 8, meterAllocBody⟩

/-- `meter.alloc`. -/
def execMeterAlloc (f : CmdFrame) (s : State) : Host.Outcome State Fault Refusal :=
  ruzia opMeterAlloc f s

def opMeterFree : RuziaOp := ⟨0x0C02, .change, false, len 8, freeBody [tMeter] anyFree noBefore⟩

/-- `meter.free`. -/
def execMeterFree (f : CmdFrame) (s : State) : Host.Outcome State Fault Refusal :=
  ruzia opMeterFree f s

/-- A pick-off point an object of this kind has (R128). -/
def pickOk (o : Obj) (pick : Nat) : Bool := pick ≤ 12 && (o.ty == tStrip || pick != 1)

def meterTapBody : Body := fun s f => do
  let o ← resolve s [tMeter] (u32 f 0) 0
  let x ← if u32 f 8 == 0 then .ok none else (resolve s [tStrip, tBus] (u32 f 8) 8).map some
  owned f o.desk o.handle
  match o.meter? with
  | none => .error { status := eHandle, field := 0, handle := o.handle }
  | some m =>
    let first := u16 f 4
    let n := u16 f 6
    need (first < m.points) eRange 4
    need (1 ≤ n && first + n ≤ m.points) eRange 6
    reserved f 13 1
    let rest := m.taps.filter fun t => !(first ≤ t.point && t.point < first + n)
    match x with
    | none =>
      settled o
      okResp (s.upd o.handle fun y => y.onMeter fun m => { m with taps := rest })
    | some x =>
      need (pickOk x (u8 f 12)) eRange 12
      let width := (x.chan?.map (·.width)).getD 0
      need (u16 f 14 + n ≤ width) eRange 14 x.handle
      settled o
      need (!x.freeing && x.dom == o.dom) eState 8 x.handle
      need ((List.range n).all fun i => (s.routeTo 11 (first + i) o.handle).isNone) eState 4 o.handle
      let new := (List.range n).map fun i => ({ point := first + i, obj := x.handle, pick := u8 f 12, chan := u16 f 14 + i } : Tap)
      let s := s.upd o.handle fun y => y.onMeter fun m => { m with taps := rest ++ new }
      need (new.all fun t => s.tapsOn t.obj t.chan ≤ 8) eNoResource 8 x.handle
      okResp s

def opMeterTap : RuziaOp := ⟨0x0C03, .change, false, len 16, meterTapBody⟩

/-- `meter.tap`. -/
def execMeterTap (f : CmdFrame) (s : State) : Host.Outcome State Fault Refusal :=
  ruzia opMeterTap f s

def meterWrite : ParamWrite := plainWrite 0x0C04 meterSpec 0

def opMeterParamSet : RuziaOp := ⟨0x0C04, .change, false, paramLen, paramSetBody 0x0C04 [tMeter] meterWrite⟩

/-- `meter.param.set`. -/
def execMeterParamSet (f : CmdFrame) (s : State) : Host.Outcome State Fault Refusal :=
  ruzia opMeterParamSet f s

/-- One run-state change of a Loudness meter, at domain sample `i` and domain A ashlar `a` (R268). -/
def Loud.control (l : Loud) (state i a : Nat) : Loud :=
  if state == 2 then { Loud.reset i a with run := l.run } else { l with run := state }

/-- Launch the run-state changes of a Loudness meter that have come by sample `j`: RESET before the others at one sample. -/
def Meter.launchCtl (m : Meter) (j a : Nat) : Meter :=
  let due := (m.ctl.filter fun c => c.1 ≤ j).inOrder fun x y =>
    x.1 < y.1 || (x.1 == y.1 && ((x.2.2 == 2 && y.2.2 != 2) || ((x.2.2 == 2) == (y.2.2 == 2) && x.2.1 ≤ y.2.1)))
  { m with ld := due.foldl (fun l c => l.control c.2.2 c.1 a) m.ld, ctl := m.ctl.filter fun c => c.1 > j }

def meterLoudBody : Body := fun s f => do
  let n := u16 f 2
  let os ← eachItem (fun i => atItem i do
    let o ← resolve s [tMeter] (u32 f (20 + 4 * i)) (20 + 4 * i)
    need ((o.meter?.map (·.loud)).getD false) eHandle (20 + 4 * i) o.handle
    owned f o.desk o.handle (20 + 4 * i)
    .ok o) n 0
  need (u8 f 0 ≤ 2) eRange 0
  reserved f 1 1
  need (1 ≤ n && n ≤ 55) eRange 2
  let l ← launchAt s f 4
  os.forM fun o => settled o
  let ws ← os.mapM fun o => schedule s l o.dom 0 false 4
  ws.forM fun w => lateCheck f w
  let (k, s) := s.stamp
  let s := (os.zip ws).foldl (fun s p =>
    let s := s.upd p.1.handle fun x => x.onMeter fun m =>
      if p.2.now then { m with ld := m.ld.control (u8 f 0) (s.idx p.1.dom) s.now } else { m with ctl := m.ctl ++ [(p.2.s, k, u8 f 0)] }
    s.slipEvent f 0x0C05 1 p.2) s
  okResp s

def opMeterLoudCtl : RuziaOp := ⟨0x0C05, .change, false, lenCount 20 2 4, meterLoudBody⟩

/-- `meter.loud.ctl`. -/
def execMeterLoudCtl (f : CmdFrame) (s : State) : Host.Outcome State Fault Refusal :=
  ruzia opMeterLoudCtl f s

/-! ## Services -/

/-- The parameter tables of the Services (R270-R276). -/
def svcTable (v : Svc) (id : Nat) : Option PSpec :=
  match v.kind with
  | 1 => if 0x3200 ≤ id && id < 0x3200 + v.size then some levelSpec else none
  | 2 =>
    if 0x3300 ≤ id && id < 0x3300 + v.size then some { lo := 0, hi := 0x100000, dflt := 0x10000, mode := .step }
    else if 0x3340 ≤ id && id < 0x3340 + v.size then some { lo := 0, hi := 2, dflt := 0, mode := .step }
    else match id with
      | 0x3380 => some { lo := 48, hi := 48000, dflt := 960, mode := .step }
      | 0x3381 => some { lo := -12000, hi := -4000, signed := true, dflt := code (-9000), mode := .step }
      | 0x3382 => some { lo := 0, hi := 1, dflt := 1, mode := .step }
      | _ => none
  | 3 => match id with
    | 0x3600 => some levelSpec
    | 0x3601 => some { lo := -9600, hi := 0, also := [minusInf], signed := true, dflt := code (-2000), mode := .step }
    | 0x3602 => some levelSpec
    | 0x3603 => some levelSpec
    | 0x3604 => some levelSpec
    | 0x3605 => some levelSpec
    | 0x3606 => some { lo := 0, hi := 4800, dflt := 48, mode := .step }
    | 0x3607 => some { lo := 0, hi := 96000, dflt := 4800, mode := .step }
    | _ => none
  | 4 => match id with
    | 0x3700 => some { lo := 0, hi := 4, dflt := 0, mode := .twin0 }
    | 0x3701 => some { lo := 10000, hi := 20000000, dflt := 1000000, mode := .twin0 }
    | 0x3702 => some { lo := -14400, hi := 0, also := [minusInf], signed := true, dflt := code (-1800), mode := .db }
    | 0x3703 => some { lo := 0, hi := 2 ^ v.size - 1, dflt := 0, mode := .mute }
    | _ => none
  | _ => match id with
    | 0x3800 => some levelSpec
    | 0x3801 => some { lo := -9600, hi := 0, also := [minusInf], signed := true, dflt := minusInf, mode := .db }
    | 0x3802 => some { lo := 0, hi := 96000, dflt := 480, mode := .step }
    | 0x3803 => some { lo := 0, hi := 96000, dflt := 480, mode := .step }
    | _ => none

def svcSpec (_s : State) (o : Obj) (id : Nat) : Option PSpec := o.svc?.bind fun v => svcTable v id

/-- The value in force of a Service's parameter. -/
def Svc.val (v : Svc) (id : Nat) : PVal :=
  match svcTable v id with
  | some p => valOf v.vals id p.dflt p.mode
  | none => valOf v.vals id 0 .stored

/-- Output rings of a Service. -/
def Svc.outputs (kind mode size : Nat) : Nat :=
  match kind with
  | 1 => size
  | 2 => 65
  | 3 => if mode == 0 then 1 else 2
  | 4 => size
  | _ => 2

/-- Cycle bound of R260. -/
def svcCycles (kind size : Nat) : Nat :=
  match kind with
  | 1 => 1024 + 64 * size
  | 2 => 8192
  | 3 => 384
  | 4 => 64 * size
  | _ => 2048

/-- Services of a kind the engine holds at most (R260). -/
def svcLimit : Nat → Nat
  | 1 => 64
  | 2 => 32
  | 3 => 512
  | 4 => 64
  | _ => 8

/-- SIZE a kind accepts. -/
def svcSizeOk (kind n : Nat) : Bool :=
  match kind with
  | 1 => 2 ≤ n && n ≤ 256
  | 2 => 1 ≤ n && n ≤ 64
  | 4 => 1 ≤ n && n ≤ 16
  | _ => n == 1

/-- Power floor fl of R271. -/
def Svc.floorPow (v : Svc) : Word := fPow10 (s32 (v.val 0x3381).use) 1000

/-- Estimates and gains an automixer starts with (R272). -/
def Svc.startMix (v : Svc) : Svc :=
  if v.kind != 2 then v else
  let modes := (List.range v.size).map fun i => (v.val (0x3340 + i)).use
  let n := (modes.filter (· == 0)).length
  let g := modes.map fun m => match m with
    | 0 => fDiv oneW (fInt n)
    | 1 => oneW
    | _ => 0#32
  { v with est := List.replicate v.size v.floorPow, gOld := g, gNew := g }

def svcInfoBody : Body := fun s f => do
  let o ← resolve s [tSvc] (u32 f 0) 0
  match o.svc? with
  | none => .error { status := eHandle, field := 0, handle := o.handle }
  | some v =>
    okResp s (o.prefixBytes s ++ le 1 v.kind ++ le 1 v.mode ++ le 2 v.size ++ le 4 (s.ringHandle v.firstRing) ++ le 2 v.ifb ++ le 2 0)

def opSvcInfo : RuziaOp := ⟨0x0D00, .read, false, len 4, svcInfoBody⟩

/-- `svc.info`. -/
def execSvcInfo (f : CmdFrame) (s : State) : Host.Outcome State Fault Refusal :=
  ruzia opSvcInfo f s

def State.svcs (s : State) (kind : Nat) : List (Obj × Svc) :=
  s.objs.filterMap fun o => match o.svc? with | some v => if v.kind == kind then some (o, v) else none | none => none

def svcAllocBody : Body := fun s f => do
  let kind := u8 f 0
  need (1 ≤ kind && kind ≤ 5) eRange 0
  let d ← domainAt f 1
  let cls ← classOf s f 2
  need (u8 f 3 == 0 || (kind == 3 && u8 f 3 == 1)) eRange 3
  let n := u16 f 4
  need (svcSizeOk kind n) eRange 4
  reserved f 6 2
  classPermitted s f.desk cls 2
  allocatable s d
  let m := s.mult d
  let w := chargeOf (svcCycles kind n) m
  let outs := Svc.outputs kind (u8 f 3) n
  within s f.desk 8 w
  within s f.desk 4 (outs * m)
  let mine := s.svcs kind
  need (mine.length < svcLimit kind) eNoResource
  let ifb := if kind == 3 then (freeRun (mine.map fun p => (p.2.ifb, 1)) 1 512).getD 0 else 0xFFFF
  let ins := match kind with
    | 1 => n
    | 2 => n
    | 3 => 5
    | 5 => 2
    | _ => 0
  let t ← seat s f d { w := w, rd := ins * m, wr := outs * m }
  match (s.tab tSvc).pick 1 1 0 (2 ^ 20) with
  | none => .error { status := eNoResource }
  | some i =>
    let v : Svc := { kind := kind, mode := u8 f 3, size := n, firstRing := 0, ifb := ifb, core := t.core, vals := [], pend := [],
                     twins := [], live := [], keys := List.replicate 4 false, keyRamps := List.replicate 4 (GainRec.rest 0#32),
                     dim := PVal.rest 0x3601 0 .db, est := [], gOld := [], gNew := [], solos := [], switch := none,
                     active := false }
    let s := (s.addObj { ty := tSvc, idx := i, gen := 1, desk := f.desk, cls := cls, dom := d, freeing := false, job := none,
                         staged := 0, charge := w, safe := 0, epoch := s.epoch, kind := .svc v.startMix }).useCore t.core d
    let h := ((s.objAt tSvc i).map Obj.handle).getD 0
    let (r, s) ← allocRings s f.desk cls d outs 0 h 8 0
    let s := s.upd h fun x => x.onSvc fun v => { v with firstRing := r }
    s.seated f 0x0D01 h d [t] (le 4 h ++ le 4 (s.ringHandle r) ++ le 2 ifb ++ le 2 0)

def opSvcAlloc : RuziaOp := ⟨0x0D01, .change, false, len 8, svcAllocBody⟩

/-- `svc.alloc`. -/
def execSvcAlloc (f : CmdFrame) (s : State) : Host.Outcome State Fault Refusal :=
  ruzia opSvcAlloc f s

def opSvcFree : RuziaOp := ⟨0x0D02, .change, false, len 8, freeBody [tSvc] anyFree noBefore⟩

/-- `svc.free`. -/
def execSvcFree (f : CmdFrame) (s : State) : Host.Outcome State Fault Refusal :=
  ruzia opSvcFree f s

def svcWrite : ParamWrite := plainWrite 0x0D03 svcSpec 1

def opSvcParamSet : RuziaOp := ⟨0x0D03, .change, false, paramLen, paramSetBody 0x0D03 [tSvc] svcWrite⟩

/-- `svc.param.set`. -/
def execSvcParamSet (f : CmdFrame) (s : State) : Host.Outcome State Fault Refusal :=
  ruzia opSvcParamSet f s

/-- `svc.param.get`: an oscillator's FREQ in use is clamped to 0.45 fs (R275). -/
def svcUse (s : State) (o : Obj) (id : Nat) (p : PSpec) : Nat × State :=
  if id == 0x3701 then (min (valOf o.params.vals id p.dflt p.mode).use (s.fs o.dom * 450), s) else plainUse s o id p

def opSvcParamGet : RuziaOp := ⟨0x0D04, .read, false, getLen, paramGetBody [tSvc] svcSpec svcUse⟩

def execSvcParamGet (f : CmdFrame) (s : State) : Host.Outcome State Fault Refusal :=
  ruzia opSvcParamGet f s

/-- Launch one ramp or step of a Service; MUTE ramps each oscillator channel, MONITOR_DIM ramps while a source is active. -/
def Svc.launchVal (v : Svc) (c : PChange) : Svc :=
  match svcTable v c.id with
  | none => v
  | some p =>
    let old := valOf v.vals c.id p.dflt p.mode
    if c.id == 0x3703 then
      let vs := setVal v.vals { old with use := c.value }
      { v with vals := (List.range v.size).foldl (fun vs k =>
          let b := if bit c.value k then 1 else 0
          let x := valOf vs (signId k) 0 .mute
          if x.use == b then vs else setVal vs (x.launch .mute b c.t)) vs }
    else { v with vals := setVal v.vals (old.launch p.mode c.value (if c.id == 0x3801 && !v.active then 0 else c.t)) }

def Svc.launchVals (j : Nat) : List PChange → Svc → Svc
  | [], v => { v with pend := [] }
  | c :: cs, v => if c.s ≤ j then Svc.launchVals j cs (v.launchVal c) else { v with pend := c :: cs }

/-- A key transition of an IFB output (R274): its factor ramps, and the dim factor with it when the dim state changes. -/
def Svc.key (v : Svc) (k : Nat) (press settle : Bool) : Svc :=
  if v.keys.getD k false == press then v else
  let t := if settle then 0 else (v.val (if press then 0x3606 else 0x3607)).use
  let keys := modAt v.keys k fun _ => press
  let was := v.keys.any id
  let is := keys.any id
  { v with keys := keys, keyRamps := modAt v.keyRamps k fun r => GainRec.start (if press then oneW else 0#32) r.value t,
           dim := if was == is then v.dim else v.dim.launch .db (if is then (v.val 0x3601).use else 0) t }

/-- A source's new fade towards present or absent. -/
def Solo.aim (x : Solo) (on : Bool) (t : Nat) : Solo :=
  { x with leaving := !on, fade := GainRec.start (if on then oneW else 0#32) x.fade.value t }

/-- A change of solo sources at sample `j` (R276). -/
def Svc.setSolos (v : Svc) (c : SChange) (j : Nat) (settle : Bool) : Svc :=
  let t := if settle then 0 else (v.val 0x3802).use
  let now := (v.solos.filter fun x => !x.leaving).map fun x => (x.obj, x.chan, x.mode)
  let next := applySources now c
  let kept := v.solos.map fun x =>
    let on := next.contains (x.obj, x.chan, x.mode)
    if on == !x.leaving then x else x.aim on t
  let new := (next.filter fun k => !(v.solos.any fun x => (x.obj, x.chan, x.mode) == k)).map fun k =>
    ({ obj := k.1, chan := k.2.1, mode := k.2.2, fade := GainRec.start oneW 0#32 t, leaving := false } : Solo)
  let is := !next.isEmpty
  { v with solos := kept ++ new, active := is,
           switch := if is == v.active then v.switch else some (j, if settle then 0 else (v.val 0x3803).use) }

/-- One live change of a Service. -/
def Svc.launchLive (v : Svc) (c : SChange) (j : Nat) (settle : Bool) : Svc :=
  if v.kind == 3 then v.key c.input c.press settle else v.setSolos c j settle

/-- Live changes that have come by sample `j`, in the order of R54. -/
def Svc.launchLives (v : Svc) (j : Nat) : Svc :=
  let due := (v.live.filter fun c => c.s ≤ j).inOrder fun a b => a.s < b.s || (a.s == b.s && a.order ≤ b.order)
  due.foldl (fun v c => v.launchLive c j false) { v with live := v.live.filter fun c => c.s > j }

/-- Queue a live change, or put it in force at once where the domain processes nothing. -/
def State.liveChange (s : State) (o : Obj) (w : When) (c : SChange) : State :=
  s.upd o.handle fun x => x.onSvc fun v =>
    if w.now then v.launchLive c (s.idx o.dom) true else { v with live := v.live ++ [{ c with s := w.s }] }

/-- IFB outputs a MAP names, each checked (R335). -/
def talkTargets (s : State) (f : CmdFrame) : Except Err (List (Obj × Svc)) :=
  ((List.range 512).filter fun i => bit (u8 f (20 + i / 8)) (i % 8)).mapM fun i =>
    match (s.svcs 3).find? fun p => p.2.ifb == i with
    | none => .error { status := eHandle, field := 20 + i / 8 }
    | some p => do
      owned f p.1.desk p.1.handle (20 + i / 8)
      .ok p

def svcTalkBody : Body := fun s f => do
  let ps ← talkTargets s f
  need (u8 f 0 ≤ 3) eRange 0
  need (u8 f 1 ≤ 1) eRange 1
  reserved f 2 2
  need (!ps.isEmpty) eRange 20
  let l ← launchAt s f 4
  ps.forM fun p => settled p.1 20
  let ws ← ps.mapM fun p => schedule s l p.1.dom 0 false 4
  ws.forM fun w => lateCheck f w
  let (n, s) := s.stamp
  let s := (ps.zip ws).foldl (fun s p =>
    (s.liveChange p.1.1 p.2 { order := n, s := 0, input := u8 f 0, press := u8 f 1 == 1, exclusive := false, sources := [] }).slipEvent
      f 0x0D05 1 p.2) s
  okResp s (le 8 ((ws.head?.map When.index).getD 0))

def opSvcTalk : RuziaOp := ⟨0x0D05, .change, false, len 84, svcTalkBody⟩

/-- `svc.talk`. -/
def execSvcTalk (f : CmdFrame) (s : State) : Host.Outcome State Fault Refusal :=
  ruzia opSvcTalk f s

def svcSoloBody : Body := fun s f => do
  let o ← resolve s [tSvc] (u32 f 0) 0
  let n := u16 f 6
  let xs ← eachItem (fun i => atItem i (resolve s [tStrip, tBus] (u32 f (24 + 8 * i)) (24 + 8 * i))) n 0
  owned f o.desk o.handle
  match o.svc? with
  | none => .error { status := eHandle, field := 0, handle := o.handle }
  | some v =>
    need (v.kind == 5) eHandle 0 o.handle
    need (u8 f 4 ≤ 1) eRange 4
    reserved f 5 1
    need (n ≤ 26) eRange 6
    let srcs ← eachItem (fun i => atItem i do
      let b := 24 + 8 * i
      let x := xs[i]?
      need (u8 f (b + 4) < ((x.bind Obj.chan?).map (·.width)).getD 0) eRange (b + 4)
      need (u8 f (b + 5) ≤ 1) eRange (b + 5)
      need (u8 f (b + 6) ≤ 1) eRange (b + 6)
      reserved f (b + 7) 1
      .ok (u32 f b, u8 f (b + 4), u8 f (b + 5), u8 f (b + 6) == 1)) n 0
    let l ← launchAt s f 8
    settled o
    need (xs.all fun x => x.dom == o.dom && !x.freeing) eState 24
    let w ← schedule s l o.dom 0 false 8
    let (k, s) := s.stamp
    let s := s.liveChange o w { order := k, s := 0, input := 0, press := false, exclusive := bit (u8 f 4) 0, sources := srcs }
    let after := ((s.obj o.handle).bind Obj.svc?).elim [] Svc.acceptedSolos
    need (after.length ≤ 256) eNoResource 0 o.handle
    need (srcs.all fun x => !x.2.2.2 || s.tapsOn x.1 x.2.1 ≤ 8) eNoResource 24
    lateCheck f w
    okResp (s.slipEvent f 0x0D06 1 w)

def opSvcSoloSet : RuziaOp := ⟨0x0D06, .change, false, lenCount 24 6 8, svcSoloBody⟩

/-- `svc.solo.set`. -/
def execSvcSoloSet (f : CmdFrame) (s : State) : Host.Outcome State Fault Refusal :=
  ruzia opSvcSoloSet f s

/-! ## Captures -/

def CapState.code : CapState → Nat
  | .rolling => 0
  | .freezing => 1
  | .frozen => 2
  | .playing => 3

def capSpec (_s : State) (o : Obj) (id : Nat) : Option PSpec :=
  o.capture?.bind fun c => match id with
    | 0x3900 => some { lo := 0, hi := c.length, dflt := 0, mode := .step }
    | 0x3901 => some levelSpec
    | 0x3902 => some { lo := 0, hi := 96000, dflt := 480, mode := .step }
    | _ => none

/-- Position of a window's oldest sample (R278). -/
def Capture.start (c : Capture) : Int := (c.f : Int) + c.post - c.length

/-- The word of a channel at a window position; nothing recorded reads 0.0. -/
def Capture.at (c : Capture) (pos : Int) (ch : Nat) : Word :=
  if pos < 0 then 0#32 else
  match c.record.find? fun r => (r.1 : Int) == pos with
  | some r => r.2.getD ch 0#32
  | none => 0#32

/-- Discard the window and record again from route index `i`. -/
def Capture.roll (c : Capture) (i : Nat) : Capture :=
  { c with st := .rolling, record := [], firstIndex := i, play := none, release := none, f := 0, post := 0 }

def captureInfoBody : Body := fun s f => do
  let o ← resolve s [tCapture] (u32 f 0) 0
  match o.capture? with
  | none => .error { status := eHandle, field := 0, handle := o.handle }
  | some c =>
    okResp s (o.prefixBytes s ++ le 1 c.st.code ++ le 1 0 ++ le 2 c.channels ++ le 4 c.length ++ le 8 c.firstIndex ++ le 8 c.f)

def opCaptureInfo : RuziaOp := ⟨0x1200, .read, false, len 4, captureInfoBody⟩

/-- `capture.info`. -/
def execCaptureInfo (f : CmdFrame) (s : State) : Host.Outcome State Fault Refusal :=
  ruzia opCaptureInfo f s

/-- Samples of the capture region in use, and channels in use with m per channel (R260, R277). -/
def captureUsed (s : State) : Nat :=
  sumNat (s.objs.map fun o => (o.capture?.map fun c => c.channels * c.length).getD 0)

def captureChannels (s : State) : Nat :=
  sumNat (s.objs.map fun o => (o.capture?.map fun c => c.channels * s.mult o.dom).getD 0)

def captureAllocBody : Body := fun s f => do
  let d ← domainAt f 0
  let cls ← classOf s f 1
  let n := u16 f 2
  let length := u32 f 4
  need (1 ≤ n && n ≤ 256) eRange 2
  need (1 ≤ length && length ≤ 120 * s.fs d) eRange 4
  classPermitted s f.desk cls 1
  allocatable s d
  let m := s.mult d
  let w := chargeOf (192 * n) m
  within s f.desk 8 w
  within s f.desk 4 (n * m)
  need ((s.ofType tCapture).length < 8) eNoResource
  need (captureChannels s + n * m ≤ 256) eNoResource
  need (captureUsed s + n * length ≤ 1610612736) eNoResource
  let t ← seatNow s d { w := w, rd := n * m, wr := n * m }
  match (s.tab tCapture).pick 1 1 0 (2 ^ 20) with
  | none => .error { status := eNoResource }
  | some i =>
    let s := (s.addObj { ty := tCapture, idx := i, gen := 1, desk := f.desk, cls := cls, dom := d, freeing := false, job := none,
                         staged := 0, charge := w, safe := 0, epoch := s.epoch,
                         kind := .capture { channels := n, length := length, st := .rolling, firstIndex := 8 * s.ash d, f := 0,
                                            post := 0, tPlay := 480, firstRing := 0, core := t.core, record := [], play := none,
                                            release := none, vals := [], pend := [] } }).useCore t.core d
    let h := ((s.objAt tCapture i).map Obj.handle).getD 0
    let (r, s) ← allocRings s f.desk cls d n 0 h 8 0
    let s := s.upd h fun x => x.onCapture fun c => { c with firstRing := r }
    s.seated f 0x1201 h d [t] (le 4 h ++ le 4 (s.ringHandle r))

def opCaptureAlloc : RuziaOp := ⟨0x1201, .change, false, len 8, captureAllocBody⟩

/-- `capture.alloc`. -/
def execCaptureAlloc (f : CmdFrame) (s : State) : Host.Outcome State Fault Refusal :=
  ruzia opCaptureAlloc f s

def opCaptureFree : RuziaOp := ⟨0x1202, .change, false, len 8, freeBody [tCapture] anyFree noBefore⟩

/-- `capture.free`. -/
def execCaptureFree (f : CmdFrame) (s : State) : Host.Outcome State Fault Refusal :=
  ruzia opCaptureFree f s

/-- Start a freeze at index `i` (R278): POST as its changes leave it there. -/
def Obj.freezeAt (o : Obj) (i : Nat) : Obj :=
  o.onCapture fun c => { c with st := .freezing, f := i, post := valAt o.params 0x3900 0 i }

/-- A Capture in a state that accepts the command, with no release under way. -/
def inCapState (o : Obj) (ok : List CapState) : Except Err Unit :=
  need ((o.capture?.map fun c => ok.contains c.st && c.release.isNone).getD false) eState 0 o.handle

/-- The index a state command takes: its launch, or in a domain that processes nothing the present one. -/
def When.indexIn (w : When) (s : State) (d : Nat) : Nat := if w.now then s.idx d else w.s

def captureFreezeBody : Body := fun s f => do
  let o ← resolve s [tCapture] (u32 f 0) 0
  owned f o.desk o.handle
  let l ← launchAt s f 4
  settled o
  inCapState o [.rolling]
  let w ← schedule s l o.dom 0 false 4
  lateCheck f w
  let i := w.indexIn s o.dom
  okResp ((s.upd o.handle fun x => x.freezeAt i).slipEvent f 0x1203 1 w) (le 8 (i % farMark))

def opCaptureFreeze : RuziaOp := ⟨0x1203, .change, false, len 20, captureFreezeBody⟩

/-- `capture.freeze`. -/
def execCaptureFreeze (f : CmdFrame) (s : State) : Host.Outcome State Fault Refusal :=
  ruzia opCaptureFreeze f s

def capturePlayBody : Body := fun s f => do
  let o ← resolve s [tCapture] (u32 f 0) 0
  owned f o.desk o.handle
  match o.capture? with
  | none => .error { status := eHandle, field := 0, handle := o.handle }
  | some c =>
    let start := u32 f 4
    let n := u32 f 8
    need (start + n ≤ c.length) eRange 4
    let l ← launchAt s f 12
    let w ← schedule s l o.dom 0 false 12
    let i := w.indexIn s o.dom
    let t := valAt o.params 0x3902 480 i
    need (2 * t ≤ n) eRange 8
    settled o
    inCapState o [.frozen]
    lateCheck f w
    okResp ((s.upd o.handle fun x => x.onCapture fun c =>
      { c with st := .playing, tPlay := t, play := some { s := i, start := start, count := n, stop := none } }).slipEvent f 0x1204 1 w)
      (le 8 (i % farMark))

def opCapturePlay : RuziaOp := ⟨0x1204, .change, false, len 28, capturePlayBody⟩

/-- `capture.play`. -/
def execCapturePlay (f : CmdFrame) (s : State) : Host.Outcome State Fault Refusal :=
  ruzia opCapturePlay f s

def captureStopBody : Body := fun s f => do
  let o ← resolve s [tCapture] (u32 f 0) 0
  owned f o.desk o.handle
  let l ← launchAt s f 4
  settled o
  inCapState o [.playing]
  let w ← schedule s l o.dom 0 false 4
  lateCheck f w
  okResp ((s.upd o.handle fun x => x.onCapture fun c =>
    { c with play := c.play.map fun p => { p with stop := some (w.indexIn s o.dom) } }).slipEvent f 0x1205 1 w)

def opCaptureStop : RuziaOp := ⟨0x1205, .change, false, len 20, captureStopBody⟩

/-- `capture.stop`. -/
def execCaptureStop (f : CmdFrame) (s : State) : Host.Outcome State Fault Refusal :=
  ruzia opCaptureStop f s

def captureReleaseBody : Body := fun s f => do
  let o ← resolve s [tCapture] (u32 f 0) 0
  owned f o.desk o.handle
  settled o
  inCapState o [.frozen]
  okResp (s.upd o.handle fun x => x.onCapture fun c =>
    if (s.dom o.dom).runs then { c with release := some (s.ash o.dom + 1) } else c.roll (s.idx o.dom))

def opCaptureRelease : RuziaOp := ⟨0x1206, .change, false, len 4, captureReleaseBody⟩

/-- `capture.release`: ROLLING again at the next ashlar boundary. -/
def execCaptureRelease (f : CmdFrame) (s : State) : Host.Outcome State Fault Refusal :=
  ruzia opCaptureRelease f s

/-- Window offsets `start` on, interleaved, as bytes (R279). -/
def Capture.window (c : Capture) (ch n start : Nat) : Nat → List Byte
  | 0 => []
  | k + 1 => ((List.range n).flatMap fun i => leWord (c.at (c.start + start) (ch + i))) ++ c.window ch n (start + 1) k

def captureReadBody : Body := fun s f => do
  let o ← resolve s [tCapture] (u32 f 0) 0
  owned f o.desk o.handle
  match o.capture? with
  | none => .error { status := eHandle, field := 0, handle := o.handle }
  | some c =>
    let n := u16 f 6
    need (u16 f 4 < c.channels) eRange 4
    need (1 ≤ n && u16 f 4 + n ≤ c.channels) eRange 6
    need (u32 f 8 + u32 f 12 ≤ c.length) eRange 8
    let b ← bulkAt s f 16 1 0xFFFFFFFF
    need (b.len == 4 * n * u32 f 12) eLength 20
    settled o
    inCapState o [.frozen, .playing]
    mayDefer s f
    accResp (s.deferOut f 0x1207 o.handle b (c.window (u16 f 4) n (u32 f 8) (u32 f 12)))

def opCaptureRead : RuziaOp := ⟨0x1207, .read, false, len 32, captureReadBody⟩

/-- `capture.read`. -/
def execCaptureRead (f : CmdFrame) (s : State) : Host.Outcome State Fault Refusal :=
  ruzia opCaptureRead f s

def captureWrite : ParamWrite := plainWrite 0x1208 capSpec 0

def opCaptureParamSet : RuziaOp := ⟨0x1208, .change, false, paramLen, paramSetBody 0x1208 [tCapture] captureWrite⟩

/-- `capture.param.set`. -/
def execCaptureParamSet (f : CmdFrame) (s : State) : Host.Outcome State Fault Refusal :=
  ruzia opCaptureParamSet f s

/-- A Capture whose stop index has been recorded enters FROZEN, at the end of slot `d.next - 1` (R277, R278). -/
def State.freezeEnd (s : State) (o : Obj) : State :=
  match o.capture? with
  | none => s
  | some c =>
    if c.st == .freezing && c.f + c.post ≤ 8 * ((s.dom o.dom).next - 1) then
      (s.upd o.handle fun x => x.onCapture fun c => { c with st := .frozen }).raiseObj o.desk 0x1201 (le 4 o.handle ++ le 4 0 ++ le 8 c.f)
    else s

/-- First sample after a playback. -/
def Play.after (p : Play) (t : Nat) : Nat :=
  match p.stop with
  | some i => min (i + t) (p.s + p.count)
  | none => p.s + p.count

/-- A playback whose samples have all been written returns the Capture to FROZEN. -/
def State.playEnd (s : State) (o : Obj) : State :=
  match o.capture? with
  | none => s
  | some c =>
    match c.play with
    | some p =>
      if c.st == .playing && p.after c.tPlay ≤ 8 * (s.dom o.dom).next then
        (s.upd o.handle fun x => x.onCapture fun c => { c with st := .frozen, play := none }).raiseObj o.desk 0x1203
          (le 4 o.handle ++ le 4 0 ++ le 8 (p.after c.tPlay))
      else s
    | none => s

/-- The stop index of a freeze has been recorded. -/
def execCaptureStopIndexReached (capture : Nat) (s : State) : Host.Outcome State Fault Refusal :=
  .next (if !s.dieOn then s else match s.obj capture with | some o => s.freezeEnd o | none => s)

/-- The last sample of a playback has been written. -/
def execCapturePlayEnd (capture : Nat) (s : State) : Host.Outcome State Fault Refusal :=
  .next (if !s.dieOn then s else match s.obj capture with | some o => s.playEnd o | none => s)

end Sys2Proof.Machine
end

