-- ==== Sys2Proof/Machine/Scenes.lean ====
section
/-! DEFINITION. Scenes (R206-R212, R229, R331): what a store captures, the commands that keep Scenes, and how a recall's parts
are settled against the objects as they stand. -/
namespace Sys2Proof.Machine

/-- Marker of a captured node image or member list. -/
def wholeMark : Nat := 0xFFFFFFFF

/-- Every identifier a parameter table may hold (R131). -/
def paramIds : List Nat := List.range 0x4000

/-- The table of an object's parameters, as far as a Scene covers it: category 0 Strips, 1 Buses, 6 Services and Meters. -/
def sceneSpec (s : State) (o : Obj) : Nat → Option PSpec :=
  match o.kind with
  | .chan c => chanSpec c (s.mult o.dom)
  | .svc _ => svcSpec s o
  | .meter _ => meterSpec s o
  | _ => fun _ => none

def paramCat (o : Obj) : Option Nat :=
  match o.kind with
  | .chan c => some (if c.role == 0 then 0 else 1)
  | .svc _ => some 6
  | .meter _ => some 6
  | _ => none

/-- The target of a parameter: the last value accepted (R209). -/
def targetOf (o : Obj) (id : Nat) (p : PSpec) : Nat :=
  match o.kind with
  | .chan c => if p.mode == .enable then c.enable else (valOf c.vals id p.dflt p.mode).written
  | _ => (valOf o.params.vals id p.dflt p.mode).written

/-- Offset a Group will have. -/
def Group.target (g : Group) : Nat := g.offset

/-- The reading a route will have once its waiting changes have launched. -/
def Route.target (r : Route) : Nat × Nat := r.waiting.foldl (fun p c => c.reading p) (r.source, r.offset)

/-- Parts of one object in a scope (R207, R209). -/
def capture (s : State) (scope : Nat) (o : Obj) : List Part :=
  let h := o.handle
  let params := match paramCat o with
    | some cat => if bit scope cat then paramIds.filterMap fun id =>
        (sceneSpec s o id).map fun p => { cat := cat, obj := h, sub := id, sub2 := 0, value := targetOf o id p } else []
    | none => []
  let route := match o.route? with
    | some r => if bit scope 2 then
        [{ cat := 2, obj := h, sub := 0, sub2 := 0, value := r.target.1 }, { cat := 2, obj := h, sub := 1, sub2 := 0, value := r.target.2 }]
        else []
    | none => []
  let nodes := match o.tiles? with
    | some t => if bit scope 3 then
        { cat := 3, obj := h, sub := wholeMark, sub2 := 0, value := 0 } ::
          t.nodes.map fun n => { cat := 3, obj := h, sub := n.row, sub2 := n.col, value := n.gain }
        else []
    | none => []
  let group := match o.group? with
    | some g =>
      (if bit scope 4 then [{ cat := 4, obj := h, sub := 0, sub2 := 0, value := g.target }] else []) ++
      (if bit scope 5 then { cat := 5, obj := h, sub := wholeMark, sub2 := 0, value := 0 } ::
          g.accepted.map fun m => { cat := 5, obj := h, sub := m.1, sub2 := m.2, value := 1 } else [])
    | none => []
  params ++ route ++ nodes ++ group

/-- Object kinds a Scene covers (R208). -/
def sceneKind (o : Obj) : Bool :=
  match o.kind with
  | .chan _ => true
  | .route _ => true
  | .tiles _ => true
  | .group _ => true
  | .svc _ => true
  | .meter _ => true
  | _ => false

/-- Bytes a Scene takes: 4 per node of the tile sets it covers (R210), the rest open. -/
def sceneSize (s : State) (objs : List Nat) (parts : List Part) : Nat :=
  let sets := (parts.filter fun p => p.cat == 3 && p.sub == wholeMark).map (·.obj)
  let nodes := sumNat (sets.map fun h => (((s.obj h).bind Obj.tiles?).map fun t => t.rows * t.cols).getD 0)
  Config.sceneBytes objs.length (parts.filter fun p => p.cat != 3).length + 4 * nodes

def SceneBody.empty : SceneBody :=
  { scope := 0, tTwin := 480, w := 1024, tRamp := 480, tRoute := 480, tNode := 480, lawTwin := 0, lawRoute := 1, objects := [],
    parts := [], bytes := 0 }

/-! ## Commands -/

def sceneInfoBody : Body := fun s f => do
  let o ← resolve s [tScene] (u32 f 0) 0
  match o.scene? with
  | none => .error { status := eHandle, field := 0, handle := o.handle }
  | some x => okResp s (o.prefixBytes s ++ le 2 x.number ++ le 2 0 ++ le 4 x.body.scope ++ le 4 x.body.objects.length ++
      le 4 x.body.bytes ++ le 8 x.ashlar)

def opSceneInfo : RuziaOp := ⟨0x0A40, .read, false, len 4, sceneInfoBody⟩

/-- `scene.info`. -/
def execSceneInfo (f : CmdFrame) (s : State) : Host.Outcome State Fault Refusal :=
  ruzia opSceneInfo f s

/-- A T or W field with its default. -/
def timeAt (f : CmdFrame) (o limit dflt : Nat) : Except Err Nat := tAt f o limit dflt

/-- Steps 15 and 16 of a store into a new Scene (R210). -/
def storeLimit (s : State) (desk : Nat) (again : Bool) : Except Err Unit := do
  within s desk 9 (if again then 0 else 1)
  need (again || (s.ofType tScene).length < 1024) eNoResource

/-- Deferred: a limit it exceeds is reported by SCENE_STORED (R309 steps 15 and 16). -/
def sceneStoreBody : Body := fun s f => do
  let n := u16 f 30
  need (n ≤ 52) eRange 30
  let old ← if u32 f 0 == 0 then .ok none else (resolve s [tScene] (u32 f 0) 0).map some
  let named ← eachItem (fun i => atItem i do
    let o ← resolve s [tStrip, tBus, tRoute, tBlock, tGroup, tSvc, tMeter] (u32 f (32 + 4 * i)) (32 + 4 * i)
    need (sceneKind o) eHandle (32 + 4 * i) o.handle
    .ok o) n 0
  match old with
  | some o => owned f o.desk o.handle
  | none => .ok ()
  let _ ← named.foldlM (fun (i : Nat) o => do
    owned f o.desk o.handle (32 + 4 * i)
    .ok (i + 1)) 0
  need (u32 f 4 < 128) eRange 4
  let tTwin ← timeAt f 8 96000 480
  let w ← timeAt f 12 32768 1024
  let tRamp ← timeAt f 16 96000 480
  let tRoute ← timeAt f 20 96000 480
  let tNode ← timeAt f 24 65535 480
  let lawTwin ← lawAt f 28 0
  let lawRoute ← lawAt f 29 1
  match old with
  | some o => settled o
  | none => .ok ()
  mayDefer s f
  match storeLimit s f.desk old.isSome with
  | .error e => accResp (s.defer f 0x0A41 0 none 1 (if e.status == eQuota then 2 else 3))
  | .ok () =>
  let owner := (old.map (·.desk)).getD f.desk
  let objs := if n == 0 then s.objs.filter fun o => o.desk == owner && sceneKind o && !o.freeing else named
  let parts := objs.flatMap (capture s (u32 f 4))
  let hs := objs.map Obj.handle
  let b : SceneBody :=
    { scope := u32 f 4, tTwin := tTwin, w := w, tRamp := tRamp, tRoute := tRoute, tNode := tNode, lawTwin := lawTwin,
      lawRoute := lawRoute, objects := hs, parts := parts, bytes := sceneSize s hs parts }
  let (h, s) ← match old with
    | some o => Except.ok (o.handle, s)
    | none => match (s.tab tScene).pick 1 1 0 1024 with
      | none => .error { status := eNoResource }
      | some i =>
        let s := s.addObj { ty := tScene, idx := i, gen := 1, desk := f.desk, cls := 0xFF, dom := 3, freeing := false, job := none,
                            staged := 0, charge := 0, safe := 0, epoch := s.epoch,
                            kind := .scene { number := 0, body := SceneBody.empty, ashlar := 0, coming := none } }
        .ok (((s.objAt tScene i).map Obj.handle).getD 0, s)
  let s := (s.defer f 0x0A41 h none 1 (if old.isSome then 1 else 0)).upd h fun x => x.onScene fun y => { y with coming := some b }
  accResp s

def opSceneStore : RuziaOp := ⟨0x0A41, .change, false, fun f => f.len ≥ 32 && f.len == 32 + 4 * u16 f 30, sceneStoreBody⟩

/-- `scene.store`: captured at its acceptance (R303), kept at SCENE_STORE_COMPLETE. -/
def execSceneStore (f : CmdFrame) (s : State) : Host.Outcome State Fault Refusal :=
  ruzia opSceneStore f s

/-- Bytes of the flash scene library in use (R210). -/
def State.sceneUse (s : State) : Nat := sumNat (s.objs.map fun o => (o.scene?.map (·.body.bytes)).getD 0)

/-- The Scene enters the working copy and the flash library, unless it exceeds a limit of R210. -/
def execSceneStoreComplete (desk seq : Nat) (s : State) : Host.Outcome State Fault Refusal :=
  .next (if !s.serving then s else match s.jobs.find? fun j => j.desk == desk && j.seq == seq && j.op == 0x0A41 && j.stage == 1 with
    | none => s
    | some j =>
      if j.num ≥ 2 then s.complete j 0x0A45 (if j.num == 2 then eQuota else eNoResource) (le 4 0 ++ le 4 0 ++ le 4 0 ++ le 4 0) else
      match s.obj j.handle with
      | none => s.complete j 0x0A45 eHandle (le 4 j.handle ++ le 4 0 ++ le 4 0 ++ le 4 0)
      | some o =>
        match o.scene?.bind (·.coming) with
        | none => s
        | some b =>
          let others := s.sceneUse - ((o.scene?.map (·.body.bytes)).getD 0)
          let fits := b.bytes ≤ 16777216 && others + b.bytes ≤ 50331648
          if fits then
            let s := s.upd j.handle fun x => x.onScene fun y => { y with body := b, coming := none, ashlar := s.now }
            s.complete j 0x0A45 0 (le 4 j.handle ++ le 4 b.objects.length ++ le 4 b.bytes ++ le 4 0)
          else
            let s := s.upd j.handle fun x => x.onScene fun y => { y with coming := none }
            let s := s.complete j 0x0A45 eNoResource (le 4 j.handle ++ le 4 0 ++ le 4 0 ++ le 4 0)
            if j.num == 0 then (s.dropObj tScene o.idx).clearQuota o.desk else s)

/-- A recall of a Scene is in progress. -/
def sceneBusy (s : State) (h : Nat) : Bool := s.recalls.any fun r => r.scene == h

def sceneDeleteBody : Body := fun s f => do
  let o ← resolve s [tScene] (u32 f 0) 0
  owned f o.desk o.handle
  need (!(sceneBusy s o.handle) && !(s.openOn o.handle)) eBusy 0 o.handle
  okResp ((s.dropObj tScene o.idx).clearQuota o.desk)

def opSceneDelete : RuziaOp := ⟨0x0A42, .change, false, len 4, sceneDeleteBody⟩

/-- `scene.delete`. -/
def execSceneDelete (f : CmdFrame) (s : State) : Host.Outcome State Fault Refusal :=
  ruzia opSceneDelete f s

def sceneSafeBody : Body := fun s f => do
  let o ← resolve s [tStrip, tBus, tRoute, tBlock, tGroup, tSvc] (u32 f 0) 0
  need (sceneKind o) eHandle 0 o.handle
  owned f o.desk o.handle
  need (u32 f 4 < 128) eRange 4
  settled o
  okResp (s.upd o.handle fun x => { x with safe := u32 f 4 })

def opSceneSafeSet : RuziaOp := ⟨0x0A47, .change, false, len 8, sceneSafeBody⟩

/-- `scene.safe.set` (R208). -/
def execSceneSafeSet (f : CmdFrame) (s : State) : Host.Outcome State Fault Refusal :=
  ruzia opSceneSafeSet f s

def sceneNumberBody : Body := fun s f => do
  let o ← resolve s [tScene] (u32 f 0) 0
  owned f o.desk o.handle
  reserved f 6 2
  let n := u16 f 4
  settled o
  need (n == 0 || !(s.objs.any fun x => x.handle != o.handle && (x.scene?.any fun y => y.number == n))) eState 4 o.handle
  okResp (s.upd o.handle fun x => x.onScene fun y => { y with number := n })

def opSceneNumberSet : RuziaOp := ⟨0x0A48, .change, false, len 8, sceneNumberBody⟩

/-- `scene.number.set` (R229). -/
def execSceneNumberSet (f : CmdFrame) (s : State) : Host.Outcome State Fault Refusal :=
  ruzia opSceneNumberSet f s

/-! ## The parts of a recall (R208, R211, R212) -/

/-- What a recall changes on one object. -/
structure ObjParts where
  h : Nat
  cls : Nat
  dom : Nat
  recs : List (Nat × Nat)
  route : Option (Nat × Nat)
  nodes : List (Nat × Nat × Nat)
  offset : Option Nat
  joins : List (Nat × Nat × Bool)
  deriving DecidableEq, Repr

/-- Recalled, equal and skipped values. -/
structure Tally where
  recalled : Nat
  equal : Nat
  skipped : Nat
  deriving DecidableEq, Repr

def ObjParts.any (p : ObjParts) : Bool :=
  !p.recs.isEmpty || p.route.isSome || !p.nodes.isEmpty || p.offset.isSome || !p.joins.isEmpty

def Tally.add (a b : Tally) : Tally := ⟨a.recalled + b.recalled, a.equal + b.equal, a.skipped + b.skipped⟩

/-- Whether a parameter value may be recalled into an object as it stands. -/
def valueFits (o : Obj) (spec : Nat → Option PSpec) (id v : Nat) : Bool :=
  match spec id with
  | none => false
  | some p => p.ok v &&
    (match o.chan? with
     | none => true
     | some c =>
       (id != 0x0801 || !(bit c.enable 5)) &&
       (id != 0x0A00 || v == 0 || (if v == 1 then c.width ≤ 2 else c.width == 1)) &&
       !(c.role ≥ 2 && p.mode == .enable && bit v 7))

/-- Settle the parameter parts of an object. -/
def settleParams (s : State) (o : Obj) (ps : List Part) : List (Nat × Nat) × Tally :=
  let spec := sceneSpec s o
  ps.foldl (fun (acc : List (Nat × Nat) × Tally) p =>
    match spec p.sub with
    | none => (acc.1, acc.2.add ⟨0, 0, 1⟩)
    | some q =>
      if !(valueFits o spec p.sub p.value) then
        if targetOf o p.sub q == p.value then (acc.1, acc.2.add ⟨1, 1, 0⟩) else (acc.1, acc.2.add ⟨0, 0, 1⟩)
      else if targetOf o p.sub q == p.value then (acc.1, acc.2.add ⟨1, 1, 0⟩)
      else (acc.1 ++ [(p.sub, p.value)], acc.2.add ⟨1, 0, 0⟩)) ([], ⟨0, 0, 0⟩)

/-- Settle the route part of a route: SOURCE and OFFSET together, counted as one (DEDUCED, log entry 40). -/
def settleRoute (s : State) (o : Obj) (r : Route) (ps : List Part) : Option (Nat × Nat) × Tally :=
  match ps.find? (fun p => p.sub == 0), ps.find? (fun p => p.sub == 1) with
  | some a, some b =>
    let d := o.dom
    let m := match (s.obj r.source).bind Obj.ring? with
      | some g => g.mult
      | none => s.mult d
    let ok := match sourceOk s r.kind a.value d m 0 with
      | .ok _ => b.value ≤ offsetLimit s a.value && !r.deleting
      | .error _ => false
    let t := r.target
    if t == (a.value, b.value) then (none, ⟨1, 1, 0⟩)
    else if ok then (some (a.value, b.value), ⟨1, 0, 0⟩)
    else (none, ⟨0, 0, 1⟩)
  | _, _ => (none, ⟨0, 0, 0⟩)

/-- The SAFE mask of the object whose output ring a row reads. -/
def rowSafe (s : State) (h : Nat) (t : Tiles) (row : Nat) : Nat :=
  match s.routeTo (if t.tier == 1 then 5 else 6) row h with
  | some (_, r) => match (s.obj r.source).bind Obj.ring? with
    | some g => ((s.obj g.writer).map (·.safe)).getD 0
    | none => 0
  | none => 0

/-- Settle the node parts of a tile set: nodes the Scene does not list were at −∞; rows kept out by SAFE are not counted. -/
def settleNodes (s : State) (o : Obj) (t : Tiles) (ps : List Part) : List (Nat × Nat × Nat) × Tally :=
  if !(ps.any fun p => p.sub == wholeMark) then ([], ⟨0, 0, 0⟩) else
  let listed := ps.filter fun p => p.sub != wholeMark
  let inside := listed.filter fun p => p.sub < t.rows && p.sub2 < t.cols
  let extra := (t.nodes.filter fun n => !(inside.any fun p => p.sub == n.row && p.sub2 == n.col)).map fun n => (n.row, n.col, minusInf)
  let want := (inside.map fun p => (p.sub, p.sub2, p.value)) ++ extra
  let want := want.filter fun w => !(bit (rowSafe s o.handle t w.1) 3)
  let change := want.filter fun w => ((t.node w.1 w.2.1).map (·.gain)).getD minusInf != w.2.2
  let skipped := listed.length - inside.length
  let total := t.cols * ((List.range t.rows).filter fun r => !(bit (rowSafe s o.handle t r) 3)).length
  (change, ⟨total, total - change.length, skipped⟩)

/-- Settle the parts of a Group. -/
def settleGroup (s : State) (g : Group) (ps : List Part) : Option Nat × List (Nat × Nat × Bool) × Tally :=
  let off := ps.find? fun p => p.cat == 4
  let (o, k1) := match off with
    | some p => if g.target == p.value then ((none : Option Nat), (⟨1, 1, 0⟩ : Tally)) else (some p.value, ⟨1, 0, 0⟩)
    | none => (none, ⟨0, 0, 0⟩)
  let whole := ps.any fun p => p.cat == 5 && p.sub == wholeMark
  let want := (ps.filter fun p => p.cat == 5 && p.sub != wholeMark).map fun p => (p.sub, p.sub2)
  let live := want.filter fun m => ((s.obj m.1).bind Obj.tiles?).any fun t => m.2 < t.rows
  let now := g.accepted
  let add := live.filter fun m => !(now.contains m) && rowGroups s m.1 m.2 < 4
  let full := live.filter fun m => !(now.contains m) && !(rowGroups s m.1 m.2 < 4)
  let out := if whole then now.filter fun m => !(want.contains m) else []
  let k2 : Tally := ⟨live.length - full.length + out.length, live.length - full.length - add.length, want.length - live.length + full.length⟩
  (o, (add.map fun m => (m.1, m.2, true)) ++ out.map (fun m => (m.1, m.2, false)), k1.add k2)

/-- SAFE mask of the object that owns a route's sink (R208). -/
def sinkSafe (s : State) (r : Route) : Nat :=
  match s.obj r.sink with
  | some o => match o.block? with
    | some b => if b.host == 0 then o.safe else ((s.obj b.host).map (·.safe)).getD 0
    | none => o.safe
  | none => 0

/-- Parts counted one by one; a route's SOURCE and OFFSET count as one. -/
def partCount (ps : List Part) : Nat := (ps.filter fun p => p.sub != wholeMark && !(p.cat == 2 && p.sub == 1)).length

/-- All parts of one object in a scope. -/
def settleObj (s : State) (mask : Nat) (ps : List Part) (h : Nat) : Option ObjParts × Tally :=
  let mine := ps.filter fun p => p.obj == h && bit mask p.cat
  match s.obj h with
  | none => (none, ⟨0, 0, partCount mine⟩)
  | some o =>
    if o.freeing then (none, ⟨0, 0, partCount mine⟩) else
    let mine := mine.filter fun p => !(bit o.safe p.cat)
    let base : ObjParts := { h := h, cls := o.cls, dom := o.dom, recs := [], route := none, nodes := [], offset := none, joins := [] }
    match o.kind with
    | .route r =>
      let mine := if bit (sinkSafe s r) 2 then [] else mine
      let (x, k) := settleRoute s o r mine
      (some { base with route := x }, k)
    | .tiles t =>
      let (x, k) := settleNodes s o t mine
      (some { base with nodes := x }, k)
    | .group g =>
      let (x, j, k) := settleGroup s g mine
      (some { base with offset := x, joins := j }, k)
    | _ =>
      let (x, k) := settleParams s o mine
      (some { base with recs := x }, k)

/-- The parts of a recall in the order of R222, objects without a change left out, and the counts. -/
def settleScene (s : State) (b : SceneBody) (scope : Nat) : List ObjParts × Tally :=
  let (ps, k) := b.objects.foldl (fun (acc : List ObjParts × Tally) h =>
    let (x, k) := settleObj s (b.scope &&& scope) b.parts h
    match x with
    | some p => (if p.any then acc.1 ++ [p] else acc.1, acc.2.add k)
    | none => (acc.1, acc.2.add k)) ([], ⟨0, 0, 0⟩)
  (ps.inOrder fun a b => a.cls < b.cls || (a.cls == b.cls && a.h ≤ b.h), k)

end Sys2Proof.Machine
end

