-- ==== Sys2Proof/Machine/Recalls.lean ====
section
/-! DEFINITION. Recalls (R213-R228, R237): instants, staging, the staging horizon (R216-R220), Kerf waves (R221-R224), the
recall-time guarantee (R227), replanning (R225), withdrawal (R215) and completion (R214). -/
namespace Sys2Proof.Machine

/-! ## Instants: `num / den` seconds -/

abbrev Instant := Nat × Nat

/-- First sample of a rate at or after an instant (R51). -/
def idxOf (i : Instant) (fs : Nat) : Nat := ceilDiv (i.1 * fs) i.2

/-- An instant moved by `k` ticks of domain A (R218). -/
def State.addTicks (s : State) (i : Instant) (k : Nat) : Instant :=
  (i.1 * s.fs 0 + k * s.tickLen 0 * i.2, i.2 * s.fs 0)

/-- The domain A tick boundary after an instant. -/
def State.nextTick (s : State) (i : Instant) : Instant := ((idxOf i (s.fs 0) / s.tickLen 0 + 1) * s.tickLen 0, s.fs 0)

/-- The instant of a launch field; KIND 0 begins with the next domain A tick boundary. -/
def Launch.instant (l : Launch) (s : State) : Instant :=
  match l.kind with
  | 0 => (roundUp (s.idx 0 + 1) (s.tickLen 0), s.fs 0)
  | 1 => (l.val, s.fs l.dom)
  | _ => (l.val, secondQ)

/-- Ashlar of domain `d` that contains the instant at which domain A ashlar `c` begins (R216). -/
def State.ashIn (s : State) (d c : Nat) : Nat := indexAt (instantOf (8 * c) (s.fs 0)) (s.fs d) / 8

/-! ## Timing values of one recall -/

structure RTimes where
  tTwin : Nat
  w : Nat
  tRamp : Nat
  tRoute : Nat
  tNode : Nat
  lawTwin : Nat
  lawRoute : Nat
  deriving DecidableEq, Repr

/-- Overrides of R213 over a Scene's own values. -/
def timesOf (b : SceneBody) (overs : List Nat) : RTimes :=
  let v (i code dflt : Nat) : Nat := override (overs.getD i code) code dflt
  { tTwin := v 0 0xFFFFFFFF b.tTwin, w := v 1 0xFFFFFFFF b.w, tRamp := v 2 0xFFFFFFFF b.tRamp, tRoute := v 3 0xFFFFFFFF b.tRoute,
    tNode := v 4 0xFFFFFFFF b.tNode, lawTwin := v 5 0xFF b.lawTwin, lawRoute := v 6 0xFF b.lawRoute }

/-- The override fields at bytes 24 to 45 of R213. -/
def oversAt (f : CmdFrame) (o : Nat) : Except Err (List Nat) := do
  let t1 := u32 f o
  let w := u32 f (o + 4)
  let t2 := u32 f (o + 8)
  let t3 := u32 f (o + 12)
  let t4 := u32 f (o + 16)
  let big := 0xFFFFFFFF
  need (t1 ≤ 96000 || t1 == big) eRange o
  need (w ≤ 32768 || w == big) eRange (o + 4)
  need (t2 ≤ 96000 || t2 == big) eRange (o + 8)
  need (t3 ≤ 96000 || t3 == big) eRange (o + 12)
  need (t4 ≤ 65535 || t4 == big) eRange (o + 16)
  need (u8 f (o + 20) ≤ 2 || u8 f (o + 20) == 0xFF) eRange (o + 20)
  need (u8 f (o + 21) ≤ 2 || u8 f (o + 21) == 0xFF) eRange (o + 21)
  reserved f (o + 22) 2
  .ok [t1, w, t2, t3, t4, u8 f (o + 20), u8 f (o + 21)]

/-! ## Staging one object -/

/-- A frame header for changes a recall makes under a desk. -/
def recallFrame (desk seq : Nat) : CmdFrame :=
  { via := .pcie, desk := desk, seq := seq, flags := 0, res := 0, len := 0, payload := [] }

def exactWhen (i : Nat) : When := { s := i, tick := false, asked := i, slipped := false, now := false }

/-- TWIN parts of an object's values: by page for a Strip or Bus, all on page 0 for a Service. -/
def twinReqs (s : State) (o : Obj) (recs : List (Nat × Nat)) : List PageReq :=
  match o.kind with
  | .chan c => pageReqs c (s.mult o.dom) recs
  | .svc v =>
    let ofMode (m : Mode) := recs.filter fun r => (svcTable v r.1).any fun p => p.mode == m
    let l := ofMode .twin ++ ofMode .twin0
    if l.isEmpty then [] else [{ page := 0, vals := l, warm := !(ofMode .twin).isEmpty }]
  | _ => []

/-- Charge of one page's second instance. -/
def reqCharge (s : State) (o : Obj) (q : PageReq) : Nat :=
  match o.kind with
  | .chan c => twinCharge o c (s.mult o.dom) q
  | _ => if q.warm then o.charge else 0

/-- Stage the parameter parts of an object at index `i`. -/
def stageParams (s : State) (o : Obj) (x : RTimes) (desk seq id i n : Nat) (recs : List (Nat × Nat)) : Except Err State := do
  let f := recallFrame desk seq
  let reqs := twinReqs s o recs
  let twins : List Twin := reqs.map fun q =>
    { page := q.page, order := n, desk := desk, seq := seq, s := i, w := (if q.warm then x.w else 0), t := x.tTwin,
      law := (if q.page == 7 then 0 else x.lawTwin), vals := q.vals, charge := reqCharge s o q, recallOf := id }
  match o.chan? with
  | some c =>
    let m := s.mult o.dom
    let mask := ((recs.find? fun r => r.1 == 0).map (·.2)).getD c.enable
    let onBits := (maskBits mask).filter fun b => !(bit c.enable b)
    let add := sumNat (onBits.map (bitCharge c m))
    within s o.desk 8 add
    if bit mask 5 && !(bit c.enable 5 || bit c.enableUse 5) then
      need (s.delayUsed + delayTake (recs.foldl (fun c r => putVal c m r) c) m ≤ 1073741824) eNoResource
    let room := enableRoom s o c add 0
    need (add == 0 || room.isSome) eNoResource 0 o.handle
    let s ← switchMask o c mask i s
    let s := s.overCeiling o.desk o.handle c.core (add > 0 && ((room.map (·.1)).getD false))
    let s := if add == 0 then s else s.startMoves o.dom c.core ((room.map (·.2)).getD [])
    .ok (s.upd o.handle fun y => y.onChan fun c1 =>
      let c1 := { c1 with twins := c1.twins ++ twins }
      recs.foldl (fun c2 r =>
        match chanSpec c m r.1 with
        | none => c2
        | some p =>
          let old := valOf c2.vals r.1 p.dflt p.mode
          if p.mode == .enable then c2
          else if p.mode == .stored || !(c.pageOn r.1) then putVal c2 m r
          else
            let c2 := { c2 with vals := setVal c2.vals { old with written := r.2 } }
            if isTwinMode p.mode || p.mode == .object then c2
            else { c2 with pend := insertP { order := n, desk := desk, seq := seq, s := i, tick := false, id := r.1, value := r.2,
                                             t := x.tRamp, recallOf := id } c2.pend }) c1)
  | none =>
    let sp := sceneSpec s o
    .ok (s.upd o.handle fun y =>
      let p := recs.foldl (acceptPlain sp f (exactWhen i) n x.tRamp id) y.params
      y.setParams { p with twins := p.twins ++ twins })

/-- Stage the parts of one object for recall `id` at an instant. -/
def stageObj (s : State) (p : ObjParts) (x : RTimes) (desk seq id : Nat) (at' : Instant) : Except Err State :=
  match s.obj p.h with
  | none => .ok s
  | some o => do
    let (n, s) := s.stamp
    let i := idxOf at' (s.fs (if o.dom ≤ 2 then o.dom else 0))
    let s := s.upd p.h fun y => { y with staged := y.staged + 1 }
    match o.kind with
    | .route _ =>
      match p.route with
      | none => .ok s
      | some (src, off) =>
        let s ← admitReading s (src, off)
        .ok (s.modObj tRoute o.idx fun y => y.onRoute fun r =>
          { r with waiting := insertChange { order := n, desk := desk, seq := seq, s := i, src := some src, off := some off,
                                             cut := r.policy == 0, t := x.tRoute, law := x.lawRoute, recallOf := id } r.waiting })
    | .tiles t =>
      let term := termOf s p.h t (s.maxMult o.dom)
      .ok (s.upd p.h fun y => y.onTiles fun t =>
        let t := p.nodes.foldl (fun t r => t.written term r) t
        { t with pend := t.pend ++ p.nodes.zipIdx.map fun q =>
            { order := n * 131072 + q.2, s := i, row := q.1.1, col := q.1.2.1, gain := q.1.2.2, t := x.tNode, recallOf := id } })
    | .group _ =>
      let bs := (List.range 3).map fun d => (d, roundUp (idxOf at' (s.fs d)) (s.tickLen d))
      let s := match p.offset with
        | some v => queueGroup (s.upd p.h fun y => y.onGroup fun g => { g with offset := v }) p.h v x.tNode none bs id
        | none => s
      .ok (p.joins.foldl (fun s j => queueGroup s p.h 0 x.tNode (some (j.1, j.2.1, 1, j.2.2)) bs id) s)
    | _ => stageParams s o x desk seq id i n p.recs

/-! ## Moving and withdrawing staged parts -/

/-- Move an object's staged parts of a recall to index `i` (by domain for a Group); a TWIN already warming keeps its start. -/
def Obj.shift (s : State) (id : Nat) (at' : Instant) (o : Obj) : Obj :=
  let d := if o.dom ≤ 2 then o.dom else 0
  let i := idxOf at' (s.fs d)
  let now := s.idx d
  let twin (t : Twin) : Twin :=
    if t.recallOf != id then t
    else if t.first ≤ now && t.w != 0 then { t with s := i, w := t.w + (i - t.s) } else { t with s := i }
  let chg (c : PChange) : PChange := if c.recallOf == id then { c with s := i } else c
  match o.kind with
  | .route r => { o with kind := .route { r with waiting := r.waiting.map fun c => if c.recallOf == id then { c with s := i } else c } }
  | .tiles t => { o with kind := .tiles { t with pend := t.pend.map fun c => if c.recallOf == id then { c with s := i } else c } }
  | .group g => { o with kind := .group { g with pend := g.pend.map fun c =>
      if c.recallOf == id then { c with s := roundUp (idxOf at' (s.fs c.dom)) (s.tickLen c.dom) } else c } }
  | _ => o.setParams { vals := o.params.vals, pend := (o.params.pend.map chg).foldl (fun l c => insertP c l) [],
                       twins := o.params.twins.map twin }

/-- The value last accepted once the changes of a recall are gone. -/
def lastTarget (p : Params) (v : PVal) : Nat :=
  let l := (p.pend.filter fun c => c.id == v.id).map fun c => (c.order, c.value)
  let m := p.twins.flatMap fun t => (t.vals.filter fun u => u.1 == v.id).map fun u => (t.order, u.2)
  ((l ++ m).foldl (fun (b : Nat × Nat) x => if x.1 ≥ b.1 then x else b) (0, v.use)).2

/-- Undo the enables and disables a withdrawn TWIN carried. -/
def State.undoEnable (s : State) (h : Nat) (t : Twin) : State :=
  match (s.obj h).bind Obj.chan?, s.obj h with
  | some c, some o =>
    let m := s.mult o.dom
    let on := (t.vals.filter fun v => v.1 ≥ 0x10000 && v.2 == 1).map fun v => v.1 - 0x10000
    let off := (t.vals.filter fun v => v.1 ≥ 0x10000 && v.2 == 0).map fun v => v.1 - 0x10000
    let mask := off.foldl setBit (on.foldl clearBit c.enable)
    let pages := ((on.map bitPage).eraseDups).filter fun p => !(p == 11 && bits mask 11 8 != 0)
    let back := (off.map bitPage).eraseDups
    let s := s.upd h fun x => { (x.onChan fun c => { c with enable := mask }) with charge := x.charge - sumNat (on.map (bitCharge c m)) }
    let gone := s.objs.filter fun x => x.block?.any fun b => b.host == h && pages.contains b.page
    let s := gone.foldl (fun s x => (s.upd x.handle fun y => { y with freeing := true })) s
    let s := pages.foldl (fun s p => s.retireBlocks h p) s
    let kept := s.objs.filter fun x => x.freeing && (x.block?.any fun b => b.host == h && back.contains b.page)
    kept.foldl (fun s x =>
      let s := s.upd x.handle fun y => { y with freeing := false }
      let s := s.upd h fun y => y.onChan fun c => { c with blocks := (((x.block?.map (·.page)).getD 0), x.idx) :: c.blocks }
      let rs := s.routes.filter fun r => r.2.sink == x.handle && r.2.deleting
      rs.foldl (fun s r => s.modObj tRoute r.1.idx fun y =>
        { (y.onRoute fun z => { z with deleting := false, waiting := [] }) with freeing := false }) s) s
  | _, _ => s

/-- Withdraw the staged parts of a recall from one object (R215): its twins retire without a crossfade. -/
def State.unstageObj (s : State) (id h : Nat) : State :=
  match s.obj h with
  | none => s
  | some o =>
    let s := s.upd h fun y => { y with staged := y.staged - 1 }
    match o.kind with
    | .route _ => s.upd h fun y => y.onRoute fun r => { r with waiting := r.waiting.filter fun c => c.recallOf != id }
    | .tiles t =>
      let mine := t.pend.filter fun c => c.recallOf == id
      s.upd h fun y => y.onTiles fun t =>
        let rest := t.pend.filter fun c => c.recallOf != id
        let gain (n : Node) : Nat := ((rest.filter fun c => c.row == n.row && c.col == n.col).getLast?.map (·.gain)).getD n.use
        { t with pend := rest, nodes := t.nodes.map fun n =>
            if mine.any (fun c => c.row == n.row && c.col == n.col) then { n with gain := gain n } else n }
    | .group g =>
      let rest := g.pend.filter fun c => c.recallOf != id
      let off := ((rest.filter fun c => c.member.isNone).getLast?.map (·.value)).getD (g.offsetUse.headD 0)
      s.upd h fun y => y.onGroup fun g => { g with pend := rest, offset := off }
    | _ =>
      let p := o.params
      let gone := p.twins.filter fun t => t.recallOf == id
      let ids := (p.pend.filter fun c => c.recallOf == id).map (·.id) ++ gone.flatMap fun t => t.vals.map (·.1)
      let q : Params := { vals := p.vals, pend := p.pend.filter fun c => c.recallOf != id, twins := p.twins.filter fun t => t.recallOf != id }
      let vals := p.vals.map fun v => if ids.contains v.id then { v with written := lastTarget q v } else v
      let s := s.upd h fun y => y.setParams { q with vals := vals }
      gone.foldl (fun s t => s.undoEnable h t) s

/-- Withdraw every staged part of a recall. -/
def State.unstage (s : State) (r : Recall) : State := r.objs.foldl (fun s x => s.unstageObj r.id x.1) s

/-! ## Fitting (R221) -/

/-- Twin instances of recalls a desk starts in the domain A tick of `tick` (R226). -/
def twinStarts (_s : State) (o : Obj) (t : Twin) : Nat :=
  if t.recallOf == 0 || t.w == 0 then 0
  else match o.kind with
    | .chan c => if t.page == 1 then 0 else if t.page == 0 then max 1 (c.blocks.length) else 1
    | _ => 1

/-- Domain A tick in which a TWIN's warm-up starts. -/
def startTick (s : State) (o : Obj) (t : Twin) : Nat :=
  indexAt (instantOf t.first (s.fs o.dom)) (s.fs 0) / s.tickLen 0

def rateUse (s : State) (desk tick : Nat) : Nat :=
  let mine (t : Twin) : Bool := s.recalls.any fun r => r.id == t.recallOf && r.desk == desk
  sumNat (s.objs.map fun o => sumNat ((o.params.twins.filter fun t => mine t && startTick s o t == tick).map (twinStarts s o)))

/-- Domain A ashlar in which `n` node changes are loaded, loading from the end of ashlar `c` (R182, R217). -/
def loadEnd (s : State) (c n : Nat) : Nat :=
  if n == 0 then c
  else indexAt (instantOf (8 * (c + 1)) (s.fs 0) + ceilDiv n 4096 * 204800000 - 1) (s.fs 0) / 8

/-- Node changes a recall has staged. -/
def stagedNodes (s : State) (id : Nat) : Nat :=
  sumNat (s.objs.map fun o => (o.tiles?.map fun t => (t.pend.filter fun c => c.recallOf == id).length).getD 0)

/-- Which limits of R221 an object's staged parts of a recall exceed, as the BOUND bits of R224. -/
def limitOf (s : State) (id desk h : Nat) : Nat :=
  match s.obj h with
  | none => 0
  | some o =>
    let core := (coreOf o).getD 0
    let mine := o.params.twins.filter fun t => t.recallOf == id
    let b0 := s.red.mode == 0 && mine.any fun t => t.charge > 0 && !(twinFits s core 0 t.first t.after)
    let quota := (s.desk desk).quota.getD 9 0
    let b1 := desk != 0 && mine.any fun t => twinStarts s o t > 0 && rateUse s desk (startTick s o t) > quota
    let ks := s.kspans
    let b3 := o.route?.isSome && ks.length > 16384
    let b2 := match o.route? with
      | none => false
      | some r =>
        let fs := s.fs o.dom
        (r.waiting.filter fun x => x.recallOf == id && !x.isCut).any fun x =>
          let p := r.readingBefore x.s
          let b := instantOf (8 * (x.s / 8)) fs
          let e := instantOf (8 * ((x.s + x.t) / 8 + 1)) fs
          match (s.obj p.1).bind Obj.ring? with
          | none => false
          | some g => g.rows.any fun row => (ks.filter fun k => b ≤ k.b && k.b < e).any fun k => allowanceAt s ks row.1 k.b > 1024
    let b4 := match o.tiles? with
      | none => false
      | some t => t.tiles.eraseDups.any fun a => queueUsed s a > 131072
    flagAt b0 0 + flagAt b1 1 + flagAt b2 2 + flagAt b3 3 + flagAt b4 4

/-- An object's node changes of a recall are not loaded two ashlars before their launch (R223). -/
def loadsLate (s : State) (id c h : Nat) : Bool :=
  match s.obj h with
  | none => false
  | some o => o.tiles?.any fun t =>
      t.pend.any fun x => x.recallOf == id && s.ashIn o.dom (loadEnd s c (stagedNodes s id)) + 2 > x.s / 8

/-- The BOUND bits of an object that does not fit; the load of node changes is of the node queue. -/
def boundOf (s : State) (id desk c h : Nat) : Nat :=
  let b := limitOf s id desk h
  if loadsLate s id c h && !(bit b 4) then b + 16 else b

/-- The same test against standing allocations alone (R223). -/
def fitsAlone (s : State) (desk id h : Nat) : Bool :=
  match s.obj h with
  | none => true
  | some o =>
    let core := (coreOf o).getD 0
    let mine := o.params.twins.filter fun t => t.recallOf == id
    (s.red.mode != 0 || coreCharge s core + sumNat (mine.map (·.charge)) ≤ 160 * 64) &&
    (desk == 0 || sumNat (mine.map (twinStarts s o)) ≤ (s.desk desk).quota.getD 9 0) &&
    (match o.tiles? with
     | none => true
     | some t => t.tiles.eraseDups.all fun a => (t.pend.filter fun c => c.recallOf == id && t.arrayOf c.row c.col == a).length ≤ 131072)

/-! ## The staging horizon (R217) -/

/-- A TWIN of another change overlaps (R205). -/
def twinMeets (o : Obj) (id : Nat) (t : Twin) : Bool :=
  o.params.twins.any fun x => x.recallOf != id && x.page == t.page && x.first < max t.after (t.first + 1) && t.first < max x.after (x.first + 1)

/-- Why a staged object is not on time, in R218's codes; 0 when it is. -/
def lateReason (s : State) (id c loaded h : Nat) : Nat :=
  match s.obj h with
  | none => 0
  | some o =>
    let d := if o.dom ≤ 2 then o.dom else 0
    if o.dom ≤ 2 && !((s.dom d).launchable) then 0 else
    let cx := s.ashIn d c
    let twins := o.params.twins.filter fun t => t.recallOf == id
    let staging :=
      (twins.any fun t => if t.w == 0 then cx + 2 > t.s / 8 else t.first > s.idx d && 8 * (cx + 2) + t.w > t.s) ||
      (o.params.pend.any fun x => x.recallOf == id && cx + 2 > x.s / 8) ||
      (match o.kind with
       | .route r => r.waiting.any fun x => x.recallOf == id && cx + 2 > x.s / 8
       | .tiles t => t.pend.any fun x => x.recallOf == id && s.ashIn d loaded + 2 > x.s / 8
       | .group g => g.pend.any fun x => x.recallOf == id && (s.dom x.dom).launchable && s.ashIn x.dom c + 2 > x.s / 8
       | _ => false)
    if staging then 1
    else if twins.any (twinMeets o id) then 2
    else match o.route? with
      | none => 0
      | some r =>
        let others : Route := { r with waiting := r.waiting.filter fun x => x.recallOf != id }
        if r.waiting.any fun x => x.recallOf == id && (others.spans.any fun p => p.2 > x.s) then 3 else 0

/-! ## Waves (R222-R224) -/

/-- A plan under construction: the state with its parts staged, the open wave's launch and number, objects in it, each placed
object with its wave and class, and the BOUND of each closed wave. -/
structure WavePlan where
  s : State
  at' : Instant
  wave : Nat
  n : Nat
  placed : List (Nat × Nat × Nat)
  bounds : List Nat
  launches : List (Nat × Instant)
  deriving DecidableEq, Repr

/-- Staged objects of other recalls, of a lower class, that have not begun and hold what binds (R227). -/
def victims (s : State) (id cls bound : Nat) (o : Obj) : List (Recall × Obj) :=
  s.recalls.flatMap fun r =>
    if r.id == id || !r.planned then [] else
    r.objs.filterMap fun x =>
      match s.obj x.1 with
      | none => none
      | some v =>
        let waits := (v.params.twins.all fun t => t.recallOf != r.id || t.first > s.idx v.dom) &&
          ((v.route?.map fun z => z.waiting.any fun c => c.recallOf == r.id).getD true)
        let same := (bit bound 0 && coreOf v == coreOf o && (v.params.twins.any fun t => t.recallOf == r.id)) ||
          ((bit bound 2 || bit bound 3) && v.route?.isSome) || (bit bound 4 && v.tiles?.isSome)
        if v.cls > cls && waits && same then some (r, v) else none

/-- Wave records from the places of a plan (R224). -/
def waveRecords (s : State) (placed : List (Nat × Nat × Nat)) (bounds : List Nat) (launches : List (Nat × Instant)) (total : Nat) :
    List Wave :=
  (List.range total).map fun k =>
    let w := k + 1
    let mine := placed.filter fun p => p.2.1 == w
    let before := (placed.filter fun p => p.2.1 < w).length
    let cls := mine.map fun p => p.2.2
    let at' := ((launches.find? fun l => l.1 == w).map (·.2)).getD (0, 1)
    { launch := idxOf at' (s.fs 0), first := before, count := mine.length, lo := cls.foldl min 3, hi := cls.foldl max 0,
      bound := if w == total then 0 else bounds.getD k 0 }

/-- RECALL_REPLANNED with the records from wave `first` on. -/
def State.replanned (s : State) (r : Recall) (first : Nat) : State :=
  s.raise [r.desk] 0x0A43 (le 4 r.id ++ le 2 first ++ le 2 (r.waves.length - (first - 1)) ++
    ((r.waves.drop (first - 1)).take 4).flatMap fun w => le 8 w.launch ++ le 4 w.first ++ le 4 w.count ++ le 1 w.lo ++ le 1 w.hi ++
      le 1 w.bound ++ le 5 0)

/-- Find a later tick where a moved object fits. -/
def placeLater (id desk c h : Nat) : Nat → Instant → State → Option (Instant × State)
  | 0, _, _ => none
  | n + 1, at', s =>
    let s := s.upd h (Obj.shift s id at')
    if boundOf s id desk c h == 0 then some (at', s) else placeLater id desk c h n (s.nextTick at') s

/-- Move an object of a recall into a wave of its own after the others (R225). -/
def State.moveToLater (s : State) (r : Recall) (v : Obj) : Option State :=
  let last := ((r.waves.map (·.launch)).foldl max 0, s.fs 0)
  match placeLater r.id r.desk s.now v.handle 4096 (s.nextTick last) s with
  | none => none
  | some (at', s) =>
    let old := ((r.objs.find? fun x => x.1 == v.handle).map (·.2)).getD 1
    let w := r.waves.length + 1
    let objs := (r.objs.filter fun x => x.1 != v.handle) ++ [(v.handle, w)]
    let placed := objs.map fun x => (x.1, x.2, ((s.obj x.1).map (·.cls)).getD 3)
    let launches := (r.waves.zipIdx.map fun x => (x.2 + 1, (x.1.launch, s.fs 0))) ++ [(w, at')]
    let bounds := r.waves.map fun x => if x.bound == 0 then 1 else x.bound
    let r' : Recall := { r with objs := objs, waves := waveRecords s placed bounds launches w }
    let s : State := { s with recalls := s.recalls.map fun x => if x.id == r.id then r' else x }
    some (s.replanned r' old)

/-- GUARANTEE_BROKEN for the recall-time guarantee (R227). -/
def State.recallBroken (s : State) (keeper yield : Option Obj) : State :=
  let kd := (keeper.map (·.desk)).getD 0
  let yd := (yield.map (·.desk)).getD 0
  s.raise [kd, yd, 0] 0x0208 (le 1 1 ++ le 1 1 ++ le 2 kd ++ le 2 yd ++ le 1 ((keeper.map (·.cls)).getD 0) ++
    le 1 ((yield.map (·.cls)).getD 0) ++ le 4 ((keeper.map Obj.handle).getD 0) ++ le 4 ((yield.map Obj.handle).getD 0))

/-- The standing allocation of the lowest class on what binds, the newest grant among equals (R227). -/
def standingOn (s : State) (bound : Nat) (o : Obj) : Option Obj :=
  let l := s.objs.filter fun x => x.handle != o.handle &&
    ((bit bound 0 && coreOf x == coreOf o && standing ((coreOf o).getD 0) x > 0) || (bit bound 2 && x.ring?.isSome) ||
     (bit bound 3 && x.route?.isSome) || (bit bound 4 && x.tiles?.isSome))
  (l.inOrder fun a b => a.cls > b.cls || (a.cls == b.cls && a.epoch ≥ b.epoch)).head?

/-- Place one object: in the open wave, or by closing it and moving on (R223, R227). -/
def placeObj (id desk c : Nat) (h cls : Nat) : Nat → WavePlan → Except Err WavePlan
  | 0, _ => .error { status := eNoResource, handle := h }
  | k + 1, p =>
    let s := p.s.upd h (Obj.shift p.s id p.at')
    -- node changes of wave 1's first object that load late are a deadline of R217 missed, and make the recall slip
    let b := if p.wave == 1 && p.n == 0 then limitOf s id desk h else boundOf s id desk c h
    if b == 0 then .ok { p with s := s, n := p.n + 1, placed := p.placed ++ [(h, p.wave, cls)],
                                launches := if p.n == 0 then p.launches ++ [(p.wave, p.at')] else p.launches }
    else
      let o := s.obj h
      let yielded : Option State := if b == 2 then none else do
        let o ← o
        let (r, v) ← ((victims s id cls b o).inOrder fun x y => x.2.cls > y.2.cls || (x.2.cls == y.2.cls && x.2.epoch ≥ y.2.epoch)).head?
        let s ← s.moveToLater r v
        some (s.recallBroken (some o) (some v))
      match yielded with
      | some s => placeObj id desk c h cls k { p with s := s }
      | none =>
        let s := if p.n > 0 && b != 2 then s.recallBroken (o.bind (standingOn s b)) o else s
        if p.n > 0 then
          placeObj id desk c h cls k { p with s := s, at' := s.nextTick p.at', wave := p.wave + 1, n := 0, bounds := p.bounds ++ [b] }
        else placeObj id desk c h cls k { p with s := s, at' := s.nextTick p.at' }

/-- Waves for all objects from a first launch (R223). Objects are staged one after another. -/
def planWaves (x : RTimes) (desk seq id c : Nat) : List ObjParts → WavePlan → Except Err WavePlan
  | [], p => .ok p
  | o :: os, p => do
    let s ← stageObj p.s o x desk seq id p.at'
    need (fitsAlone s desk id o.h) eNoResource 0 o.h
    let p ← placeObj id desk c o.h o.cls 20000 { p with s := s }
    planWaves x desk seq id c os p

/-- The plan at a first launch, and the reason its first wave is not on time. -/
def planAt (s : State) (x : RTimes) (r : Recall) (os : List ObjParts) (at' : Instant) : Except Err (WavePlan × Nat) := do
  let p ← planWaves x r.desk r.seq r.id r.plan os { s := s, at' := at', wave := 1, n := 0, placed := [], bounds := [], launches := [] }
  let first := (p.placed.filter fun q => q.2.1 == 1).map (·.1)
  let nodes := sumNat (first.map fun h => (((p.s.obj h).bind Obj.tiles?).map fun t =>
    (t.pend.filter fun c => c.recallOf == r.id).length).getD 0)
  let loaded := loadEnd s r.plan nodes
  let why := first.foldl (fun w h => if w != 0 then w else lateReason p.s r.id r.plan loaded h) 0
  .ok (p, why)

/-- The least move by whole domain A ticks at which the first wave is on time (R218): the plan, its instant, the reason. -/
def planSlip (s : State) (x : RTimes) (r : Recall) (os : List ObjParts) : Nat → Nat → Nat → Except Err (WavePlan × Instant × Nat)
  | 0, _, _ => .error { status := eNoResource }
  | n + 1, k, why0 => do
    let at' := s.addTicks (r.num, r.den) k
    let (p, why) ← planAt s x r os at'
    if why == 0 then .ok (p, at', why0)
    else planSlip s x r os n (k + 1) (if why0 == 0 then why else why0)

/-! ## The plan point -/

/-- Last sample of the staged changes of a recall, as a domain A ashlar. -/
def lastAshlar (s : State) (id : Nat) (at' : Instant) : Nat :=
  let ends := s.objs.flatMap fun o =>
    let d := if o.dom ≤ 2 then o.dom else 0
    let mk (i t d : Nat) : Nat := indexAt (instantOf (i + t - 1) (s.fs d)) (s.fs 0) / 8
    (o.params.twins.filter fun t => t.recallOf == id).map (fun t => mk t.s (max 1 t.t) d) ++
    (o.params.pend.filter fun c => c.recallOf == id).map (fun c => mk c.s (max 1 c.t) d) ++
    (match o.kind with
     | .route r => (r.waiting.filter fun c => c.recallOf == id).map fun c => mk c.s (max 1 c.t) d
     | .tiles t => (t.pend.filter fun c => c.recallOf == id).map fun c => mk c.s (max 1 c.t) d
     | .group g => (g.pend.filter fun c => c.recallOf == id).map fun c => mk c.s (max 1 c.t) c.dom
     | _ => [])
  ends.foldl max (idxOf at' (s.fs 0) / 8)

/-- RECALL_DONE. -/
def State.recallDone (s : State) (r : Recall) (status last s' : Nat) : State :=
  let s : State := { s with recalls := s.recalls.filter fun x => x.id != r.id }
  let s := r.objs.foldl (fun s x => s.upd x.1 fun o => { o with staged := o.staged - 1 }) s
  let s : State := { s with jobs := s.jobs.filter fun j => !(j.op == 0x0A43 && j.num == r.id) }
  if r.quarry != 0 then s
  else s.raise [r.desk] 0x0A42 (donePrefix 0x0A43 status r.seq ++ le 4 r.id ++ le 4 r.recalled ++ le 4 r.equal ++ le 4 r.skipped ++
    le 8 last ++ le 8 s')

/-- The content a recall uses. -/
def State.sceneOf (s : State) (h : Nat) : Option SceneBody := ((s.obj h).bind Obj.scene?).map (·.body)

/-- What planning a recall finds. -/
inductive Planned where
  | refused (status : Nat)
  | late (s' : Nat)
  | planned (s : State) (r : Recall) (slipped : Nat)
  deriving DecidableEq, Repr

/-- Settle, check and plan a recall (R211, R212, R216-R223, R237). -/
def planRecall (s : State) (r : Recall) : Planned :=
  match s.sceneOf r.scene with
  | none => .refused eStale
  | some b =>
    let (os, k) := settleScene s b r.scope
    let x := timesOf b r.overs
    if os.any fun o => o.dom ≤ 2 && (s.dom o.dom).seq.isSome then .refused eState
    else match planSlip s x r os 4096 0 0 with
      | .error e => .refused e.status
      | .ok (p, at', why) =>
        let first := ((p.launches.find? fun l => l.1 == 1).map (·.2)).getD at'
        let moved := idxOf first (s.fs 0) != idxOf at' (s.fs 0)
        let why := if why != 0 then why else if moved then 4 else 0
        if r.kind != 0 && why != 0 && r.strict then .late (idxOf first (s.fs 0))
        else match acyclic p.s with
          | .error e => .refused e.status
          | .ok _ =>
            let total := if p.n == 0 && p.wave > 1 then p.wave - 1 else p.wave
            if total > 256 then .refused eNoResource
            else
              let r' : Recall := { r with
                num := first.1, den := first.2, planned := true, objs := p.placed.map fun q => (q.1, q.2.1),
                waves := waveRecords s p.placed p.bounds p.launches (if os.isEmpty then 0 else total),
                recalled := k.recalled, equal := k.equal, skipped := k.skipped, last := lastAshlar p.s r.id first }
              .planned p.s r' (if r.kind == 0 then 0 else why)

/-- A launch asked of a recall in domain A. -/
def Recall.ask (r : Recall) (s : State) : Nat := idxOf (r.num, r.den) (s.fs 0)

/-- Replace the record of a recall. -/
def State.setRecall (s : State) (r : Recall) : State :=
  { s with recalls := s.recalls.map fun x => if x.id == r.id then r else x }

/-- RECALL_SLIPPED and RECALL_PLAN; the plan identifier is open (log entry 2). -/
def State.recallPlan (s : State) (old r : Recall) (why : Nat) : State :=
  let s := if why == 0 || r.quarry != 0 then s
    else s.raise [r.desk] 0x0A40 (le 4 r.id ++ le 1 why ++ le 3 0 ++ le 8 (old.ask s) ++ le 8 (r.ask s))
  let (n, s) := s.drawNat
  (s.setRecall r).raise [r.desk] 0x0A41 (le 4 r.id ++ le 2 r.waves.length ++ le 2 0 ++ le 4 r.objs.length ++ le 4 (n % 2 ^ 32) ++
    le 8 (r.ask s))

/-- The plan point of a `scene.recall`. No Kerf ended and no launch was used where nothing launches: those fields are open (log
entry 2). -/
def State.planPoint (s : State) (r : Recall) : State :=
  match planRecall s r with
  | .refused e =>
    let (k, s) := s.drawNat
    let (n, s) := s.drawNat
    s.recallDone r e k n
  | .late s' =>
    let (k, s) := s.drawNat
    s.recallDone r eLate k s'
  | .planned s1 r' why => ({ s1 with epoch := s1.epoch + 1 } : State).recallPlan r r' why

/-- Recalls whose last Kerf has ended (R214). -/
def State.finishRecalls (s : State) : State :=
  (s.recalls.filter fun r => r.planned && (r.quarry == 0 || r.go) && s.now > r.last).foldl
    (fun s r => s.recallDone r 0 r.last (r.ask s)) s

/-! ## Replanning after a fault (R225) -/

/-- Replan, no earlier than the first wave not yet warming, the objects whose reserved room a test finds gone. -/
def State.replan (s : State) (r : Recall) (hit : Obj → Bool) : State :=
  let hurt := r.objs.filterMap fun x => match s.obj x.1 with
    | some o => if hit o && (o.params.twins.all fun t => t.recallOf != r.id || t.first > s.idx o.dom) &&
        boundOf s r.id r.desk s.now o.handle != 0 then some o else none
    | none => none
  hurt.foldl (fun s o => match s.recalls.find? fun x => x.id == r.id with
    | some r => (s.moveToLater r o).getD s
    | none => s) s

/-! ## Commands -/

def sceneRecallBody : Body := fun s f => do
  let o ← resolve s [tScene] (u32 f 0) 0
  owned f o.desk o.handle
  let overs ← oversAt f 24
  let l ← launchAt s f 8
  need (l.kind == 0 || l.index s 0 ≤ s.idx 0 + 2 ^ 32) eRange 8
  mayDefer s f
  need (s.recalls.length < 16) eBusy
  let id := (s.recallCtr + 1) % 2 ^ 32
  let at' := l.instant s
  let r : Recall :=
    { id := id, desk := f.desk, seq := f.seq, scene := o.handle, scope := u32 f 4, kind := l.kind, num := at'.1, den := at'.2,
      plan := s.now + (if s.red.mode == 0 then 6 else 8), overs := overs, strict := strictFlag f, planned := false, waves := [],
      objs := [], recalled := 0, equal := 0, skipped := 0, last := 0, quarry := 0, go := false }
  let s := s.defer f 0x0A43 0 none 1 id
  accResp { s with recalls := s.recalls ++ [r], recallCtr := id } (le 4 id)

def opSceneRecall : RuziaOp := ⟨0x0A43, .change, false, len 48, sceneRecallBody⟩

/-- `scene.recall`: planned at its plan point (R216). -/
def execSceneRecall (f : CmdFrame) (s : State) : Host.Outcome State Fault Refusal :=
  ruzia opSceneRecall f s

/-- Domain A ashlars remain before the first launch of a recall. -/
def sceneCancelBody : Body := fun s f => do
  match s.recalls.find? fun r => r.id == u32 f 0 with
  | none => .error { status := eRange, field := 0 }
  | some r =>
    need (f.desk == r.desk || f.desk == 0) eDenied 0
    need (r.quarry == 0 && s.now + 2 ≤ r.ask s / 8) eState 0
    let s := s.unstage r
    let (n, s) := s.drawNat
    let (k, s) := s.drawNat
    let (i, s) := s.drawNat
    let r : Recall := { r with objs := [] }
    okResp (s.recallDone r (n % 65536) k i)

def opSceneCancel : RuziaOp := ⟨0x0A44, .change, false, len 4, sceneCancelBody⟩

/-- `scene.cancel` (R215): the recall ends; the status its completion carries is open (log entry 2). -/
def execSceneCancel (f : CmdFrame) (s : State) : Host.Outcome State Fault Refusal :=
  ruzia opSceneCancel f s

def scenePlanBody : Body := fun s f => do
  reserved f 6 2
  match s.recalls.find? fun r => r.id == u32 f 0 with
  | none => .error { status := eRange, field := 0 }
  | some r =>
    let k := max 1 (u16 f 4)
    need (r.planned) eState 0
    let ws := (r.waves.drop (k - 1)).take 9
    okResp s (le 2 r.waves.length ++ le 2 ws.length ++ le 4 0 ++ ws.flatMap fun w =>
      le 8 w.launch ++ le 4 w.first ++ le 4 w.count ++ le 1 w.lo ++ le 1 w.hi ++ le 1 w.bound ++ le 5 0)

def opScenePlanGet : RuziaOp := ⟨0x0A49, .read, false, len 8, scenePlanBody⟩

/-- `scene.plan.get`. -/
def execScenePlanGet (f : CmdFrame) (s : State) : Host.Outcome State Fault Refusal :=
  ruzia opScenePlanGet f s

end Sys2Proof.Machine
end

