-- ==== Sys2Proof/Machine/QuarryRecall.lean ====
section
/-! DEFINITION. Quarry-wide recall (R229-R233, R380): arming at the keeper, the six messages, the decision point, orphaned
recalls, and the plan point of every recall (R216, R231). -/
namespace Sys2Proof.Machine

/-! ## Messages (R380) -/

/-- Body of a quarry recall message of a kind. -/
def quarryBody (m : QuarryMsg) (kind : Nat) : List Byte :=
  le 1 kind ++ le 3 0 ++ le 4 m.recallId ++ le 8 m.s ++ le 2 m.number ++ le 1 (if m.strict then 1 else 0) ++ le 1 0 ++
    slice m.overrides 0 24 ++ le 2 m.status ++ le 2 m.excluded.length ++ m.excluded.flatMap (le 2)

/-- A message read from a record's body; its engine is the record's source. -/
def quarryMsgOf (src : Nat) (bs : List Byte) : QuarryMsg :=
  { recallId := fieldAt bs 4 4, engine := src, s := fieldAt bs 8 8, number := fieldAt bs 16 2, strict := bit (fieldAt bs 18 1) 0,
    overrides := slice bs 20 24, status := fieldAt bs 44 2,
    excluded := (List.range (fieldAt bs 46 2)).map fun i => fieldAt bs (48 + 2 * i) 2 }

def quarryNone (id : Nat) : QuarryMsg :=
  { recallId := id, engine := 0, s := 0, number := 0, strict := false, overrides := [], status := 0, excluded := [] }

/-- Engines of the quarry, this one among them (R377). -/
def State.members (s : State) : List Nat := (s.extId :: s.quarry.engines).eraseDups

/-- A plan point never reached: the recall waits for RETARGET. -/
def noPlan : Nat := 2 ^ 64

/-! ## An engine's side (R231, R233) -/

/-- The Scene of a quarry number. -/
def State.numbered (s : State) (n : Nat) : Option Obj :=
  if n == 0 then none else s.objs.find? fun o => o.scene?.any fun x => x.number == n

/-- Override words of an ARM's bytes. -/
def overWords (bs : List Byte) : List Nat :=
  [fieldAt bs 0 4, fieldAt bs 4 4, fieldAt bs 8 4, fieldAt bs 12 4, fieldAt bs 16 4, fieldAt bs 20 1, fieldAt bs 21 1]

/-- ARM: the engine takes the recall of its own Scene of the number, or takes part with nothing to do (R229). -/
def State.armIn (s : State) (m : QuarryMsg) (scope : Nat) : State :=
  let old := s.recalls.filter fun r => r.quarry == m.recallId
  let s := old.foldl (fun s r => s.unstage r) s
  let s : State := { s with recalls := s.recalls.filter fun r => r.quarry != m.recallId && !(r.quarry != 0 && r.plan == noPlan && !r.go && !r.planned) }
  let o := s.numbered m.number
  let id := if s.isKeeper then m.recallId else (s.recallCtr + 1) % 2 ^ 32
  let r : Recall :=
    { id := id, desk := (o.map (·.desk)).getD 0, seq := 0, scene := (o.map Obj.handle).getD 0, scope := scope, kind := 1, num := m.s,
      den := s.fs 0, plan := s.now + (if s.red.mode == 0 then 6 else 8), overs := overWords m.overrides, strict := false,
      planned := false, waves := [], objs := [], recalled := 0, equal := 0, skipped := 0, last := m.s / 8, quarry := m.recallId,
      go := false }
  { s with recalls := s.recalls ++ [r], recallCtr := if s.isKeeper then s.recallCtr else id }

/-- RETARGET: staging is kept and twins warm on for the new launch; the engine plans again (R232). -/
def State.retargetIn (s : State) (m : QuarryMsg) : State :=
  (s.recalls.filter fun r => r.quarry == m.recallId && !r.go).foldl (fun s r =>
    let at' : Instant := (m.s, s.fs 0)
    let s := r.objs.foldl (fun s x => s.upd x.1 (Obj.shift s r.id at')) s
    let r' : Recall := { r with num := at'.1, den := at'.2, plan := s.now + (if s.red.mode == 0 then 6 else 8) }
    s.setRecall { r' with last := lastAshlar s r.id at' }) s

/-- GO: a recall ready for the confirmed launch runs; an engine left out retires its staging (R231, R233). -/
def State.goIn (s : State) (m : QuarryMsg) : State :=
  (s.recalls.filter fun r => r.quarry == m.recallId).foldl (fun s r =>
    if r.planned && r.ask s == m.s && !(m.excluded.contains s.extId) then s.setRecall { r with go := true }
    else if r.go then s
    else
      let s := s.unstage r
      { s with recalls := s.recalls.filter fun x => x.id != r.id }) s

/-- ABORT: staged twins retire without a crossfade. -/
def State.abortIn (s : State) (m : QuarryMsg) : State :=
  (s.recalls.filter fun r => r.quarry == m.recallId && !r.go).foldl (fun s r =>
    let s := s.unstage r
    { s with recalls := s.recalls.filter fun x => x.id != r.id }) s

/-! ## The keeper's side (R230-R233) -/

def State.arm (s : State) (id : Nat) : Option Arm := s.arms.find? fun a => a.id == id

def State.setArm (s : State) (a : Arm) : State := { s with arms := s.arms.map fun x => if x.id == a.id then a else x }

/-- Send a message of the keeper to every engine (R380). -/
def State.tellAll (s : State) (kind : Nat) (m : QuarryMsg) : State := s.sendCtrl 2 0xFFFF (quarryBody m kind)

/-- Engines that still take part. -/
def Arm.part (a : Arm) (s : State) : List Nat := s.members.filter fun e => !(a.dropped.contains e)

/-- QUARRY_RECALL_DONE: the arm ends. -/
def State.armDone (s : State) (a : Arm) (status : Nat) : State :=
  let s : State := { s with arms := s.arms.filter fun x => x.id != a.id,
                            jobs := s.jobs.filter fun j => !(j.op == 0x0A45 && j.num == a.id) }
  s.raise [a.desk] 0x0A48 (donePrefix 0x0A45 status a.seq ++ le 4 a.id ++ le 2 (a.part s).length ++ le 2 a.dropped.length ++ le 8 a.s)

/-- ABORT to every engine. -/
def State.abortArm (s : State) (a : Arm) (status : Nat) : State :=
  let m : QuarryMsg := { quarryNone a.id with status := status }
  ((s.tellAll 6 m).abortIn m).armDone a status

/-- GO to every engine. -/
def State.sendGo (s : State) (a : Arm) : State :=
  let m : QuarryMsg := { quarryNone a.id with s := a.s, excluded := a.dropped }
  ((s.tellAll 5 m).setArm { a with sent := true }).goIn m

/-- GO as soon as every engine is ready and `scene.go`, where asked for, has come (R231). -/
def State.tryGo (s : State) (a : Arm) : State :=
  if !a.sent && !a.held && (a.part s).all fun e => a.ready.contains e then s.sendGo a else s.setArm a

/-- The least whole number of ticks that meets R232. -/
def retargetAt (s : State) (a : Arm) : Nat → Nat → Nat
  | 0, k => a.s + k * s.tickLen 0
  | n + 1, k =>
    let x := a.s + k * s.tickLen 0
    if (a.late.all fun l => x ≥ l.2) && x / 8 ≥ s.now + 3 * s.quarry.p + 10 then x else retargetAt s a n (k + 1)

/-- Retarget, or abort after three (R232, R233). -/
def State.retarget (s : State) (a : Arm) (silent : List Nat) : State :=
  if a.strict || a.retargets ≥ 3 then s.abortArm a eLate
  else
    let s' := retargetAt s a 65536 0
    let who := a.late.map (·.1) ++ silent
    let s := s.raise [a.desk] 0x0A46 (le 4 a.id ++ le 2 who.length ++ le 2 0 ++ le 8 a.s ++ le 8 s' ++ (who.take 40).flatMap (le 2))
    let m : QuarryMsg := { quarryNone a.id with s := s' }
    ((s.tellAll 4 m).setArm { a with s := s', ready := [], late := [], silent := silent, retargets := a.retargets + 1 }).retargetIn m

/-- READY for the present launch. -/
def State.keeperReady (s : State) (id e launch : Nat) : State :=
  match s.arm id with
  | some a => if a.sent || a.s != launch then s
    else s.tryGo { a with ready := if a.ready.contains e then a.ready else a.ready ++ [e] }
  | none => s

/-- LATE: retarget at once (R232). An answer for an earlier launch changes nothing. -/
def State.keeperLate (s : State) (id e se : Nat) : State :=
  match s.arm id with
  | some a => if a.sent || se ≤ a.s then s else s.retarget { a with late := a.late ++ [(e, se)] } []
  | none => s

/-- The keeper's decision point d (R231-R233). -/
def State.decidePoint (s : State) (a : Arm) : State :=
  let quiet := (a.part s).filter fun e => !(a.ready.contains e) && !(a.late.any fun l => l.1 == e)
  if quiet.isEmpty then (if a.held then s.abortArm a eLate else s.sendGo a)
  else
    let out := quiet.filter fun e => a.silent.contains e
    let s := out.foldl (fun s e => s.raise [a.desk] 0x0A47 (le 4 a.id ++ le 2 e ++ le 2 0)) s
    let a : Arm := { a with dropped := a.dropped ++ out }
    let left := quiet.filter fun e => !(out.contains e)
    if left.isEmpty && a.held then s.abortArm a eLate
    else if left.isEmpty then s.sendGo a
    else s.retarget a left

/-- `KEEPER_DECISION_POINT`. -/
def execKeeperDecisionPoint (recallId : Nat) (s : State) : Host.Outcome State Fault Refusal :=
  .next (match s.arm recallId with
    | some a => if a.sent || !s.serving then s
      else (s.carryTo (instantOf (8 * (a.s / 8 - 4 - s.quarry.p)) (s.fs 0))).decidePoint a
    | none => s)

/-! ## Answers of an engine -/

/-- Send READY or LATE to the keeper; the keeper answers itself. -/
def State.answerKeeper (s : State) (id : Nat) (ready : Bool) (at' : Nat) : State :=
  if s.isKeeper then (if ready then s.keeperReady id s.extId at' else s.keeperLate id s.extId at')
  else
    let m : QuarryMsg := { quarryNone id with s := at' }
    s.sendCtrl 2 s.quarry.keeper (quarryBody m (if ready then 2 else 3))

/-- The plan point of a quarry recall: READY if on time at S, LATE with the earliest launch otherwise (R231). A recall that
cannot be planned at all gives no answer. -/
def State.quarryPlan (s : State) (r : Recall) : State :=
  let s := s.setRecall { r with plan := noPlan }
  if r.scene == 0 then (s.setRecall { r with plan := noPlan, planned := true }).answerKeeper r.quarry true (r.ask s)
  else if r.planned then
    let why := r.objs.foldl (fun w x => if w != 0 then w else lateReason s r.id r.plan r.plan x.1) 0
    if why == 0 then s.answerKeeper r.quarry true (r.ask s)
    else
      let s := s.unstage r
      let r' : Recall := { r with plan := noPlan, planned := false, objs := [], waves := [] }
      let s := s.setRecall r'
      match planRecall s r with
      | .planned _ r2 _ => s.answerKeeper r.quarry false (r2.ask s)
      | _ => s
  else match planRecall s r with
    | .planned s1 r' why =>
      let r' : Recall := { r' with plan := noPlan }
      if why == 0 then (s1.recallPlan r r' 0).answerKeeper r.quarry true (r'.ask s1)
      else s.answerKeeper r.quarry false (r'.ask s)
    | _ => s

/-- A store of the recall's Scene was accepted before the recall and has not ended (R331). -/
def storeFirst (s : State) (r : Recall) : Bool :=
  let mine := ((s.jobs.find? fun j => j.op == 0x0A43 && j.num == r.id).map (·.order)).getD s.orderCtr
  s.jobs.any fun j => j.op == 0x0A41 && j.handle == r.scene && j.order < mine

/-- `RECALL_PLAN_POINT`. -/
def execRecallPlanPoint (recallId : Nat) (s : State) : Host.Outcome State Fault Refusal :=
  .next (match s.recalls.find? fun r => r.id == recallId with
    | some r =>
      if !s.serving || r.plan == noPlan || (r.planned && r.quarry == 0) || storeFirst s r then s
      else
        let s := s.carryTo (instantOf (8 * r.plan) (s.fs 0))
        if r.quarry == 0 then s.planPoint r else s.quarryPlan r
    | none => s)

/-- An armed recall without GO or RETARGET at floor(S/8) launches nothing (R233). -/
def State.orphan (s : State) (r : Recall) : State :=
  let s := s.unstage r
  let s := s.setRecall { r with plan := noPlan, planned := false, objs := [], waves := [] }
  s.raise [r.desk] 0x0A44 (le 4 r.quarry ++ le 4 0 ++ le 8 (r.ask s))

/-- A quarry recall still waiting for GO. -/
def Recall.waits (r : Recall) : Bool := r.quarry != 0 && !r.go && (r.planned || r.plan != noPlan)

/-- Every armed recall whose deadline has come (R233). -/
def State.orphans (s : State) : State :=
  (s.recalls.filter fun r => r.waits && s.now ≥ r.ask s / 8).foldl (fun s r => s.orphan r) s

/-- `RECALL_ORPHAN_DEADLINE`. -/
def execRecallOrphanDeadline (recallId : Nat) (s : State) : Host.Outcome State Fault Refusal :=
  .next (match s.recalls.find? fun r => r.id == recallId with
    | some r => if r.waits && s.dieOn then (s.carryTo (instantOf (8 * (r.ask s / 8)) (s.fs 0))).orphan r else s
    | none => s)

/-! ## Messages received -/

/-- An engine with an identifier takes part (R380). -/
def State.inQuarry (s : State) : Bool := s.dieOn && s.extId != 0

/-- `QUARRY_ARM`. -/
def execQuarryArm (m : QuarryMsg) (s : State) : Host.Outcome State Fault Refusal :=
  .next (if s.inQuarry && !s.isKeeper then s.armIn m 0xFFFFFFFF else s)

/-- `QUARRY_READY`. -/
def execQuarryReady (m : QuarryMsg) (s : State) : Host.Outcome State Fault Refusal :=
  .next (if s.inQuarry && s.isKeeper then s.keeperReady m.recallId m.engine m.s else s)

/-- `QUARRY_LATE`. -/
def execQuarryLate (m : QuarryMsg) (s : State) : Host.Outcome State Fault Refusal :=
  .next (if s.inQuarry && s.isKeeper then s.keeperLate m.recallId m.engine m.s else s)

/-- `QUARRY_RETARGET`. -/
def execQuarryRetarget (m : QuarryMsg) (s : State) : Host.Outcome State Fault Refusal :=
  .next (if s.inQuarry && !s.isKeeper then s.retargetIn m else s)

/-- `QUARRY_GO`. -/
def execQuarryGo (m : QuarryMsg) (s : State) : Host.Outcome State Fault Refusal :=
  .next (if s.inQuarry && !s.isKeeper then s.goIn m else s)

/-- `QUARRY_ABORT`. -/
def execQuarryAbort (m : QuarryMsg) (s : State) : Host.Outcome State Fault Refusal :=
  .next (if s.inQuarry && !s.isKeeper then s.abortIn m else s)

/-- A TYPE 2 control record consumed (R380). -/
def State.quarryRecord (s : State) (src : Nat) (bs : List Byte) : State :=
  let m := quarryMsgOf src bs
  if !s.inQuarry then s
  else match fieldAt bs 0 1 with
    | 1 => if s.isKeeper then s else s.armIn m 0xFFFFFFFF
    | 2 => if s.isKeeper then s.keeperReady m.recallId src m.s else s
    | 3 => if s.isKeeper then s.keeperLate m.recallId src m.s else s
    | 4 => if s.isKeeper then s else s.retargetIn m
    | 5 => if s.isKeeper then s else s.goIn m
    | 6 => if s.isKeeper then s else s.abortIn m
    | _ => s

/-! ## Commands of the keeper -/

def sceneArmBody : Body := fun s f => do
  need (u16 f 0 != 0) eRange 0
  need (u8 f 2 ≤ 1) eRange 2
  reserved f 3 1
  let _ ← oversAt f 24
  let l ← launchAt s f 8
  need (l.kind == 0 || l.index s 0 ≤ s.idx 0 + 2 ^ 32) eRange 8
  need s.isKeeper eState
  need (s.quarry.pMin ≤ s.quarry.p) eState
  mayDefer s f
  need (s.recalls.length < 16) eBusy
  let id := (s.recallCtr + 1) % 2 ^ 32
  let at' := if l.kind == 0 then roundUp (8 * (s.now + 3 * s.quarry.p + 10)) (s.tickLen 0) else l.index s 0
  let a : Arm :=
    { id := id, desk := f.desk, seq := f.seq, number := u16 f 0, s := at', hold := u8 f 2 == 1, held := u8 f 2 == 1, sent := false,
      strict := strictFlag f, ready := [], late := [], silent := [], dropped := [], retargets := 0, overs := slice f.payload 24 24 }
  let m : QuarryMsg := { quarryNone id with s := at', number := u16 f 0, strict := strictFlag f, overrides := a.overs }
  let s := s.defer f 0x0A45 0 none 1 id
  let s : State := { s with arms := s.arms ++ [a], recallCtr := id }
  accResp ((s.tellAll 1 m).armIn m (u32 f 4)) (le 4 id)

def opSceneArm : RuziaOp := ⟨0x0A45, .change, true, len 48, sceneArmBody⟩

/-- `scene.arm`. -/
def execSceneArm (f : CmdFrame) (s : State) : Host.Outcome State Fault Refusal :=
  ruzia opSceneArm f s

/-- `scene.go` has come for a held recall (R231). -/
def State.release' (s : State) (id : Nat) : State :=
  match s.arm id with
  | some a => if a.hold && a.held then s.tryGo { a with held := false } else s
  | none => s

def sceneGoBody : Body := fun s f => do
  match s.arm (u32 f 0) with
  | none => .error { status := eRange, field := 0 }
  | some a =>
    need (a.hold && a.held) eState 0
    okResp (s.release' a.id)

def opSceneGo : RuziaOp := ⟨0x0A46, .change, true, len 4, sceneGoBody⟩

/-- `scene.go`. -/
def execSceneGo (f : CmdFrame) (s : State) : Host.Outcome State Fault Refusal :=
  ruzia opSceneGo f s

/-- Arms whose launch has passed and whose own recall has ended (R342). -/
def State.finishArms (s : State) : State :=
  (s.arms.filter fun a => a.sent && s.now > a.s / 8 && !(s.recalls.any fun r => r.quarry == a.id)).foldl
    (fun s a => s.armDone a 0) s

/-- Everything that ends with a recall's last Kerf. -/
def State.endRecalls (s : State) : State := s.finishRecalls.finishArms

end Sys2Proof.Machine
end

