-- ==== Sys2Proof/Machine/Launch.lean ====
section
/-! DEFINITION. Launching (R29, R53, R54): what waiting changes do at their index, the ends of Kerfs (R200), completing or
renumbering them when a domain halts (R256, R257), and the commands SCHEDULED_LAUNCH, TWIN_WARMUP_START and KERF_COMPLETE. -/
namespace Sys2Proof.Machine

/-! ## Package parameters (R340) -/

/-- The type of a package a block is an instance of. -/
def State.pkgType (s : State) (package typ : Nat) : Option PkgType :=
  (s.packages.find? fun p => p.id == package).bind fun p => p.types.find? fun t => t.typ == typ

def PkgParam.spec (p : PkgParam) : PSpec :=
  let real := p.unit == 7
  let signed := p.unit == 0 || p.unit == 1 || p.unit == 5
  let place (v : Nat) : Int := if real then realKey v else if signed then s32 v else v
  { lo := place p.min, hi := place p.max, signed := signed, dflt := p.dflt, real := real,
    mode := match p.kerf with
      | 0 => .step
      | 1 => .lin
      | 2 => .db
      | 3 => .twin
      | _ => .twin0 }

/-- The table of a package block; library blocks inside a host have none of their own. -/
def blockSpec (s : State) (o : Obj) (id : Nat) : Option PSpec :=
  match o.block? with
  | some b => if b.package == 0 then none
      else (s.pkgType b.package b.typ).bind fun t => (t.params.find? fun p => p.id == id).map PkgParam.spec
  | none => none

/-! ## Launching at a sample -/

/-- An object as its own-rate index `j` finds it: every change of index `j` or less launched. -/
def Obj.launchAt (s : State) (o : Obj) (j : Nat) : Obj :=
  let plain (spec : Nat → Option PSpec) : Obj :=
    let p := o.params
    let r := launchVals spec j p.pend p.vals
    o.setParams { p with vals := r.1, pend := r.2 }
  match o.kind with
  | .chan c => o.onChan (launchChan (s.mult o.dom) j c.pend)
  | .svc v => o.onSvc fun _ => (v.launchVals j v.pend).launchLives j
  | .meter _ => (plain (meterSpec s o)).onMeter fun m => m.launchCtl j s.now
  | .capture _ => plain (capSpec s o)
  | .block _ => plain (blockSpec s o)
  | .tiles t => o.onTiles fun _ => t.moveNodes (termOf s o.handle t (s.maxMult o.dom)) j (fun _ _ => none)
  | _ => o

/-- Something of an object is due by index `j`. -/
def Obj.due (o : Obj) (j : Nat) : Bool :=
  (o.params.pend.any fun c => c.s ≤ j) ||
  (match o.kind with
   | .svc v => v.live.any fun c => c.s ≤ j
   | .meter m => m.ctl.any fun c => c.1 ≤ j
   | .tiles t => t.pend.any fun c => c.s ≤ j
   | _ => false)

/-- A TWIN that switches the Panner has come by index `j`: the state it takes the Panner to. -/
def Twin.panAt (j : Nat) (t : Twin) : Option Bool :=
  if t.s ≤ j then (t.vals.find? fun v => v.1 == enableId 7).map fun v => v.2 == 1 else none

/-- The Panner is on or off as the switches due by index `j` leave it: its terms change from the launch on (R155). -/
def Chan.takePan (j : Nat) (c : Chan) : Chan :=
  (c.twins.filterMap (Twin.panAt j)).foldl (fun (c : Chan) b => { c with panOn := b }) c

/-- Lengths of the pan changes of a Strip or Bus due by index `j`, a switch of the Panner among them. -/
def panDue (s : State) (o : Obj) (j : Nat) : List Nat :=
  match o.chan? with
  | some c => (c.pend.filter fun p => p.s ≤ j && (chanSpec c (s.mult o.dom) p.id).any fun q => q.mode == .pan).map (·.t) ++
      (c.twins.filter fun t => (Twin.panAt j t).any (· != c.panOn)).map (·.t)
  | none => []

/-- Nodes of a domain whose terms a tick boundary changes, as (tile set, row, column): their routes or a Bus's attributes have
changed since the boundary before (R187, R322). -/
def reboundNodes (s : State) (d : Nat) : List (Nat × Nat × Nat) :=
  (s.objs.filter fun o => o.dom == d).flatMap fun o => match o.tiles? with
    | some t => (t.nodes.filter fun n => termOf s o.handle t (s.maxMult d) n.row n.col != n.pan).map fun n => (o.handle, n.row, n.col)
    | none => []

/-- The length over which a node takes a new term: the longest T of the pan changes launched in its row (R155), and 480 samples
where the tick boundary changed what the term rests on (R187). -/
def panLenOf (s : State) (pans : List (Nat × Nat)) (rebound : List (Nat × Nat × Nat)) (o : Obj) (t : Tiles) (row col : Nat) : Option Nat :=
  let ls := (pans.filter fun p => rowsReading s p.1 o t row).map (·.2)
  let ls := if rebound.contains (o.handle, row, col) then 480 :: ls else ls
  if ls.isEmpty then none else some (ls.foldl max 0)

/-- Launch every change of a domain's objects due by index `j`; a pan change, and a tick boundary, move the terms of nodes. -/
def State.launchAll (s : State) (d j : Nat) (tick : Bool := false) : State :=
  let s := if tick then s.bindTerms d j else s
  let rebound := if tick then reboundNodes s d else []
  let pans := s.objs.flatMap fun o => if o.dom == d then (panDue s o j).map fun t => (o.handle, t) else []
  let s := (s.objs.filter fun o => o.dom == d && o.tiles?.isNone && o.due j).foldl (fun s o => s.upd o.handle fun x => x.launchAt s j) s
  let s := pans.foldl (fun s p => s.upd p.1 fun x => x.onChan (Chan.takePan j)) s
  if pans.isEmpty && rebound.isEmpty && !(s.objs.any fun o => o.dom == d && o.due j) then s else
  { s with objs := s.objs.map fun o =>
      if o.dom == d then o.onTiles fun t => t.moveNodes (termOf s o.handle t (s.maxMult d)) j (panLenOf s pans rebound o t) else o }

/-- Routes that another domain's slot reads: Seam sends, read by domain A's frame, and the inputs of a COPY Bridge into a running
domain. Their changes launch once that slot has read them. -/
def readElsewhere (s : State) (r : Route) : Bool :=
  r.kind == 3 || (r.kind == 10 && ((s.obj r.sink).bind Obj.bridge?).any fun b => b.typ == 0 && (s.dom b.to_).runs)

/-- Launch every route change of a domain due by route index `j`, and drop the Kerfs that have ended. -/
def State.launchRoutes (s : State) (d j : Nat) (all : Bool := false) : State :=
  { s with objs := s.objs.map fun o =>
      if o.dom == d && o.ty == tRoute then o.onRoute fun r => if !all && readElsewhere s r then r else r.at j else o }

/-- The routes of a domain once its slots have read every route index below `j`. -/
def State.routesRead (s : State) (d j : Nat) : State :=
  { s with objs := s.objs.map fun o =>
      if o.dom == d && o.ty == tRoute then o.onRoute fun r => if readElsewhere s r then r else r.readTo j else o }

/-- Launch the changes of the routes into domain `d`'s COPY Bridges, read below index `j`. -/
def State.launchCopies (s : State) (d j : Nat) : State :=
  { s with objs := s.objs.map fun o => o.onRoute fun r =>
      if r.kind == 10 && ((s.obj r.sink).bind Obj.bridge?).any (fun b => b.typ == 0 && b.to_ == d) then r.readTo j else r }

/-- Launch the changes of the Seam sends, read as far as the end of domain A's ashlar before `a`. -/
def State.launchSends (s : State) (a : Nat) : State :=
  { s with objs := s.objs.map fun o => o.onRoute fun r => if r.kind == 3 then r.readTo (8 * s.mult o.dom * a) else r }

/-! ## TWINs (R200) -/

/-- The twin instance takes the live instance's state: the Sieve's standby set, or the second lines of an Object TWIN. -/
def ChState.toTwin (c : ChState) (page : Nat) : ChState :=
  if page == 1 then { c with sx1 := c.x1, sy1 := c.y1 }
  else if page == 0 then { c with line2 := c.line, look2 := c.look, dry2 := c.dry }
  else c

/-- The twin instance becomes the live one. -/
def ChState.ofTwin (c : ChState) (page : Nat) : ChState :=
  if page == 1 then { c with x1 := c.sx1, y1 := c.sy1 }
  else if page == 0 then { c with line := c.line2, look := c.look2, dry := c.dry2, line2 := [], look2 := [], dry2 := [] }
  else c

/-- A TWIN starts warming in ashlar `a` (R200). -/
def Twin.startsIn (t : Twin) (a : Nat) : Bool := t.w > 0 && t.first == 8 * a

/-- Start the twins whose warm-up ashlar is `a`. -/
def State.startTwins (s : State) (d a : Nat) : State :=
  { s with objs := s.objs.map fun o =>
      if o.dom == d then o.onChan fun c =>
        (c.twins.filter fun t => t.startsIn a).foldl (fun (c : Chan) t => { c with chans := c.chans.map fun x => x.toTwin t.page }) c
      else o }

/-- End one TWIN of an object: its values come into force and the twin takes over. -/
def State.endTwin (s : State) (h : Nat) (t : Twin) : State :=
  match s.obj h with
  | none => s
  | some o =>
    match o.kind with
    | .chan _ =>
      (s.upd h fun x => x.onChan fun c => { c with chans := c.chans.map fun y => y.ofTwin t.page }).commitTwin h t
    | _ => s.upd h fun x =>
      let p := x.params
      x.setParams { p with
        vals := t.vals.foldl (fun vs v =>
          setVal vs { valOf vs v.1 v.2 .step with use := v.2, ramp := GainRec.rest 0#32, db := false }) p.vals
        twins := p.twins.filter fun u => u.order != t.order }

def twinsInOrder (l : List Twin) : List Twin := l.inOrder fun a b => a.s < b.s || (a.s == b.s && a.order ≤ b.order)

/-- End every TWIN of a domain's objects that a test picks out. -/
def State.endTwins (s : State) (d : Nat) (p : Twin → Bool) : State :=
  (s.objs.filter fun o => o.dom == d && o.params.twins.any p).foldl (fun s o =>
    (twinsInOrder (o.params.twins.filter p)).foldl (fun s t => s.endTwin o.handle t) s) s

/-- What ends by the end of ashlar `a` of a domain: crossfades, fades of solo sources that have left, frees, recalls (R200). -/
def State.finishKerfs (s : State) (d a : Nat) : State :=
  let j := 8 * (a + 1)
  let s := (s.endTwins d fun t => t.after ≤ j).routesRead d (j - 8)
  let s : State := { s with objs := s.objs.map fun o =>
    if o.dom == d then o.onSvc fun v => { v with
      solos := v.solos.filter fun x => !(x.leaving && x.fade.count == 0)
      switch := v.switch.bind fun p => if p.1 + p.2 ≤ j then none else some p }
    else o }
  s.finishFrees.endRecalls

/-! ## Halting (R256) and renumbering (R257) -/

def GainRec.settle (r : GainRec) : GainRec := GainRec.rest r.gainEnd

def PVal.settle (v : PVal) : PVal := { v with ramp := v.ramp.settle }

/-- Running ramps and crossfades of an object completed to their targets, TWINs apart. -/
def Obj.settle (o : Obj) : Obj :=
  let p := o.params
  let o := o.setParams { p with vals := p.vals.map PVal.settle }
  match o.kind with
  | .chan c => { o with kind := .chan { c with cough := c.cough.settle } }
  | .route r => { o with kind := .route { r with kerf := none } }
  | .tiles t => { o with kind := .tiles { t with
      nodes := t.nodes.map fun n => { n with ramp := n.ramp.settle }
      rowRecs := t.rowRecs.map fun r => { r with ramp := r.ramp.settle } } }
  | .svc v => { o with kind := .svc { v with
      keyRamps := v.keyRamps.map GainRec.settle, dim := v.dim.settle, switch := none, gOld := v.gNew
      solos := (v.solos.filter fun x => !x.leaving).map fun x => { x with fade := x.fade.settle } } }
  | _ => o

/-- Dither commanded for a domain's outputs is in force. -/
def State.settleDither (s : State) (d : Nat) : State :=
  let tdm := s.tdm.map fun (t : Tdm) => if t.dom == d then { t with dither := ditherSet t.dither t.ditherNext, ditherNext := none } else t
  { s with tdm := tdm, objs := s.objs.map fun o => if o.dom != d then o else o.onStream fun t =>
      { t with dither := ditherSet t.dither t.ditherNext, ditherNext := none } }

/-- Complete what runs in a domain at index `j`. -/
def State.settleDom (s : State) (d j : Nat) : State :=
  let s := (s.settleDither d).endTwins d fun t => t.s ≤ j
  { s with objs := s.objs.map fun o => if o.dom == d then o.settle else o }

/-- Waiting changes of index `j` or less with no length: they come into force without a Kerf. -/
def Obj.cutDue (o : Obj) (j : Nat) : Obj :=
  let p := o.params
  let o := o.setParams { p with pend := p.pend.map fun c => if c.s ≤ j then { c with t := 0 } else c }
  match o.kind with
  | .route r => { o with kind := .route { r with waiting := r.waiting.map fun c => if c.s ≤ j then { c with cut := true } else c } }
  | .tiles t => { o with kind := .tiles { t with pend := t.pend.map fun c => if c.s ≤ j then { c with t := 0 } else c } }
  | _ => o

/-- Put in force, without a Kerf, every change of a domain of index `j` or less. -/
def State.forceDue (s : State) (d j : Nat) : State :=
  let s : State := { s with objs := s.objs.map fun o => if o.dom == d then o.cutDue j else o }
  let s := ((s.launchAll d j).launchRoutes d j true).groupTick d j true
  (s.settleDom d j).settlePans d

/-- An object's waiting indices in domain `d` put through `g`. -/
def Obj.mapIndices (g : Nat → Nat) (d : Nat) (o : Obj) : Obj :=
  match o.kind with
  | .group x => { o with kind := .group { x with pend := x.pend.map fun c => if c.dom == d then { c with s := g c.s } else c } }
  | _ =>
    if o.dom != d then o else
    let p := o.params
    let o := o.setParams { p with pend := p.pend.map fun c => { c with s := g c.s }, twins := p.twins.map fun t => { t with s := g t.s } }
    match o.kind with
    | .route r => { o with kind := .route { r with waiting := r.waiting.map fun c => { c with s := g c.s } } }
    | .tiles t => { o with kind := .tiles { t with pend := t.pend.map fun c => { c with s := g c.s } } }
    | .svc v => { o with kind := .svc { v with live := v.live.map fun c => { c with s := g c.s } } }
    | .meter m => { o with kind := .meter { m with ctl := m.ctl.map fun c => (g c.1, c.2.1, c.2.2) } }
    | .capture c => { o with kind := .capture { c with
        f := if c.st == .freezing then g c.f else c.f
        play := c.play.map fun p => { p with s := g p.s, stop := p.stop.map g } } }
    | _ => o

/-- Waiting indices counted under rate `fo` numbered anew under `fn`, none before `restart`; marked ones are so numbered
already. -/
def State.renumber (s : State) (d fo fn restart : Nat) : State :=
  let g (i : Nat) : Nat := if i ≥ farMark then i - farMark else max restart (ceilDiv (i * fn) fo)
  { s with objs := s.objs.map (Obj.mapIndices g d) }

/-! ## The commands -/

/-- SCHEDULED_LAUNCH: the changes due by the first sample of the domain's next ashlar take effect. -/
def execScheduledLaunch (dom : Nat) (s : State) : Host.Outcome State Fault Refusal :=
  if s.dieOn && dom ≤ 2 && (s.dom dom).runs then
    .next ((s.launchAll dom (8 * (s.dom dom).next)).launchRoutes dom (8 * (s.dom dom).next - 8))
  else if s.dieOn && dom ≤ 2 && (s.dom dom).st == .stopped then .next (s.forceDue dom (s.idx dom))
  else .next s

/-- TWIN_WARMUP_START: the twins whose warm-up ashlar is the domain's next take their state. -/
def execTwinWarmupStart (dom : Nat) (s : State) : Host.Outcome State Fault Refusal :=
  if s.dieOn && dom ≤ 2 && (s.dom dom).runs then .next (s.startTwins dom (s.dom dom).next) else .next s

/-- KERF_COMPLETE: what has ended by the last ashlar processed is retired. -/
def execKerfComplete (dom : Nat) (s : State) : Host.Outcome State Fault Refusal :=
  if s.dieOn && dom ≤ 2 && (s.dom dom).runs && (s.dom dom).next > 0 then .next (s.finishKerfs dom ((s.dom dom).next - 1))
  else .next s

end Sys2Proof.Machine
end

