-- ==== Sys2Proof/Machine/Domains.lean ====
section
/-! DEFINITION. Rate domains (chapter 8, R332): info and MAX_MULT, the admission of a rate change (R254), its sequence
(R255-R259), the time set of R334, and Bridges (R246-R252). -/
namespace Sys2Proof.Machine

/-! ## Charges at a multiplier -/

/-- Index of a multiplier in a list by m = 1, 2, 4. -/
def multIdx (m : Nat) : Nat := if m == 1 then 0 else if m == 2 then 1 else 2

def PkgType.charge (t : PkgType) (m : Nat) : Nat := chargeOf (t.cycles.getD (multIdx m) 0) m

/-- Charge of one package block at a multiplier. -/
def pkgCharge (s : State) (b : Block) (m : Nat) : Nat := ((s.pkgType b.package b.typ).map fun t => t.charge m).getD 0

/-- Charge of the package blocks inside a host. -/
def hostedCharge (s : State) (h m : Nat) : Nat :=
  sumNat (s.objs.map fun o => match o.block? with
    | some b => if b.host == h && b.package != 0 && !b.removed then pkgCharge s b m else 0
    | none => 0)

/-- An object's charge once its domain's multiplier goes from `m` to `m'` (R98, R102). -/
def rateCharge (s : State) (m m' : Nat) (o : Obj) : Nat :=
  match o.kind with
  | .block b => if b.removed && b.retire.isNone then 0 else if b.package != 0 then pkgCharge s b m' else o.charge * m' / m
  | .bridge _ => o.charge
  | _ => (o.charge - hostedCharge s o.handle m) * m' / m + hostedCharge s o.handle m'

/-! ## Bridges (R247, R250) -/

/-- Type, A and G of a Bridge between two rate codes; none where R249 refuses it. -/
def bridgeType (x y : Nat) : Option (Nat × Nat × Nat) :=
  let mx := rateMult x
  let my := rateMult y
  if rate44 x == rate44 y then
    if mx == my then some (0, 0, 0)
    else if my == 2 * mx then some (1, 8, 64)
    else if my == 4 * mx then some (2, 24, 128)
    else if mx == 2 * my then some (3, 0, 32)
    else some (4, 0, 32)
  else if mx != my then none
  else if rate44 y then some (5, 8, 32 * mx)
  else some (6, 8, 35 * mx)

/-- Base-rate channels a Bridge counts (R250). -/
def Bridge.base (s : State) (b : Bridge) : Nat := b.channels * max (s.heldMult b.from_) (s.heldMult b.to_)

def bridgesUsed (s : State) : Nat := sumNat (s.objs.map fun o => (o.bridge?.map fun b => b.base s).getD 0)

def Bridge.touches (b : Bridge) (d : Nat) : Bool := b.from_ == d || b.to_ == d

/-- All Bridges with their objects. -/
def State.bridges (s : State) : List (Obj × Bridge) := s.objs.filterMap fun o => o.bridge?.map fun b => (o, b)

/-- A Bridge's A, G and B of R247 at the present rates. -/
def bridgeDelays (s : State) (b : Bridge) : Nat × Nat × Nat :=
  match bridgeType (s.dom b.from_).rate (s.dom b.to_).rate with
  | some t => (t.2.1, t.2.2, 8 + t.2.1 + t.2.2)
  | none => (0, 0, 8)

def bridgeAllocBody : Body := fun s f => do
  let x ← domainAt f 0
  let y ← domainAt f 1
  need (x != y) eRange 1
  let n := u8 f 2
  need (1 ≤ n && n ≤ 64) eRange 2
  let cls ← classOf s f 3
  match bridgeType (s.dom x).rate (s.dom y).rate with
  | none => .error { status := eState, field := 0 }
  | some t =>
    classPermitted s f.desk cls 3
    allocatable s x 0
    allocatable s y 1
    let base := n * max (s.heldMult x) (s.heldMult y)
    let w := 16 * base
    within s f.desk 8 w
    within s f.desk 4 (n * s.mult y)
    need (bridgesUsed s + base ≤ 2048) eNoResource
    let ask : Need := { w := w, rd := n * s.mult x, wr := n * s.mult y }
    let pk := place s y ask
    let plan := if pk.isNone then consolidate s y ask else none
    let core ← match pk, plan with
      | some p, _ => .ok p.1
      | none, some q => .ok q.1
      | none, none => .error { status := eNoResource }
    match (s.tab tBridge).pick 1 1 0 2048 with
    | none => .error { status := eNoResource }
    | some i =>
      let s := (s.addObj { ty := tBridge, idx := i, gen := 1, desk := f.desk, cls := cls, dom := y, freeing := false, job := none,
                           staged := 0, charge := w, safe := 0, epoch := s.epoch,
                           kind := .bridge { from_ := x, to_ := y, channels := n, typ := t.1, firstRing := 0, core := core,
                                             start := 8 * (s.ash y + 1), hist := [], joints := [] } }).useCore core y
      let h := ((s.objAt tBridge i).map Obj.handle).getD 0
      let (r, s) ← allocRings s f.desk cls y n 0 h 7 0
      let s := s.upd h fun o => match o.kind with | .bridge b => { o with kind := .bridge { b with firstRing := r } } | _ => o
      let s := s.overCeiling f.desk h core (match pk with | some p => p.2 | none => false)
      okResp (match plan with | some q => s.startMoves y core q.2 | none => s) (le 4 h ++ le 4 (s.ringHandle r))

def opDomainBridgeAlloc : RuziaOp := ⟨0x0A88, .change, false, len 4, bridgeAllocBody⟩

/-- `domain.bridge.alloc`; a consolidation that makes room for it runs behind it. -/
def execDomainBridgeAlloc (f : CmdFrame) (s : State) : Host.Outcome State Fault Refusal :=
  ruzia opDomainBridgeAlloc f s

def opDomainBridgeFree : RuziaOp := ⟨0x0A89, .change, false, len 8, freeBody [tBridge] anyFree noBefore⟩

/-- `domain.bridge.free`. -/
def execDomainBridgeFree (f : CmdFrame) (s : State) : Host.Outcome State Fault Refusal :=
  ruzia opDomainBridgeFree f s

def bridgeInfoBody : Body := fun s f => do
  let o ← resolve s [tBridge] (u32 f 0) 0
  match o.bridge? with
  | none => .error { status := eHandle, field := 0, handle := o.handle }
  | some b =>
    let t := bridgeDelays s b
    let p := o.prefixBytes s ++ le 1 b.from_ ++ le 1 b.to_ ++ le 1 b.typ ++ le 1 b.channels ++ le 4 t.1 ++ le 4 t.2.1 ++ le 4 t.2.2
    if f.len == 4 then okResp s p
    else
      let bulk ← bulkAt s f 4 1 0xFFFFFFFF
      mayDefer s f
      accResp (s.deferOut f 0x0A8A 0 bulk ((Config.bridgeCoefficients b.typ).take bulk.len)) p

def opDomainBridgeInfo : RuziaOp := ⟨0x0A8A, .read, false, fun f => f.len == 4 || f.len == 20, bridgeInfoBody⟩

/-- `domain.bridge.info`; the coefficient words go by BULK if the request carries one. -/
def execDomainBridgeInfo (f : CmdFrame) (s : State) : Host.Outcome State Fault Refusal :=
  ruzia opDomainBridgeInfo f s

/-! ## Info and configuration -/

def DomState.code : DomState → Nat
  | .stopped => 0
  | .running => 1
  | .fadingOut => 2
  | .halted => 3
  | .fadingIn => 4

/-- Cores, WU charged and WU free of a domain (R102). -/
def computeOf (s : State) (d : Nat) : Nat × Nat × Nat :=
  let cs := (List.range 192).filter fun c => (s.core c).dom == d
  let w := sumNat (cs.map (coreCharge s))
  (cs.length, w, cs.length * 160 * 64 - w)

def domainInfoBody : Body := fun s f => do
  let d ← domainAt f 0
  reserved f 1 3
  let m := s.dom d
  let c := computeOf s d
  okResp s (le 1 d ++ le 1 m.st.code ++ le 1 m.rate ++ le 1 (s.maxMult d) ++ le 8 (if m.runs then s.idx d else 0) ++ le 2 c.1 ++ le 2 0 ++
    le 4 c.2.1 ++ le 4 c.2.2)

def opDomainInfo : RuziaOp := ⟨0x0A80, .read, false, len 4, domainInfoBody⟩

/-- `domain.info`. -/
def execDomainInfo (f : CmdFrame) (s : State) : Host.Outcome State Fault Refusal :=
  ruzia opDomainInfo f s

/-- An object belongs to a domain, a Bridge to both its ends. -/
def Obj.inDom (o : Obj) (d : Nat) : Bool := o.dom == d || (o.bridge?.map fun b => b.touches d).getD false

def domainConfigBody : Body := fun s f => do
  let d ← domainAt f 0
  let m := u8 f 1
  need (m == 1 || m == 2 || m == 4) eRange 1
  reserved f 2 2
  need (!(s.objs.any fun o => o.inDom d)) eState 0
  need (((s.dom d).maxMult == 0 && (s.dom d).st == .stopped) || s.mult d ≤ m) eState 1
  okResp (s.setDom d fun x => { x with maxMult := m })

def opDomainConfig : RuziaOp := ⟨0x0A81, .change, true, len 4, domainConfigBody⟩

/-- `domain.config`. -/
def execDomainConfig (f : CmdFrame) (s : State) : Host.Outcome State Fault Refusal :=
  ruzia opDomainConfig f s

/-! ## Admission of a rate (R254) -/

/-- A test's refusal: its status and the handle of the first object that failed it. -/
abbrev RateFail := Nat × Nat

/-- Domain A may change only outside Seam mode, a redundant set and a quarry (R244). -/
def domAFree (s : State) : Bool :=
  !(s.quadModes.contains 0) && s.red.mode == 0 && s.quarry.keeper == 0 && s.quarry.engines.isEmpty

/-- Objects a recall has parts in: those planned, or those its Scene holds. -/
def recallObjs (s : State) (r : Recall) : List Nat :=
  if r.planned then r.objs.map (·.1) else ((s.sceneOf r.scene).map (·.objects)).getD []

def recallIn (s : State) (d : Nat) : Bool :=
  s.recalls.any fun r => (recallObjs s r).any fun h => (s.obj h).any fun o => o.dom == d

def failIf (b : Bool) (status h : Nat) : Except RateFail Unit := if b then .error (status, h) else .ok ()

/-- The first object that a test picks out. -/
def firstBad (os : List Obj) (status : Nat) (p : Obj → Bool) : Except RateFail Unit :=
  match os.find? p with
  | some o => .error (status, o.handle)
  | none => .ok ()

/-- A ring at a new multiplier. -/
def Ring.atMult (r : Ring) (m : Nat) : Ring := { r with mult := m, depth := if r.deep then r.depth else 64 * m, newDepth := none }

/-- Test 4 for one object. -/
def rateFits (s : State) (m : Nat) (o : Obj) : Option Nat :=
  match o.kind with
  | .route r =>
    let ok (p : Nat × Nat) : Bool := match (s.obj p.1).bind Obj.ring? with
      | some g => p.2 ≤ oMax s (g.atMult m)
      | none => true
    if (ok (r.source, r.offset)) && (r.waiting.all fun c => ok (r.readingAt c.s)) then none else some eState
  | .ring r => if r.deepDue && !(deepDepth m r.depthDue) then some eState else none
  | .chan c =>
    if bit c.enable 5 && c.delayMax (s.mult o.dom) > 480000 * m then some eRange else none
  | _ => none

/-- Rows for every ring of a domain at multiplier `m` (R243, R303). -/
def growRings (m : Nat) : List Obj → State → Except RateFail State
  | [], s => .ok s
  | o :: os, s =>
    match o.ring? with
    | none => growRings m os s
    | some r =>
      if r.rows.length ≥ m then growRings m os s
      else match findRows s o.idx (m - r.rows.length) [] with
        | none => .error (eNoResource, o.handle)
        | some rows => growRings m os (s.modObj tRing o.idx fun x => x.onRing fun r => { r with rows := r.rows ++ rows })

/-- Arrays for every tile set of a domain at the multiplier held. -/
def growTiles (m : Nat) : List Obj → State → Except RateFail State
  | [], s => .ok s
  | o :: os, s =>
    match o.tiles? with
    | none => growTiles m os s
    | some t =>
      match placeTiles s (t.rows / 64 * (t.cols / 64)) m with
      | .error _ => .error (eNoResource, o.handle)
      | .ok (ts, s) => growTiles m os (s.upd o.handle fun x => x.onTiles fun t => { t with tiles := ts })

/-- Seats for an object's instances at its charge. -/
def reseat (d : Nat) (o : Obj) (s : State) : Except RateFail State :=
  match o.kind with
  | .meter m =>
    (List.range m.cores.length).foldlM (fun s k =>
      let n := min 128 (m.points - 128 * k)
      match place s d { w := o.charge * n / m.points, rd := n } with
      | none => .error (eNoResource, o.handle)
      | some p => .ok ((s.upd o.handle fun x => x.onMeter fun mm => { mm with cores := modAt mm.cores k fun _ => p.1 }).useCore p.1 d)) s
  | _ =>
    match coreOf o with
    | none => .ok s
    | some _ =>
      match place s d { w := o.charge, rd := portReads s o, wr := portWrites s o } with
      | none => .error (eNoResource, o.handle)
      | some p =>
        let s := s.useCore p.1 d
        let s := s.upd o.handle fun x => match x.kind with
          | .chan c => { x with kind := .chan { c with core := p.1 } }
          | .block b => { x with kind := .block { b with core := p.1 } }
          | .bridge b => { x with kind := .bridge { b with core := p.1 } }
          | .svc v => { x with kind := .svc { v with core := p.1 } }
          | .capture v => { x with kind := .capture { v with core := p.1 } }
          | _ => x
        .ok { s with objs := s.objs.map fun x => match x.block? with
          | some b => if b.host == o.handle && b.host != 0 then x.onBlock fun b => { b with core := p.1 } else x
          | none => x }

/-- Take an object off its core. -/
def Obj.offCore (o : Obj) : Obj :=
  match o.kind with
  | .chan c => { o with kind := .chan { c with core := 999 } }
  | .block b => { o with kind := .block { b with core := 999 } }
  | .bridge b => { o with kind := .bridge { b with core := 999 } }
  | .svc v => { o with kind := .svc { v with core := 999 } }
  | .capture v => { o with kind := .capture { v with core := 999 } }
  | .meter m => { o with kind := .meter { m with cores := m.cores.map fun _ => 999 } }
  | _ => o

/-- Everything that runs on a core of a domain, hosted blocks apart, placed anew in handle order. -/
def growCores (d : Nat) (s : State) : Except RateFail State :=
  let os := (s.objs.filter fun o => o.dom == d && !(hostedBlock o) && o.charge > 0).inOrder fun a b => a.handle ≤ b.handle
  let s : State := { s with objs := s.objs.map fun o => if o.dom == d && !(hostedBlock o) && o.charge > 0 then o.offCore else o }
  os.foldlM (fun s o => match s.obj o.handle with | some o => reseat d o s | none => .ok s) s.releaseCores

/-- The state that holds a domain's allocation for a new rate beside its present one: every resource the larger of the two
rates takes (R254, R303). `q` is the sequence being admitted. -/
def holdRate (s : State) (d : Nat) (q : RateSeq) : Except RateFail State := do
  let m := s.mult d
  let m' := rateMult q.newRate
  let os := s.objs.filter fun o => o.dom == d
  let s := s.setDom d fun x => { x with seq := some q }
  let s : State := { s with objs := s.objs.map fun o =>
    match o.bridge? with
    | some b => if b.touches d then { o with charge := max o.charge (16 * b.base s) } else o
    | none => if o.dom == d then { o with charge := max o.charge (rateCharge s m m' o) } else o }
  let s ← if m' ≤ m then .ok s else growRings m' os s
  let bad := (os.map (·.desk)).eraseDups.find? fun k => k != 0 && [4, 5, 3, 8].any fun n =>
    useAll s k n > (s.desk k).quota.getD (n - 1) 0
  failIf bad.isSome eQuota ((os.find? fun o => some o.desk == bad).elim 0 Obj.handle)
  failIf (s.sieveUsed > 4096 || s.ringRows > 65536) eNoResource 0
  let s ← if m' ≤ m then .ok s else
    let s : State := { s with objs := s.objs.map fun o => if o.dom == d then o.onTiles fun t => { t with tiles := [] } else o }
    growTiles m' os s
  let s ← if m' ≤ m then .ok s else growCores d s
  failIf ((List.range 64).any fun b => bankLoad s (s.faults.bankMap.getD b b) > 8192) eNoResource 0
  failIf (s.deepRows > 4096 || s.deepUsed > 536870912 || s.delayUsed > 1073741824 || bridgesUsed s > 2048) eNoResource 0
  .ok s

/-- The tests of R254 in order; the state that reserves what passes them. -/
def rateTests (s : State) (d : Nat) (q : RateSeq) : Except RateFail State := do
  let m := rateMult q.newRate
  failIf (d == 0 && !(domAFree s)) eState 0
  failIf ((s.dom d).maxMult != 0 && m > (s.dom d).maxMult) eState 0
  failIf (s.doms.any fun x => x.seq.isSome) eBusy 0
  failIf (recallIn s d) eBusy 0
  firstBad s.objs eState fun o => o.ty == tStream && o.dom == d
  let rate (x : Nat) : Nat := if x == d then q.newRate else (s.dom x).rate
  firstBad s.objs eState fun o => (o.bridge?.map fun b => b.touches d && (bridgeType (rate b.from_) (rate b.to_)).isNone).getD false
  let os := s.objs.filter fun o => o.dom == d
  firstBad os eState fun o => o.ty == tRoute && (rateFits s m o).isSome
  firstBad os eState fun o => o.ty == tRing && (rateFits s m o).isSome
  firstBad os eRange fun o => o.chan?.isSome && (rateFits s m o).isSome
  holdRate s d q

/-! ## The sequence (R255-R259) -/

/-- 1.0 ms in units of 2^-16 ns. -/
def milliQ : Nat := 65536000000

/-- The first tick boundary of a rate at least 1.0 ms after an instant. -/
def restartIndex (q code : Nat) : Nat := roundUp (firstAt (q + milliQ) (rateHz code)) (48 * rateMult code)

/-- First sample after a fade-out that begins at `i`. -/
def stopIndex (s : State) (d i : Nat) : Nat := i + 240 * s.mult d

/-- DOMAIN_RATE_DONE for the sequence of a domain. -/
def rateDone (s : State) (d : Nat) (q : RateSeq) (status failed : Nat) : State :=
  let bs := q.retyped.filterMap fun h => (s.obj h).bind fun o => o.bridge?.map fun b => (h, (bridgeDelays s b).2.2)
  let rest := le 1 d ++ le 1 (if q.op == 0x0A82 then 0xFF else q.oldRate) ++ le 1 q.newRate ++ le 1 0 ++ le 4 failed ++
    le 8 (if q.newRate == 0xFF then 0 else q.restart) ++ le 2 bs.length ++ le 2 0 ++
    (bs.take 10).flatMap fun p => le 4 p.1 ++ le 4 p.2
  match s.jobs.find? fun j => j.desk == q.desk && j.seq == q.seq && j.op == q.op with
  | some j => s.complete j 0x0A80 status rest
  | none => s

/-- Clear what R256 says starts from zeroed state. -/
def Obj.zeroed (o : Obj) : Obj :=
  match o.kind with
  | .chan c => { o with kind := .chan { c with chans := c.chans.map fun x =>
      { x with x1 := 0, y1 := 0, sx1 := 0, sy1 := 0, line := [], look := [], dry := [], line2 := [], look2 := [], dry2 := [], points := [] } } }
  | .svc v => { o with kind := .svc { v with est := v.est.map fun _ => 0 } }
  | .bridge b => { o with kind := .bridge { b with hist := [], joints := [] } }
  | .meter m => { o with kind := .meter { m with state := m.state.map fun p => { p with peak := 0 } } }
  | _ => o

/-- An object once the domain it belongs to, or touches, has gone from `m` to `m'`. -/
def Obj.retype (s0 s : State) (d m m' : Nat) (o : Obj) : Obj :=
  let typ (b : Bridge) : Nat := ((bridgeType (s.dom b.from_).rate (s.dom b.to_).rate).map (·.1)).getD b.typ
  let charge : Nat := if m' < m then rateCharge s0 m m' o else o.charge
  match o.kind with
  | .bridge b =>
    if b.touches d then
      { o with kind := .bridge { b with typ := typ b, hist := [], joints := [] }, charge := 16 * b.channels * max (s.mult b.from_) (s.mult b.to_) }
    else o
  | .chan c =>
    if o.dom != d then o else
    let vals := if c.vals.any fun v => v.id == 0x0801 then c.vals else setVal c.vals (PVal.rest 0x0801 (c.delayMax m) .stored)
    { o with kind := .chan { c with vals := vals }, charge := charge }
  | _ => if o.dom == d then { o with charge := charge } else o

/-- Switch a domain's allocation to its new rate: rings mapped anew and never written, charges and Bridges retyped (R255). -/
def State.switchRate (s : State) (d : Nat) (q : RateSeq) : State :=
  let m := s.mult d
  let m' := rateMult q.newRate
  let s0 := s
  let s := s.setDom d fun x => { x with rate := q.newRate, maxMult := if x.maxMult == 0 then m' else x.maxMult }
  let s := (s.objs.filter fun o => o.dom == d && o.ty == tRing).foldl (fun s o =>
    (s.clearTags ((o.ring?.map (·.rows)).getD [])).modObj tRing o.idx fun x => x.onRing fun r =>
      { r.atMult m' with rows := r.rows.take m', first := none, counted := [], body := [], lastWrite := 0 }) s
  let retyped := (s.bridges.filter fun p => p.2.touches d &&
    (bridgeType (s.dom p.2.from_).rate (s.dom p.2.to_).rate).map (·.1) != some p.2.typ).map fun p => p.1.handle
  let s : State := { s with objs := s.objs.map (Obj.retype s0 s d m m') }
  s.setDom d fun x => { x with seq := some { q with retyped := retyped } }

/-- A domain's TDM ports centre their buffers anew (R258). -/
def State.centrePorts (s : State) (d : Nat) : State :=
  { s with tdm := s.tdm.map fun t => if t.dom == d then { t with queue := [], ages := [], slipDue := [], slipTick := none, paired := false,
                                                                 slipSinceCentre := false, lastSlipEvent := none } else t }

/-- A fade-out due at the domain's next ashlar begins. -/
def State.fadeStart (s : State) (d : Nat) : State :=
  match (s.dom d).seq with
  | some q =>
    if (s.dom d).launchable && q.op != 0x0A82 && q.s ≤ 8 * (s.dom d).next &&
        !((s.dom d).st == .fadingIn && q.restart == (s.dom d).fadeFrom) then
      s.setDom d fun x => { x with st := .fadingOut, fadeFrom := q.s }
    else s
  | none => s

/-- A domain in HALTED is given its restart: the first tick boundary 1.0 ms after the present instant. -/
def State.haltDom (s : State) (d : Nat) (q : RateSeq) : State :=
  let fo := s.fs d
  let r := restartIndex s.q q.newRate
  let s := s.switchRate d { q with restart := r }
  (s.renumber d fo (s.fs d) r).setDom d fun x => { x with st := .halted, seq := x.seq.map fun y => { y with restart := r } }

/-- A time set takes place once every domain stands still: quarry time becomes the time given and each restart follows it. -/
def State.timeSet (s : State) : State :=
  match s.doms.findSome? fun x => x.seq.bind (·.qtime) with
  | none => s
  | some t =>
    if s.doms.any Dom.runs then s else
    let s := s.setOffset ((t : Int) - (s.clk.rate * s.clk.raw / 2 ^ 24 : Nat))
    (List.range 3).foldl (fun s d => match (s.dom d).seq with
      | some q => if (s.dom d).st == .halted && q.qtime.isSome then
          (s.setDom d fun x => { x with seq := some { q with restart := restartIndex s.q q.newRate, qtime := some 0 } })
        else s
      | none => s) s

/-- The stop instant of a domain's sequence (R255 steps 2 to 4, R259). -/
def State.stopInstant (s : State) (d : Nat) (q : RateSeq) : State :=
  if q.op == 0x0A82 then (s.carryTo q.s).haltDom d q
  else
    let i := stopIndex s d (s.dom d).fadeFrom
    let s := ((s.carryTo (instantOf i (s.fs d))).settleDom d (i - 1)).turnRings d (i / 8 + 1)
    let s := if d == 0 then s.latchCounts fun _ => true else s
    if q.newRate == 0xFF then
      let s := (s.renumber d (s.fs d) (s.fs d) 0).setDom d fun x => { x with st := .stopped, seq := none }
      let s := s.forceDue d 0
      rateDone { s with objs := s.objs.map fun o => if o.dom == d then o.zeroed else o } d q 0 0
    else (s.haltDom d q).timeSet

/-- The end of a fade-out, or the start of a STOPPED domain. -/
def execDomainStopInstant (dom : Nat) (s : State) : Host.Outcome State Fault Refusal :=
  .next (match (s.dom dom).seq with
    | some q =>
      if s.dieOn && dom ≤ 2 && ((s.dom dom).st == .fadingOut || ((s.dom dom).st == .stopped && q.op == 0x0A82)) then s.stopInstant dom q else s
    | none => s)

/-- Domain A stood still from ashlar `old` to ashlar `new`: pending snapshots of ashlars in between keep the counts latched at its stop,
those of later ones are still to come (R518). -/
def State.resumeSnaps (s : State) (old new : Nat) : State :=
  { s with snap := { s.snap with pending := s.snap.pending.map fun p =>
      if p.ashlar ≥ new then { p with counts := none } else if p.ashlar ≥ old then { p with gap := true } else p } }

/-- The restart boundary (R255 step 5, R256, R257). -/
def State.restartInstant (s : State) (d : Nat) (q : RateSeq) : State :=
  let s := s.carryTo (instantOf q.restart (s.fs d))
  let s := if d == 0 then s.resumeSnaps (s.dom 0).next (q.restart / 8) else s
  let s : State := { s with objs := s.objs.map fun o => if o.dom == d then o.zeroed else o }
  let s := s.setDom d fun x => { x with st := .fadingIn, fadeFrom := q.restart, next := q.restart / 8, tick := q.restart / s.tickLen d }
  (s.forceDue d q.restart).centrePorts d

/-- Processing resumes. -/
def execDomainRestartInstant (dom : Nat) (s : State) : Host.Outcome State Fault Refusal :=
  .next (match (s.dom dom).seq with
    | some q =>
      if s.dieOn && dom ≤ 2 && (s.dom dom).st == .halted && (q.qtime.isNone || q.qtime == some 0) then s.restartInstant dom q else s
    | none => s)

/-- Complete the time set once its last domain runs. -/
def State.timeSetDone (s : State) (q : RateSeq) : State :=
  if s.doms.any fun x => x.seq.any fun y => y.op == q.op then s
  else match s.jobs.find? fun j => j.desk == q.desk && j.seq == q.seq && j.op == q.op with
    | some j => s.done j 0
    | none => s

/-- The end of a fade-in: RUNNING, and the command's completion. -/
def State.fadeInEnd (s : State) (d : Nat) (q : RateSeq) : State :=
  let s := s.carryTo (instantOf ((s.dom d).fadeFrom + 240 * s.mult d) (s.fs d))
  let s := s.setDom d fun x => { x with st := .running, seq := none }
  if q.op == 0x0B05 || q.op == 0 then s.timeSetDone q else rateDone s d q 0 0

def execDomainFadeInEnd (dom : Nat) (s : State) : Host.Outcome State Fault Refusal :=
  .next (match (s.dom dom).seq with
    | some q => if s.dieOn && dom ≤ 2 && (s.dom dom).st == .fadingIn && q.restart == (s.dom dom).fadeFrom then s.fadeInEnd dom q else s
    | none => s)

/-! ## The commands -/

/-- Refuse in the completion event (R254). -/
def rateRefused (s : State) (f : CmdFrame) (op d : Nat) (q : RateSeq) (e : RateFail) : Except Err (State × Resp) :=
  accResp (rateDone (s.defer f op 0 none 1 0) d { q with restart := 0 } e.1 e.2)

/-- The launch of a rate change or stop: rounded up to a tick boundary, and moved to the next on-time one if late (R219). -/
def rateWhen (s : State) (l : Launch) (d : Nat) : When :=
  let a := s.ash d
  if l.kind == 0 then { s := tickFor (s.tickLen d) 0 a, tick := true, asked := 0, slipped := false, now := false }
  else
    let i := roundUp (l.index s d) (s.tickLen d)
    if onTime i 0 a then { s := i, tick := false, asked := i, slipped := false, now := false }
    else { s := tickFor (s.tickLen d) 0 a, tick := false, asked := i, slipped := true, now := false }

def rateSetBody (op : Nat) : Body := fun s f => do
  let d ← domainAt f 0
  need (if op == 0x0A83 then u8 f 1 == 0 else u8 f 1 ≤ 5) eRange 1
  reserved f 2 2
  let l ← launchAt s f 4
  need (l.kind == 0 || l.index s d ≤ s.idx d + 2 ^ 32) eRange 4
  need (op == 0x0A84 || d != 0) eState 0
  need (if op == 0x0A82 then (s.dom d).st == .stopped else (s.dom d).st != .stopped) eState 0
  need (op != 0x0A83 || (s.dom d).launchable) eState 0
  need (op != 0x0A83 || (s.dom d).seq.isNone) eBusy 0
  mayDefer s f
  let start := if l.kind == 0 then s.q
    else max s.q (if l.kind == 2 then l.val else instantOf l.val (s.fs l.dom))
  let w := rateWhen s l d
  let q0 : RateSeq := { desk := f.desk, seq := f.seq, op := op, oldRate := (s.dom d).rate,
                        newRate := if op == 0x0A83 then 0xFF else u8 f 1, s := 0, restart := 0, qtime := none, retyped := [] }
  if op == 0x0A82 then
    let q := { q0 with s := start, restart := restartIndex start (u8 f 1) }
    match rateTests s d q with
    | .error e => rateRefused s f op d q e
    | .ok s => accResp (let s := s.defer f op 0 none 1 0; if start == s.q then s.haltDom d q else s)
  else
    let q := { q0 with s := w.s, restart := if op == 0x0A83 then 0 else restartIndex (instantOf (stopIndex s d w.s) (s.fs d)) (u8 f 1) }
    let held : Except RateFail State := if op == 0x0A83 then .ok (s.setDom d fun x => { x with seq := some q }) else rateTests s d q
    match held with
    | .error e => rateRefused s f op d q e
    | .ok t =>
      if w.slipped && strictFlag f then rateRefused s f op d q (eLate, 0)
      else accResp ((t.defer f op 0 none 1 0).slipEvent f op 1 w)

def opDomainStart : RuziaOp := ⟨0x0A82, .change, true, len 20, rateSetBody 0x0A82⟩

/-- `domain.start`. -/
def execDomainStart (f : CmdFrame) (s : State) : Host.Outcome State Fault Refusal :=
  ruzia opDomainStart f s

def opDomainStop : RuziaOp := ⟨0x0A83, .change, true, len 20, rateSetBody 0x0A83⟩

/-- `domain.stop`. -/
def execDomainStop (f : CmdFrame) (s : State) : Host.Outcome State Fault Refusal :=
  ruzia opDomainStop f s

def opDomainRateSet : RuziaOp := ⟨0x0A84, .change, true, len 20, rateSetBody 0x0A84⟩

/-- `domain.rate.set`. -/
def execDomainRateSet (f : CmdFrame) (s : State) : Host.Outcome State Fault Refusal :=
  ruzia opDomainRateSet f s

/-- One domain's part of a time set that begins at an instant. -/
def timeSeq (desk seq op qtime at' fs : Nat) (x : Dom) : RateSeq :=
  { desk := desk, seq := seq, op := op, oldRate := x.rate, newRate := x.rate, s := roundUp (firstAt at' fs) 8, restart := 0,
    qtime := some qtime, retyped := [] }

/-- Start a time set: every running domain fades out from one domain A tick boundary (R334, R448). -/
def State.startTimeSet (s : State) (desk seq op qtime : Nat) : State :=
  let at' := instantOf (tickFor (s.tickLen 0) 0 (s.ash 0)) (s.fs 0)
  (List.range 3).foldl (fun s d =>
    if (s.dom d).launchable && (s.dom d).seq.isNone then s.setDom d fun x => { x with seq := some (timeSeq desk seq op qtime at' (s.fs d) x) }
    else s) s

end Sys2Proof.Machine
end

