-- ==== Sys2Proof/Machine/SysDesk.lean ====
section
/-! DEFINITION. The sys and desk families (R295-R297, R307, R319-R321, R343-R349), snapshots asked for by command
(R515-R517, R520), and the events of sessions: lease, attachment, delivery. -/
namespace Sys2Proof.Machine

/-! ## sys -/

/-- ROLE codes of R319 and R465; a forming member shows 0. -/
def Role.code : Role → Nat
  | .single => 0
  | .forming => 0
  | .active => 1
  | .standby => 2
  | .stale => 3

/-- Free bytes of the package store (R116). -/
def pkgFree (s : State) : Nat := 67108864 - sumNat (s.packages.map (·.total))

def sysInfoBody : Body := fun s _ =>
  okResp s (le 2 0x0302 ++ le 2 0x00B0 ++ le 4 s.host.image ++ le 1 s.host.imageSlot ++ le 1 s.red.role.code ++ le 2 s.extId ++
    le 8 s.epoch ++ (s.doms.flatMap fun d => le 1 (if d.st == .stopped then 0xFF else d.rate)) ++
    le 1 (if s.isKeeper then 1 else 0) ++ le 2 s.quarry.p ++ le 2 0 ++ le 4 (536870912 - s.deepUsed) ++
    le 4 (1073741824 - s.delayUsed) ++ le 4 (1610612736 - captureUsed s) ++ le 4 (pkgFree s) ++
    le 4 (wuLimit s - totalCharge s) ++ le 2 (512 - slotsUsed s) ++ le 2 (4096 - s.sieveUsed) ++ le 4 (65536 - s.ringRows) ++
    le 4 (65536 - (s.ofType tRoute).length) ++ le 4 0)

def opSysInfo : RuziaOp := ⟨0x0100, .read, false, len 0, sysInfoBody⟩

/-- `sys.info`: any desk, with or without a session, a standby too. -/
def execSysInfo (f : CmdFrame) (s : State) : Host.Outcome State Fault Refusal :=
  ruzia opSysInfo f s

/-- Accept a snapshot of ashlar `a` into a bank (R515, R516). -/
def State.takeSnapshot (s : State) (bank a origin keeper keeperSeq : Nat) : State :=
  let n := s.snap.seq + 1
  { s with snap := { s.snap with seq := n, pending := s.snap.pending ++
      [{ bank := bank, ashlar := a, snapSeq := n, origin := origin, keeperId := keeper, keeperSeq := keeperSeq, gap := false, counts := none }] } }

def Snap.busy (n : Snap) (bank : Nat) : Bool := n.pending.any fun p => p.bank == bank

/-- The ashlar a snapshot takes: asked, or the one that ends at the first domain A tick boundary on time with `lead`
ashlars (R517, R520). -/
def snapWhen (s : State) (l : Launch) (lead : Nat) : Nat × Bool :=
  let tick := roundUp (8 * (s.now + lead + 1)) (s.tickLen 0) / 8 - 1
  if l.kind == 0 then (tick, false)
  else
    let a := l.index s 0 / 8
    if s.now + lead ≤ a then (a, false) else (tick, true)

def sysSnapshotBody : Body := fun s f => do
  let l ← launchAt s f 0
  let b := u8 f 16
  need (b ≤ 1 || b == 0xFF) eRange 16
  need (u8 f 17 ≤ 1) eRange 17
  reserved f 18 2
  need (l.kind == 0 || l.index s 0 ≤ s.idx 0 + 2 ^ 32) eRange 0
  need (u8 f 17 == 0 || s.isKeeper) eState 17
  let bank := if b == 0xFF then 1 - s.snap.lastBank else b
  need (!(s.snap.busy bank)) eBusy 16
  let (a, late) := snapWhen s l (if u8 f 17 == 1 then s.quarry.p + 4 else 2)
  if late && strictFlag f then .error { status := eLate, detail := le 8 (8 * a) }
  else
    let s := s.takeSnapshot bank a (if u8 f 17 == 1 then 2 else 1) (if u8 f 17 == 1 then s.extId else 0)
      (if u8 f 17 == 1 then s.snap.seq + 1 else 0)
    let n := s.snap.seq
    let s := if u8 f 17 == 1 then s.sendCtrl 4 0xFFFF (le 1 5 ++ le 1 bank ++ le 6 0 ++ le 8 a ++ le 8 n) else s
    let w : When := { s := 8 * a, tick := false, asked := l.index s 0, slipped := late, now := false }
    okResp (s.slipEvent f 0x0101 1 w) (le 8 n)

def opSysSnapshot : RuziaOp := ⟨0x0101, .locl, true, len 20, sysSnapshotBody⟩

/-- `sys.snapshot`. -/
def execSysSnapshot (f : CmdFrame) (s : State) : Host.Outcome State Fault Refusal :=
  ruzia opSysSnapshot f s

/-- RAW cycles of 10 ms at the 250 MHz of TIME (R32). -/
def restartDelay : Nat := 2500000

def sysRestartBody : Body := fun s f => do
  need (u8 f 0 ≤ 2) eRange 0
  reserved f 1 3
  okResp { s with host := { s.host with restart := some (s.clk.raw + restartDelay, u8 f 0) } }

def opSysRestart : RuziaOp := ⟨0x0102, .locl, true, len 4, sysRestartBody⟩

/-- `sys.restart`: the engine die restarts 10 ms after the response. -/
def execSysRestart (f : CmdFrame) (s : State) : Host.Outcome State Fault Refusal :=
  ruzia opSysRestart f s

def sysImageBody : Body := fun s f => do
  need (u8 f 0 == 1 || u8 f 0 == 2) eRange 0
  reserved f 1 3
  let b ← bulkAt s f 4 0 0xFFFFFFFF
  need (u8 f 0 != s.host.imageSlot + 1) eState 0
  mayDefer s f
  accResp (s.defer f 0x0103 0 (some b) 0 0)

def opSysImageWrite : RuziaOp := ⟨0x0103, .locl, true, len 20, sysImageBody⟩

/-- `sys.image.write`: checked as the boot would check it once its data has arrived. -/
def execSysImageWrite (f : CmdFrame) (s : State) : Host.Outcome State Fault Refusal :=
  ruzia opSysImageWrite f s

/-! ## desk -/

/-- A desk's handle: its session count is the generation (R285). -/
def State.deskHandle (s : State) (d : Nat) : Nat := mkHandle tDesk (s.desk d).sessions d

def Transport.code : Transport → Nat
  | .pcie => 0
  | .udp => 1
  | .seam => 2

/-- The quota records of `desk.info`; desk 0 has no quotas and its figures are open (log entry 2). -/
def quotaBytes (s : State) (d : Nat) : List Byte × State :=
  (List.range 11).foldl (fun (p : List Byte × State) i =>
    let (q, s) := if d == 0 then p.2.draw else (BitVec.ofNat 32 ((p.2.desk d).quota.getD i 0), p.2)
    (p.1 ++ leWord q ++ le 4 (useAll s d (i + 1)), s)) ([], s)

def deskInfoBody : Body := fun s f => do
  need (u16 f 0 ≤ 16) eRange 0
  reserved f 2 2
  let d := u16 f 0
  let k := s.desk d
  let (bs, s) := quotaBytes s d
  okResp s (le 4 (s.deskHandle d) ++ le 1 k.transport.code ++ le 1 (if k.isOpen then 1 else 0) ++ le 2 0 ++ le 4 k.lease ++ bs)

def opDeskInfo : RuziaOp := ⟨0x0200, .read, false, len 4, deskInfoBody⟩

/-- `desk.info`. -/
def execDeskInfo (f : CmdFrame) (s : State) : Host.Outcome State Fault Refusal :=
  ruzia opDeskInfo f s

/-- Where events of a session opened by this frame go (R291, R296). -/
def eventDest (f : CmdFrame) : Nat × Nat :=
  match f.via with
  | .udp a p => (a, if u16 f 20 == 0 then p else u16 f 20)
  | _ => (0, 0)

def deskOpenBody : Body := fun s f => do
  let lease := u32 f 4
  need (lease == 0 || (1000 ≤ lease && lease ≤ 60000)) eRange 4
  match qOf f.payload 8 with
  | none => .error { status := eRange, field := 8 }
  | some q =>
    let k := s.desk f.desk
    need (k.transport != .udp || (q ≤ s.q + 2 * secondQ && s.q ≤ q + 2 * secondQ && k.lastOpen < q)) eRange 8
    reserved f 22 2
    let s := s.setDesk f.desk fun k =>
      { k with isOpen := true, sessions := (k.sessions + 1) % 64, lease := if lease == 0 then 5000 else lease,
               newest := (u32 f 0 + (2 ^ 32 - 1)) % 2 ^ 32, lastOpen := q, dstAddr := (eventDest f).1, dstPort := (eventDest f).2 }
    okResp s (le 4 (s.deskHandle f.desk) ++ le 4 k.evtSeq)

def opDeskOpen : RuziaOp := ⟨0x0201, .locl, false, len 24, deskOpenBody⟩

/-- `desk.open` (R296). -/
def execDeskOpen (f : CmdFrame) (s : State) : Host.Outcome State Fault Refusal :=
  ruzia opDeskOpen f s

/-- Close a session, told to desk 0 with its reason. -/
def State.closeDesk (s : State) (d reason : Nat) : State :=
  if (s.desk d).isOpen then (s.setDesk d fun k => { k with isOpen := false }).raise0 0x0205 (le 2 d ++ le 2 reason) else s

def deskCloseBody : Body := fun s f => okResp (s.closeDesk f.desk 1)

def opDeskClose : RuziaOp := ⟨0x0202, .locl, false, len 0, deskCloseBody⟩

/-- `desk.close`. -/
def execDeskClose (f : CmdFrame) (s : State) : Host.Outcome State Fault Refusal :=
  ruzia opDeskClose f s

def deskPingBody : Body := fun s _ => okResp s

def opDeskPing : RuziaOp := ⟨0x0203, .locl, false, len 0, deskPingBody⟩

/-- `desk.ping`. -/
def execDeskPing (f : CmdFrame) (s : State) : Host.Outcome State Fault Refusal :=
  ruzia opDeskPing f s

/-- A transport code. -/
def transportOf : Nat → Transport
  | 0 => .pcie
  | 1 => .udp
  | _ => .seam

def deskAttachBody : Body := fun s f => do
  need (u16 f 0 ≤ 16) eRange 0
  need (u8 f 2 ≤ 2) eRange 2
  reserved f 3 1
  need ((u8 f 2 == 2) == (u16 f 4 != 0)) eRange 4
  reserved f 6 2
  okResp (s.setDesk (u16 f 0) fun k => { k with move := some (transportOf (u8 f 2), u16 f 4) })

def opDeskAttach : RuziaOp := ⟨0x0204, .locl, true, len 8, deskAttachBody⟩

/-- `desk.attach`: the OK leaves on the old attachment. -/
def execDeskAttach (f : CmdFrame) (s : State) : Host.Outcome State Fault Refusal :=
  ruzia opDeskAttach f s

/-- Every command the desk has taken is answered: its attachment moves (R295). -/
def execDeskAttachEffect (desk : Nat) (s : State) : Host.Outcome State Fault Refusal :=
  .next (if !s.serving then s else match (s.desk desk).move with
  | none => s
  | some (t, e) =>
    if desk > 16 || s.unanswered desk > 0 then s
    else (s.closeDesk desk 3).setDesk desk fun k => { k with transport := t, engine := e, move := none })

def deskKeyBody : Body := fun s f => do
  need (u16 f 0 ≤ 16) eRange 0
  reserved f 2 2
  let raw := slice f.payload 4 32
  let key := if raw.all (· == 0) then [] else raw
  let s := s.setDesk (u16 f 0) fun k => { k with key := key }
  okResp { s with journal := { s.journal with keys := modAt s.journal.keys (u16 f 0) fun _ => key } }

def opDeskKeySet : RuziaOp := ⟨0x0205, .locl, true, len 36, deskKeyBody⟩

/-- `desk.key.set`: kept in the configuration journal. -/
def execDeskKeySet (f : CmdFrame) (s : State) : Host.Outcome State Fault Refusal :=
  ruzia opDeskKeySet f s

/-- One quota set: OVER_QUOTA where the use exceeds it, and the default class raised to a new best class (R347, R348). -/
def State.setQuota (s : State) (d kind v : Nat) : State :=
  let s := s.setDesk d fun k => { k with quota := modAt k.quota (kind - 1) fun _ => v }
  if kind == 11 then s.setDesk d fun k => { k with defClass := max k.defClass v }
  else if kind == 10 then s
  else
    let use := useAll s d kind
    if use > v then
      (s.setDesk d fun k => { k with overs := if k.overs.contains kind then k.overs else k.overs ++ [kind] }).raise [d, 0] 0x0206
        (le 2 d ++ le 2 kind ++ le 4 v ++ le 4 use)
    else s.clearQuota d

def deskQuotaBody : Body := fun s f => do
  let d := u16 f 0
  need (1 ≤ d && d ≤ 16) eRange 0
  reserved f 2 2
  need (1 ≤ u16 f 4 && u16 f 4 ≤ 14) eRange 4
  reserved f 6 2
  let rs ← eachItem (fun i => atItem i do
    let b := 8 + 8 * i
    need (1 ≤ u16 f b && u16 f b ≤ 11) eRange b
    reserved f (b + 2) 2
    need (u16 f b != 11 || u32 f (b + 4) ≤ 3) eRange (b + 4)
    .ok (u16 f b, u32 f (b + 4))) (u16 f 4) 0
  okResp (rs.foldl (fun s r => s.setQuota d r.1 r.2) s)

def opDeskQuotaSet : RuziaOp := ⟨0x0206, .change, true, lenCount 8 4 8, deskQuotaBody⟩

/-- `desk.quota.set`. -/
def execDeskQuotaSet (f : CmdFrame) (s : State) : Host.Outcome State Fault Refusal :=
  ruzia opDeskQuotaSet f s

def deskDefaultsBody : Body := fun s f => do
  need (u8 f 0 ≤ 3 || u8 f 0 == 0xFF) eRange 0
  need (u8 f 1 ≤ 1 || u8 f 1 == 0xFF) eRange 1
  need (u8 f 2 ≤ 2 || u8 f 2 == 0xFF) eRange 2
  reserved f 3 1
  need (u32 f 4 ≤ 96000 || u32 f 4 == 0xFFFFFFFF) eRange 4
  if u8 f 0 != 0xFF then classPermitted s f.desk (u8 f 0) 0
  okResp (s.setDesk f.desk fun k =>
    { k with defClass := override (u8 f 0) 0xFF k.defClass, defPolicy := override (u8 f 1) 0xFF k.defPolicy,
             defLaw := override (u8 f 2) 0xFF k.defLaw, defT := override (u32 f 4) 0xFFFFFFFF k.defT })

def opDeskDefaultsSet : RuziaOp := ⟨0x0207, .change, false, len 8, deskDefaultsBody⟩

/-- `desk.defaults.set`. -/
def execDeskDefaultsSet (f : CmdFrame) (s : State) : Host.Outcome State Fault Refusal :=
  ruzia opDeskDefaultsSet f s

/-- An event frame (R282). -/
def Event.frame (e : Event) : List Byte :=
  le 2 e.code ++ le 2 e.payload.length ++ le 4 e.seq ++ le 8 e.ashlar ++ e.payload

def deskReplayBody : Body := fun s f => do
  reserved f 4 4
  let b ← bulkAt s f 8 1 131072
  mayDefer s f
  let es := (s.desk f.desk).history.filter fun e => (e.seq + 2 ^ 32 - u32 f 0) % 2 ^ 32 < 2 ^ 31
  accResp (s.deferOut f 0x0208 0 b ((es.flatMap Event.frame).take b.len))

def opDeskEventReplay : RuziaOp := ⟨0x0208, .locl, false, len 24, deskReplayBody⟩

/-- `desk.event.replay` (R307). -/
def execDeskEventReplay (f : CmdFrame) (s : State) : Host.Outcome State Fault Refusal :=
  ruzia opDeskEventReplay f s

/-- A lease runs out: PCIe sessions have none (R296, R297). -/
def execLeaseExpired (desk : Nat) (s : State) : Host.Outcome State Fault Refusal :=
  .next (if s.serving && desk ≤ 16 && (s.desk desk).transport != .pcie then s.closeDesk desk 2 else s)

/-- Put one event frame on the desk's carrier. -/
def State.sendEvent (s : State) (d : Nat) (bs : List Byte) : State :=
  let k := s.desk d
  match k.transport with
  | .pcie =>
    let s := (s.write (slotAddr d 0x1000 128 (k.evtTail % 16)) bs).setDesk d fun k => { k with evtTail := (k.evtTail + 1) % 65536 }
    if k.evtIrqEn then s.irq d else s
  | .udp => s.emit (.datagram k.dstAddr k.dstPort 3 d bs)
  | .seam => s.sendCtrl 1 k.engine bs

/-- The next undelivered event of a history. -/
def Desk.nextEvent (k : Desk) : Option Event := k.history[k.history.length - k.undelivered]?

/-- An active tells its standbys what it has delivered (R467). -/
def State.tellDelivered (s : State) (d seq : Nat) : State :=
  if s.red.role == .active then
    { s with red := { s.red with sendDelta := s.red.sendDelta ++ [TetherRec.delivered d seq (s.desk d).newest] } }
  else s

/-- Events a member that is no active sends: those of LOCAL commands and of its own sessions, faults and roles (R475). -/
def Event.isLocal (e : Event) : Bool :=
  match e.code / 256 with
  | 1 => e.code == 0x0101
  | 2 => (0x0202 ≤ e.code && e.code ≤ 0x0205) ||
      (e.code == 0x0201 && [0x0103, 0x0208, 0x0E01, 0x0E03, 0x1001].contains (fieldAt e.payload 0 2))
  | 14 => true
  | 15 => true
  | 16 => true
  | _ => false

/-- Deliver the next event of a desk, EVENTS_LOST before the events that follow a loss (R307). The EVENT_SEQ of
EVENTS_LOST itself is open (log entry 2). -/
def State.deliver (s : State) (d : Nat) : State :=
  let k := s.desk d
  let ready := match k.transport with
    | .pcie => ringHeld k.evtTail k.evtHead < 16
    | _ => k.isOpen
  if d > 16 || !s.serving || !ready then s else
  let silent := s.red.role == .standby || s.red.role == .stale
  match k.lost with
  | some (a, b) =>
    let (n, s) := s.draw
    let e : Event := { code := 0x0202, seq := n.toNat, ashlar := s.now, payload := le 4 a ++ le 4 b }
    (s.sendEvent d e.frame).setDesk d fun k => { k with lost := none, evtLost := k.evtLost || k.transport == .pcie }
  | none =>
    if k.undelivered == 0 then s else
    match k.nextEvent with
    | none => s
    | some e =>
      let s1 := if silent && !e.isLocal then s else s.sendEvent d e.frame
      (s1.setDesk d fun k => { k with undelivered := k.undelivered - 1 }).tellDelivered d e.seq

/-- One event leaves a desk's history. -/
def execEventDelivery (desk : Nat) (s : State) : Host.Outcome State Fault Refusal := .next (s.deliver desk)

end Sys2Proof.Machine
end

