-- ==== Sys2Proof/Machine/Ports.lean ====
section
/-! DEFINITION. The port family (R327-R329, R592), the TDM ports' framing, delivery and slip (R408-R424), and the field outputs
(R427-R429). The field inputs' functions are in `FieldIo.lean`. -/
namespace Sys2Proof.Machine

/-! ## Who decides in a set (R433, R461) -/

/-- This member decides what every member applies. -/
def State.decides (s : State) : Bool := s.red.role == .single || s.red.role == .active

/-- Carry a decision in the Tether deltas (R467). -/
def State.decision (s : State) (kind obj idx : Nat) (value : Int) : State :=
  if s.red.role == .active then
    { s with red := { s.red with sendDelta := s.red.sendDelta ++ [TetherRec.decision kind obj idx value] } }
  else s

/-- A decision that every member applies in the ashlar two on; a single engine applies it at once (R433). -/
def State.decide (s : State) (kind obj : Nat) (value : Int) (apply : State → State) : State :=
  if s.red.role == .active then
    let r := TetherRec.decision kind obj (s.now + 2) value
    { s with red := { s.red with sendDelta := s.red.sendDelta ++ [r], deltas := s.red.deltas ++ [(s.now + 2, r)] } }
  else apply s

/-! ## Ports -/

def State.port (s : State) (p : Nat) : Tdm := s.tdm.getD p Tdm.reset

def State.setPort (s : State) (p : Nat) (f : Tdm → Tdm) : State := { s with tdm := modAt s.tdm p f }

/-- Index and handle of a port, owner included. -/
def portOwner (s : State) (p : Nat) : Nat :=
  if p < 128 then (s.port p).owner
  else if 256 ≤ p && p < 288 then (s.lane (p - 256)).owner
  else if 768 ≤ p && p < 800 then (s.eth.getD (p - 768) EthPort.reset).owner
  else if 1024 ≤ p && p < 1056 then (s.gpi.getD (p - 1024) Gpi.reset).owner
  else if 1056 ≤ p && p < 1088 then (s.gpo.getD (p - 1056) Gpo.reset).owner
  else 0

def setOwner (s : State) (p d : Nat) : State :=
  if p < 128 then s.setPort p fun t => { t with owner := d }
  else if 256 ≤ p && p < 288 then s.setLane (p - 256) fun l => { l with owner := d }
  else if 768 ≤ p && p < 800 then { s with eth := modAt s.eth (p - 768) fun e => { e with owner := d } }
  else if 1024 ≤ p && p < 1056 then { s with gpi := modAt s.gpi (p - 1024) fun g => { g with owner := d } }
  else { s with gpo := modAt s.gpo (p - 1056) fun g => { g with owner := d } }

/-- Clocks present, frames valid, and no slip within the last 1,000 ticks (R418). -/
def tdmLink (s : State) (t : Tdm) : Bool :=
  t.configured && !t.lost && t.valid > 0 && !(t.slipTick.any fun k => s.tickOf t.dom < k + 1000)

/-- A quad carries Ethernet (modes 1 to 3). -/
def ethMode (m : Nat) : Bool := 1 ≤ m && m ≤ 3

/-- Quarter of the lanes. -/
def quadLanes (q : Nat) : List Nat := [4 * q, 4 * q + 1, 4 * q + 2, 4 * q + 3]

def counters (s : State) (base n : Nat) : List Byte := (List.range n).flatMap fun k => le 8 (s.ctr (base + 8 * k))

def pad20 (bs : List Byte) : List Byte := slice bs 0 20

/-- CONFIG, LINK and counters of a port (R592). -/
def portFields (s : State) (p : Nat) : List Byte × Nat × List Byte :=
  let link (b : Bool) : Nat := if b then 1 else 0
  if p < 128 then
    let t := s.port p
    (pad20 t.config, link (tdmLink s t), counters s (ctrTdm p 0) 9)
  else if p < 288 then
    let l := s.lane (p - 256)
    (pad20 l.config, link l.isUp, counters s (ctrLane (p - 256) 0) 10)
  else if p < 768 then
    (pad20 [], link ((s.red.peers[p - 512]?).any fun r => r.seen && !r.lost), [])
  else if p < 800 then
    let e := s.eth.getD (p - 768) EthPort.reset
    (pad20 [], link e.link, counters s (ctrEth (p - 768) 0) 8)
  else if p < 1056 then
    let g := s.gpi.getD (p - 1024) Gpi.reset
    (pad20 g.config, link g.level, counters s (ctrGpi (p - 1024) 0) 2)
  else
    let g := s.gpo.getD (p - 1056) Gpo.reset
    (pad20 g.config, link g.on, counters s (ctrGpo (p - 1056) 0) 3)

def portInfoBody : Body := fun s f => do
  let p ← resolvePort s (u32 f 0) 0
  let (cfg, link, cs) := portFields s p
  let d := if p < 128 && (s.port p).configured then (s.port p).dom else 0xFF
  okResp s (le 4 (portHandle p) ++ le 1 (portOwner s p) ++ le 1 0xFF ++ le 1 d ++ le 1 0 ++ le 4 0 ++ le 4 0 ++ cfg ++ le 1 link ++
    le 3 0 ++ cs)

def opPortInfo : RuziaOp := ⟨0x0900, .read, false, len 4, portInfoBody⟩

/-- `port.info`. -/
def execPortInfo (f : CmdFrame) (s : State) : Host.Outcome State Fault Refusal :=
  ruzia opPortInfo f s

/-- Routes, bindings or streams on a port. -/
def portBusy (s : State) (p : Nat) : Bool :=
  let h := portHandle p
  (s.routes.any fun r => r.2.sink == h) ||
  (p < 128 && !(s.port p).binds.isEmpty) ||
  (256 ≤ p && p < 288 && !(s.lane (p - 256)).lands.isEmpty) ||
  (768 ≤ p && p < 800 && s.objs.any fun o => match o.stream? with
    | some st => st.ethPort == h || st.ethPort2 == h
    | none => false)

def portAssignBody : Body := fun s f => do
  let p ← resolvePort s (u32 f 0) 0
  need (p != 512 && p != 513) eHandle 0 (u32 f 0)
  need (u16 f 4 ≤ 16) eRange 4
  reserved f 6 2
  need (!(portBusy s p)) eState 0 (u32 f 0)
  okResp (setOwner s p (u16 f 4))

def opPortAssign : RuziaOp := ⟨0x0901, .change, true, len 8, portAssignBody⟩

/-- `port.assign`. -/
def execPortAssign (f : CmdFrame) (s : State) : Host.Outcome State Fault Refusal :=
  ruzia opPortAssign f s

/-- A TDM port of a handle. -/
def tdmPort (s : State) (h field : Nat) : Except Err Nat := do
  let p ← resolvePort s h field
  need (p < 128) eHandle field h
  .ok p

/-- Word lengths of dither at sample index `n`: new ones switch in at their ashlar boundary (R164). -/
def ditherAt (now : List Nat) (next : Option (Nat × List Nat)) (n : Nat) : List Nat :=
  match next with
  | some (a, l) => if 8 * a ≤ n then l else now
  | none => now

/-- A port's dither in ashlar `a`. -/
def Tdm.takeDither (a : Nat) (t : Tdm) : Tdm :=
  match t.ditherNext with
  | some (b, l) => if b ≤ a then { t with dither := l, ditherNext := none } else t
  | none => t

/-- A TDM port of a bank with a supply class, which has not left it since the start (R578). -/
def bankOk (s : State) (p : Nat) : Bool :=
  let c := s.host.bankVio.getD (p / 16) 0
  c == 1 || c == 2

def tdmWidth (n : Nat) : Bool := n == 16 || n == 24 || n == 32

def portTdmBody : Body := fun s f => do
  let p ← tdmPort s (u32 f 0) 0
  owned f (s.port p).owner (u32 f 0)
  need (u8 f 4 ≤ 1) eRange 4
  need (u8 f 5 ≤ 2) eRange 5
  need (1 ≤ u8 f 6 && u8 f 6 ≤ 32 && (u8 f 5 == 0 || u8 f 6 == 2)) eRange 6
  need (tdmWidth (u8 f 7)) eRange 7
  need (tdmWidth (u8 f 8) && u8 f 8 ≤ u8 f 7) eRange 8
  need (u8 f 9 ≤ 7) eRange 9
  need (u8 f 10 ≤ 2 && u8 f 10 + u8 f 8 ≤ u8 f 7) eRange 10
  need (u8 f 11 ≤ 2) eRange 11
  need (u16 f 12 ≤ 511) eRange 12
  need (u8 f 16 ≤ 15 && (!(bit (u8 f 16) 3) || u8 f 8 == 32)) eRange 16
  reserved f 17 3
  need (bankOk s p) eState 0 (u32 f 0)
  need (!(portBusy s p)) eState 0 (u32 f 0)
  okResp (s.setPort p fun t =>
    { t with config := slice f.payload 0 20, dir := u8 f 4, slots := u8 f 6, slotBits := u8 f 7, dataBits := u8 f 8, edges := u8 f 9,
             guard := u8 f 10, dom := u8 f 11, offset := u16 f 12, suspectN := u16 f 14, flags := u8 f 16, configured := true,
             paired := false, queue := [], out := [], tails := [], ages := [], slipDue := [], slipTick := none, lastSlipEvent := none,
             slipSinceCentre := false, suspect := [], muted := [], muteRamps := [], encroach := [], tristated := false,
             valid := 0, lost := s.host.bankLost.contains (p / 16), fade := GainRec.unity, ditherNext := none,
             dither := (ditherSet t.dither t.ditherNext).map fun d => if d > u8 f 8 then 0 else d })

def opPortTdmConfig : RuziaOp := ⟨0x0902, .change, false, len 20, portTdmBody⟩

/-- `port.tdm.config`: the port re-centres when valid frames arrive (R416). -/
def execPortTdmConfig (f : CmdFrame) (s : State) : Host.Outcome State Fault Refusal :=
  ruzia opPortTdmConfig f s

/-- Rings for a run of writers: `n` rings from a handle that pass a test, without writers (R58). -/
def bindRings (s : State) (f : CmdFrame) (h n field : Nat) (fit : Obj → Ring → Bool) : Except Err (List Nat) := do
  let o ← resolve s [tRing] h field
  let step := s.maxMult o.dom
  let rs ← (List.range n).mapM fun k => do
    match s.ringAt (o.idx + step * k) with
    | none => .error { status := eHandle, field := field, handle := h }
    | some p => .ok p
  rs.forM fun p => owned f p.1.desk p.1.handle field
  rs.forM fun p => need (fit p.1 p.2 && p.2.writer == 0 && !p.1.freeing) eState field p.1.handle
  rs.forM fun p => settled p.1 field
  .ok (rs.map fun p => p.1.idx)

/-- Bind rings to the writers with sub numbers from `sub`, making room on their banks (R86). -/
def State.bindWriters (h kind : Nat) : List Nat → Nat → State → Except Err State
  | [], _, s => .ok s
  | i :: is, sub, s => do
    let s ← roomFor s i
    State.bindWriters h kind is (sub + 1) (s.modObj tRing i fun o => o.onRing fun r =>
      { r with writer := h, writerKind := kind, writerSub := sub, first := none })

def portBindBody : Body := fun s f => do
  let p ← tdmPort s (u32 f 0) 0
  let t := s.port p
  if u32 f 8 != 0 then
    let _ ← resolve s [tRing] (u32 f 8) 8
  owned f t.owner (u32 f 0)
  let a := u8 f 4
  let n := u8 f 5
  need (a < t.slots) eRange 4
  need (1 ≤ n && a + n ≤ t.slots) eRange 5
  reserved f 6 2
  need (t.configured && t.dir == 0) eState 0 (u32 f 0)
  let mine := t.binds.filter fun b => a ≤ b.1 && b.1 < a + n
  if u32 f 8 == 0 then
    let s := mine.foldl (fun s b => s.unbindWriter b.2) s
    okResp (s.setPort p fun t => { t with binds := t.binds.filter fun b => !(a ≤ b.1 && b.1 < a + n) })
  else
    let rs ← bindRings s f (u32 f 8) n 8 fun o r => o.dom == t.dom && r.mult == s.mult t.dom
    need mine.isEmpty eState 4 (u32 f 0)
    let s ← State.bindWriters (portHandle p) 1 rs a s
    okResp (s.setPort p fun t => { t with binds := t.binds ++ rs.zipIdx.map fun r => (a + r.2, r.1) })

def opPortSlotBind : RuziaOp := ⟨0x0903, .change, false, len 12, portBindBody⟩

/-- `port.slot.bind`: input slots only; ring 0 unbinds. -/
def execPortSlotBind (f : CmdFrame) (s : State) : Host.Outcome State Fault Refusal :=
  ruzia opPortSlotBind f s

/-- Dither of a transmit Stream's channels (R391). -/
def streamDither (s : State) (f : CmdFrame) : Except Err (State × Resp) := do
  let o ← resolve s [tStream] (u32 f 0) 0
  owned f o.desk o.handle
  match o.stream? with
  | none => .error { status := eHandle, field := 0, handle := o.handle }
  | some st =>
    let a := u8 f 4
    let n := u8 f 5
    need (a < st.channels) eRange 4
    need (1 ≤ n && a + n ≤ st.channels) eRange 5
    need ((u8 f 6 == 0 || u8 f 6 == 16 || u8 f 6 == 20 || u8 f 6 == 24) && u8 f 6 ≤ (if st.format == 0 then 16 else 24)) eRange 6
    reserved f 7 1
    need st.tx eState 0 o.handle
    settled o
    let word (k : Nat) : Nat := if a ≤ k && k < a + n then u8 f 6 else (ditherSet st.dither st.ditherNext).getD k 0
    okResp (s.upd o.handle fun x => x.onStream fun t =>
      { t with dither := ditherAt t.dither t.ditherNext (8 * s.ash o.dom), ditherNext := some (nextBoundary s o.dom, (List.range 64).map word) })

def portDitherBody : Body := fun s f => do
  if hType (u32 f 0) == tStream then streamDither s f
  else
  let p ← tdmPort s (u32 f 0) 0
  let t := s.port p
  owned f t.owner (u32 f 0)
  let a := u8 f 4
  let n := u8 f 5
  need (a < t.slots) eRange 4
  need (1 ≤ n && a + n ≤ t.slots) eRange 5
  need ((u8 f 6 == 0 || u8 f 6 == 16 || u8 f 6 == 20 || u8 f 6 == 24) && u8 f 6 ≤ t.dataBits) eRange 6
  reserved f 7 1
  need (t.configured && t.dir == 1) eState 0 (u32 f 0)
  let word (k : Nat) : Nat := if a ≤ k && k < a + n then u8 f 6 else (ditherSet t.dither t.ditherNext).getD k 0
  okResp (s.setPort p fun t =>
    { t with dither := ditherAt t.dither t.ditherNext (8 * s.ash t.dom), ditherNext := some (nextBoundary s t.dom, (List.range 32).map word) })

def opPortDitherSet : RuziaOp := ⟨0x0904, .change, false, len 8, portDitherBody⟩

/-- `port.dither.set` (R164). -/
def execPortDitherSet (f : CmdFrame) (s : State) : Host.Outcome State Fault Refusal :=
  ruzia opPortDitherSet f s

/-- What holds a quad in its mode (R328). -/
def quadBusy (s : State) (q : Nat) : Bool :=
  let ls := quadLanes q
  let port (i : Nat) := portHandle i
  ls.any (fun l => !(s.lane l).lands.isEmpty || (s.lane l).fwd.any (fun e => bit e.2 31)) ||
  (s.lanes.any fun x => x.fwd.any fun e => bit e.2 31 && ls.contains (bits e.2 20 16)) ||
  (s.routes.any fun r => ls.any fun l => r.2.sink == port (256 + l)) ||
  (ls.any fun l => portBusy s (768 + l)) ||
  (s.quadModes.getD q 4 == 0 && (ls.any fun l => (s.lane l).isUp) && s.desks.any fun k => k.transport == .seam) ||
  (match s.timing.selected with
    | some c =>
      let p := (s.timing.cands.getD c Cand.reset).port
      ls.any fun l => p == port (256 + l) || p == port (768 + l)
    | none => false)

def portQuadBody : Body := fun s f => do
  let q := u8 f 0
  let m := u8 f 1
  need (q ≤ 7) eRange 0
  need (m ≤ 4) eRange 1
  reserved f 2 2
  need (!(quadBusy s q)) eState 0
  need (m != 0 || s.mult 0 == 1) eState 1
  let clear (l : Lane) : Lane := { Lane.reset with owner := l.owner }
  let s := (quadLanes q).foldl (fun s l => s.setLane l clear) s
  let s := (quadLanes q).foldl (fun (s : State) l => { s with eth := modAt s.eth l fun e => { e with link := false, speed := 0, arp := [], members := [] } }) s
  okResp { s with quadModes := modAt s.quadModes q fun _ => m,
                  journal := { s.journal with quadModes := modAt s.journal.quadModes q fun _ => m } }

def opPortQuadMode : RuziaOp := ⟨0x0905, .change, true, len 4, portQuadBody⟩

/-- `port.quad.mode`: kept in the configuration journal. -/
def execPortQuadMode (f : CmdFrame) (s : State) : Host.Outcome State Fault Refusal :=
  ruzia opPortQuadMode f s

/-! ## Field bindings -/

def gpiPort (s : State) (h : Nat) : Except Err Nat := do
  let p ← resolvePort s h 0
  need (1024 ≤ p && p < 1056) eHandle 0 h
  .ok (p - 1024)

def gpoPort (s : State) (h : Nat) : Except Err Nat := do
  let p ← resolvePort s h 0
  need (1056 ≤ p && p < 1088) eHandle 0 h
  .ok (p - 1056)

/-- Handle types a function takes as its TARGET or SOURCE (R329). -/
def functionTypes : Nat → List Nat
  | 1 => [tStrip, tBus]
  | 2 => [tStrip, tBus]
  | 3 => [tStrip]
  | 4 => [tStrip]
  | 5 => [tCapture]
  | 6 => [tScene]
  | _ => []

def portGpiBody : Body := fun s f => do
  let g ← gpiPort s (u32 f 0)
  let owner := (s.gpi.getD g Gpi.reset).owner
  let fn := u8 f 4
  let target := u32 f 8
  let recallOf := fn == 6 && hType target != tScene
  if fn != 0 && fn ≤ 6 && fn != 4 && !recallOf then
    let o ← resolve s (functionTypes fn) target 8
    owned f owner (u32 f 0)
    need (o.desk == owner || o.desk == 0) eDenied 8 target
  if recallOf then
    need (s.isKeeper && s.arms.any fun a => a.id == target) eHandle 8 target
    need (f.desk == 0) eDenied 8 target
  owned f owner (u32 f 0)
  need (fn ≤ 6) eRange 4
  need (u8 f 6 ≤ 1) eRange 6
  reserved f 7 1
  need (fn != 0 || target == 0) eRange 8
  need (fn != 4) eState 4
  okResp { s with gpi := modAt s.gpi g fun x =>
    { x with config := slice f.payload 0 12, function := fn, debounce := u8 f 5, edge := u8 f 6, target := target } }

def opPortGpiBind : RuziaOp := ⟨0x0906, .change, false, len 12, portGpiBody⟩

/-- `port.gpi.bind`. -/
def execPortGpiBind (f : CmdFrame) (s : State) : Host.Outcome State Fault Refusal :=
  ruzia opPortGpiBind f s

def portGpoBody : Body := fun s f => do
  let g ← gpoPort s (u32 f 0)
  let fn := u8 f 4
  if 1 ≤ fn && fn ≤ 4 then
    let _ ← resolve s (functionTypes fn) (u32 f 8) 8
  owned f (s.gpo.getD g Gpo.reset).owner (u32 f 0)
  need (fn ≤ 6) eRange 4
  reserved f 5 3
  need (fn != 0 || u32 f 8 == 0) eRange 8
  need (fn ≤ 4) eState 4
  okResp { s with gpo := modAt s.gpo g fun x => { x with config := slice f.payload 0 12, function := fn, source := u32 f 8 } }

def opPortGpoBind : RuziaOp := ⟨0x0907, .change, false, len 12, portGpoBody⟩

/-- `port.gpo.bind`. -/
def execPortGpoBind (f : CmdFrame) (s : State) : Host.Outcome State Fault Refusal :=
  ruzia opPortGpoBind f s

def portGpoSetBody : Body := fun s f => do
  let g ← gpoPort s (u32 f 0)
  let x := s.gpo.getD g Gpo.reset
  owned f x.owner (u32 f 0)
  need (u8 f 4 ≤ 1) eRange 4
  reserved f 5 3
  need (x.function == 0) eState 0 (u32 f 0)
  okResp { s with gpo := modAt s.gpo g fun x => { x with want := u8 f 4 == 1 } }

def opPortGpoSet : RuziaOp := ⟨0x0908, .change, false, len 8, portGpoSetBody⟩

/-- `port.gpo.set`: the state changes at the next domain A tick. -/
def execPortGpoSet (f : CmdFrame) (s : State) : Host.Outcome State Fault Refusal :=
  ruzia opPortGpoSet f s

def portGpoClearBody : Body := fun s f => do
  let g ← gpoPort s (u32 f 0)
  owned f (s.gpo.getD g Gpo.reset).owner (u32 f 0)
  okResp { s with gpo := modAt s.gpo g fun x => { x with latched := false, trip := 0 } }

def opPortGpoClear : RuziaOp := ⟨0x0909, .change, false, len 4, portGpoClearBody⟩

/-- `port.gpo.clear`. -/
def execPortGpoClear (f : CmdFrame) (s : State) : Host.Outcome State Fault Refusal :=
  ruzia opPortGpoClear f s

/-! ## Slips (R415-R418) -/

/-- One period in the unit of ages. -/
def period : Int := 2 ^ 20

/-- Position of an instant on a domain's index axis, in ages' unit. -/
def axis (q fs : Nat) : Int := ((q * fs * 2 ^ 20 / secondQ : Nat) : Int)

/-- Slips decided for ashlars after the one of index `n`, as what they will add to the age. -/
def Tdm.owed (t : Tdm) (n : Nat) : Int :=
  (t.slipDue.filter fun p => 8 * p.1 > n).foldl (fun (a : Int) p => if p.2 == 2 then a - period else a + period) 0

/-- Record the age of index `n`. -/
def Tdm.addAge (t : Tdm) (n : Nat) (a : Int) : Tdm := { t with ages := ((n, a + t.owed n) :: t.ages).take 64 }

/-- The line fitted to the recorded ages, at index `x`: numerator and positive denominator. -/
def fitLine (ps : List (Nat × Int)) (x : Nat) : Int × Int :=
  let n : Int := ps.length
  let x0 : Int := (ps.headD (0, 0)).1
  let sx := ps.foldl (fun (a : Int) p => a + ((p.1 : Int) - x0)) 0
  let sy := ps.foldl (fun (a : Int) p => a + p.2) 0
  let sxx := ps.foldl (fun (a : Int) p => a + ((p.1 : Int) - x0) * ((p.1 : Int) - x0)) 0
  let sxy := ps.foldl (fun (a : Int) p => a + ((p.1 : Int) - x0) * p.2) 0
  let d := n * sxx - sx * sx
  if d ≤ 0 then (sy, max n 1) else (sy * d + (n * sxy - sx * sy) * (n * ((x : Int) - x0) - sx), n * d)

/-- The decision at the boundary of slot `s` for ashlar s + 2: 0 none, 1 repeat, 2 drop. -/
def Tdm.decideSlip (t : Tdm) (slot : Nat) : Nat :=
  if !t.paired || t.ages.isEmpty then 0 else
  let (num, den) := fitLine t.ages (8 * (slot + 2))
  if 2 * num > 7 * period * den then 2 else if 2 * num < period * den then 1 else 0

/-- Take a slip decision for an ashlar. -/
def Tdm.takeSlip (t : Tdm) (ashlar kind : Nat) : Tdm :=
  let by_ : Int := if kind == 2 then -period else period
  { t with slipDue := t.slipDue ++ [(ashlar, kind)], ages := t.ages.map fun p => (p.1, p.2 + by_) }

def slipsOf (s : State) (p : Nat) : Nat := s.ctr (ctrTdm p 0) + s.ctr (ctrTdm p 1)

/-- PORT_LOCK_LOST. -/
def State.lockLost (s : State) (p : Nat) : State :=
  s.raiseObj (s.port p).owner 0x0902 (le 4 (portHandle p) ++ le 4 0 ++ le 8 (slipsOf s p))

/-- Count and report a slip made in the present ashlar (R417, R418). -/
def State.slipMade (s : State) (p kind : Nat) : State :=
  let s := s.addCtr (ctrTdm p (kind - 1)) 1
  let t := s.port p
  let now := s.tickOf t.dom
  let first := !t.slipSinceCentre
  let tell := first || !(t.lastSlipEvent.any fun k => now < k + 1000)
  let s := s.setPort p fun t => { t with slipSinceCentre := true, slipTick := some now,
                                         lastSlipEvent := if tell then some now else t.lastSlipEvent }
  let s := if tell then s.raiseObj t.owner 0x0901 (le 4 (portHandle p) ++ le 1 kind ++ le 3 0 ++ le 8 (slipsOf s p)) else s
  if first && bit t.flags 0 then s.lockLost p else s

/-- At the boundary that opens slot `slot`: slips of this ashlar are made, and one may be decided for two ashlars on. -/
def State.portSlips (s : State) (p slot : Nat) : State :=
  let t := s.port p
  let s := (t.slipDue.filter fun x => x.1 == slot).foldl (fun s x => s.slipMade p x.2) s
  let k := if s.decides then (s.port p).decideSlip slot else 0
  if k == 0 then s
  else (s.setPort p fun t => t.takeSlip (slot + 2) k).decision 1 (portHandle p) (slot + 2) k

/-! ## Input delivery -/

/-- A received word as a sample (R161, R60), and whether it was replaced. -/
def Tdm.sample (t : Tdm) (w : Word) : Word × Bool :=
  if bit t.flags 3 then fIngress w
  else
    let b := t.dataBits
    let v := w.toNat % 2 ^ b
    (fRat (if v < 2 ^ (b - 1) then (v : Int) else (v : Int) - 2 ^ b) (2 ^ (b - 1)), false)

/-- The frame of period `n`: the pairing found by a re-centre, or the next frame; a port without one repeats its last. -/
def Tdm.take (t : Tdm) (fs n : Nat) : List Word × Tdm :=
  let due := t.slipDue.filter fun p => 8 * p.1 == n
  let t := { t with slipDue := t.slipDue.filter fun p => !(8 * p.1 == n) }
  let end_ : Int := ((n : Int) + 1) * period
  if !t.paired then
    match t.queue.filter fun q => 2 * (end_ - axis q.1 fs) < 5 * period with
    | q :: rest =>
      if 2 * (end_ - axis q.1 fs) ≥ 3 * period && !t.lost then
        (q.2, { t with paired := true, queue := rest, lastFrame := q.2, ages := [(n, end_ - axis q.1 fs)], slipSinceCentre := false })
      else (t.lastFrame, { t with queue := q :: rest })
    | [] => (t.lastFrame, { t with queue := [] })
  else if due.any fun p => p.2 == 1 then (t.lastFrame, t)
  else
    let queue := if due.any fun p => p.2 == 2 then t.queue.drop 1 else t.queue
    match queue with
    | q :: rest => (q.2, { t with queue := rest, lastFrame := q.2 }.addAge n (end_ - axis q.1 fs))
    | [] => (t.lastFrame, { t with queue := [], fade := if t.lost && t.fade.gainEnd != 0#32 then GainRec.start 0#32 t.fade.value 48 else t.fade })

/-- Samples of one slot's factors: the port's fade and the mute of a suspect slot. -/
def Tdm.factor (t : Tdm) (slot : Nat) : Word :=
  let m := match t.muteRamps.find? fun r => r.1 == slot with
    | some r => r.2.value
    | none => oneW
  fMul t.fade.value m

def Tdm.tick (t : Tdm) : Tdm :=
  { t with fade := t.fade.tick, muteRamps := t.muteRamps.map fun r => (r.1, r.2.tick) }

/-- Deliver one period: a sample per slot, and how many were replaced. -/
def Tdm.deliver (t : Tdm) (fs n : Nat) : List Word × Nat × Tdm :=
  let (frame, t) := t.take fs n
  let t := t.tick
  let xs := (List.range t.slots).map fun k =>
    let y := t.sample (frame.getD k 0#32)
    (if t.fade.count == 0 && t.fade.gainEnd == oneW && !(t.muteRamps.any fun r => r.1 == k) then y.1 else fMul y.1 (t.factor k), y.2)
  (xs.map (·.1), (xs.filter (·.2)).length, t)

/-- Deliver the eight periods of an ashlar. -/
def Tdm.deliverAll (fs : Nat) : Nat → Nat → Tdm → List (List Word) × Nat × Tdm
  | 0, _, t => ([], 0, t)
  | k + 1, n, t =>
    let (x, c, t) := t.deliver fs n
    let (xs, cs, t) := Tdm.deliverAll fs k (n + 1) t
    (x :: xs, c + cs, t)

/-! ## Output -/

/-- Egress conversion of one sample to `b` bits with dither `d24` in 2^-24 LSB of a `w`-bit word (R163, R164): the code and
whether the clamp changed it. -/
def egress (x : Word) (b w : Nat) (d24 : Int) : Int × Bool :=
  -- x * 2^(b-1) + d, exactly, as num / 2^k
  let k : Nat := 200
  let e : Int := fUnit x + (b : Int) - 1 + k
  let xn : Int := if fIsZero x then 0 else if e ≥ 0 then fSigned x * 2 ^ e.toNat else fSigned x / 2 ^ (-e).toNat
  let dn : Int := if w == 0 then 0 else d24 * 2 ^ (b - w) * 2 ^ (k - 24)
  let v := xn + dn
  let fl := v / 2 ^ k
  let r := v % 2 ^ k
  let q := if 2 * r > 2 ^ k || (2 * r == 2 ^ k && fl % 2 != 0) then fl + 1 else fl
  let hi : Int := 2 ^ (b - 1) - 1
  let lo : Int := -(2 ^ (b - 1))
  if q > hi then (hi, true) else if q < lo then (lo, true) else (q, false)

/-- The port word of a sample in slot `k`, its dither open (R111, R164). -/
def State.portWord (s : State) (p k : Nat) (x : Word) : Word × State :=
  let t := s.port p
  if bit t.flags 3 then (x, s)
  else
    let w := t.dither.getD k 0
    let (d, s) := if w == 0 then (0, s) else
      let (n, s) := s.drawNat
      (((n % 2 ^ 25 : Nat) : Int) - 2 ^ 24, s)
    let (q, clipped) := egress x t.dataBits w d
    let s := if clipped then (s.addCtr (ctrSlot p k 2) 1).addCtr (ctrTdm p 5) 1 else s
    (BitVec.ofNat 32 (twos 32 q), s)

/-- Slots of an output port with a route. -/
def ownedSlots (s : State) (p : Nat) : List Nat :=
  ((s.routes.filter fun r => r.2.kind == 1 && r.2.sink == portHandle p).map fun r => r.2.sub).inOrder (· ≤ ·)

/-- This member's drivers are enabled: a single engine, or the owner of outputs, with no peer sensed asserting (R421, R474). -/
def State.drives (s : State) : Bool :=
  (s.red.mode == 0 || s.red.ownOut) && !s.red.fenced && !s.red.settle && !(s.red.ownIn.any id)

/-- A linear fade of length `l` from index `a`, up or down, at index `n`. -/
def rampAt (up : Bool) (a l n : Nat) : Word :=
  if n < a then (if up then 0#32 else oneW)
  else if n ≥ a + l then (if up then oneW else 0#32)
  else if up then (weights 0 (n - a) l).2 else (weights 0 (n - a) l).1

/-- A sample of index `n` at a port-facing edge of a domain: the fades of a rate change (R255) and of a shutdown (R566). -/
def State.edge (s : State) (d n : Nat) (x : Word) : Word :=
  let o := s.dom d
  let x : Word := match o.st with
    | .fadingOut => fMul x (rampAt false o.fadeFrom (240 * s.mult d) n)
    | .fadingIn => fMul x (rampAt true o.fadeFrom (240 * s.mult d) n)
    | _ => x
  match s.sv.fade with
  | some q => fMul x (rampAt false (firstAt q (s.fs d)) (ceilDiv (2 * s.fs d) 1000) n)
  | none => x

/-- Output samples an ashlar adds, its slips made: a drop loses the first, a repeat sends the one before it again. -/
def Tdm.queueOut (t : Tdm) (slot : Nat) (frames : List (Nat × List Word)) : Tdm :=
  let due := t.slipDue.filter fun p => p.1 == slot
  let t := { t with slipDue := t.slipDue.filter fun p => p.1 != slot }
  let frames' := if due.any fun p => p.2 == 2 then frames.drop 1
    else if due.any fun p => p.2 == 1 then (8 * slot - 1, t.lastFrame) :: frames
    else frames
  { t with out := t.out ++ frames', lastFrame := ((frames.getLast?).map (·.2)).getD t.lastFrame }

/-- An output frame opens at instant `q`: the sample it carries, and its age recorded. -/
def Tdm.sendFrame (t : Tdm) (fs q : Nat) : Option (Nat × List Word) × Tdm :=
  let x := axis q fs
  if !t.paired then
    match t.out.filter fun o => 2 * (x - (o.1 : Int) * period) < 5 * period with
    | o :: rest =>
      if 2 * (x - (o.1 : Int) * period) ≥ 3 * period then
        (some o, { t with paired := true, out := rest, ages := [(o.1, x - (o.1 : Int) * period)], slipSinceCentre := false })
      else (none, { t with out := o :: rest })
    | [] => (none, { t with out := [] })
  else
    match t.out with
    | o :: rest => (some o, { t with out := rest }.addAge o.1 (x - (o.1 : Int) * period))
    | [] => (none, t)

/-! ## Frames at the pins (R413, R423, R424) -/

/-- A slot becomes clean (0), suspect (1), or suspect and muted (2) (R423). -/
def State.suspectSlot (s : State) (p k v : Nat) : State :=
  let t := s.port p
  let from_ := match t.muteRamps.find? fun r => r.1 == k with
    | some r => r.2.value
    | none => oneW
  if v == 0 then
    s.setPort p fun t =>
      { t with suspect := t.suspect.filter (· != k), muted := t.muted.filter (· != k),
               muteRamps := t.muteRamps.map fun r => if r.1 == k then (k, GainRec.start oneW r.2.value 480) else r }
  else if t.suspect.contains k then s
  else
    let ramps := if v == 2 then (k, GainRec.start 0#32 from_ 480) :: t.muteRamps.filter fun r => r.1 != k else t.muteRamps
    let s := s.setPort p fun t =>
      { t with suspect := t.suspect ++ [k], muted := if v == 2 then t.muted ++ [k] else t.muted, muteRamps := ramps }
    s.raiseObj t.owner 0x0903 (le 4 (portHandle p) ++ le 1 k ++ le 1 (if v == 2 then 1 else 0) ++ le 2 0 ++ le 8 (s.ctr (ctrSlot p k 0)))

/-- Guard bits of an input frame: encroachment counts, suspect marks and mutes (R423). -/
def State.guardSlot (s : State) (p k : Nat) (hit : Bool) : State :=
  let t := s.port p
  let (run, clean) := match t.encroach.find? fun e => e.1 == k with
    | some e => (e.2.1, e.2.2)
    | none => (0, 0)
  let run := if hit then run + 1 else 0
  let clean := if hit then 0 else clean + 1
  let s := if hit then (s.addCtr (ctrSlot p k 0) 1).addCtr (ctrTdm p 2) 1 else s
  let s := s.setPort p fun t => { t with encroach := (k, run, clean) :: t.encroach.filter fun e => e.1 != k }
  if !s.decides || t.suspectN == 0 then s
  else if hit && run ≥ t.suspectN && !(t.suspect.contains k) then
    let v : Nat := if bit t.flags 1 then 2 else 1
    s.decide 4 (portHandle p) (k + 256 * v) fun s => s.suspectSlot p k v
  else if !hit && clean ≥ 16 * t.suspectN && t.suspect.contains k then
    s.decide 4 (portHandle p) k fun s => s.suspectSlot p k 0
  else s

/-- This member's claim is not the highest of those not lost (R424). -/
def outclaimed (s : State) : Bool :=
  s.red.mode != 0 && s.red.peers.any fun r => r.seen && !r.lost && r.hdr.claim > s.red.claim

/-- Read-back of an output slot: noise below 3 bits, contention from 3 (R424). -/
def State.readbackSlot (s : State) (p k n : Nat) : State :=
  let t := s.port p
  if n == 0 then s
  else if n ≤ 2 then s.addCtr (ctrTdm p 4) n
  else
    let s := (s.addCtr (ctrTdm p 3) 1).addCtr (ctrSlot p k 1) 1
    let now := s.tickOf t.dom
    let tri := outclaimed s
    let tell := tri || !(t.contention.any fun c => c.1 == k && now < c.2 + 1000)
    let s := s.setPort p fun t => { t with tristated := t.tristated || tri,
                                           contention := if tell then (k, now) :: t.contention.filter (fun c => c.1 != k) else t.contention }
    if tell then s.raiseObj t.owner 0x0904 (le 4 (portHandle p) ++ le 1 k ++ le 1 n ++ le 1 (if tri then 1 else 0) ++ le 1 0) else s

/-- Slots a frame of index `n` drives: the owned ones, and those whose route was still read when the sample was made. -/
def drivenSlots (s : State) (p n : Nat) : List Nat :=
  ((ownedSlots s p ++ ((s.port p).tails.filter fun x => n < x.2).map (·.1)).eraseDups).inOrder (· ≤ ·)

/-- Words an output frame drives in its slots. -/
def State.driveFrame (s : State) (p : Nat) (f : Nat × List Word) : State :=
  let s := s.emitAll ((drivenSlots s p f.1).map fun k => .tdmWord p k (f.2.getD k 0#32))
  s.setPort p fun t => { t with tails := t.tails.filter fun x => f.1 + 1 < x.2 }

/-- One TDM frame passes a port. -/
def State.tdmFrame (s : State) (p : Nat) (f : TdmFrame) : State :=
  let t := s.port p
  if !t.configured || !s.dieOn || p ≥ 128 then s else
  let s := if f.valid then s else s.addCtr (ctrTdm p 8) 1
  let s := s.setPort p fun t => { t with valid := if f.valid then t.valid + 1 else 0 }
  if t.dir == 0 then
    let prev := ((t.queue.getLast?).map (·.2)).getD t.lastFrame
    let words := if f.valid then f.words else prev
    let s := if (s.dom t.dom).runs then s.setPort p fun t => { t with queue := t.queue ++ [(s.q, words)] } else s
    if t.guard == 0 then s
    else (List.range t.slots).foldl (fun s k => s.guardSlot p k (f.guards.getD k false)) s
  else
    let (ws, t') := (s.port p).sendFrame (s.fs t.dom) s.q
    let s := s.setPort p fun _ => t'
    let on := s.drives && !t.tristated && !t.lost && (s.dom t.dom).runs
    match ws with
    | some ws =>
      if !on then s else
      let ks := drivenSlots s p ws.1
      let s := s.driveFrame p ws
      if bit t.flags 2 then ks.foldl (fun s k => s.readbackSlot p k (f.readback.getD k 0)) s else s
    | none => s

/-- `TDM_FRAME`. -/
def execTdmFrame (port : Nat) (f : TdmFrame) (s : State) : Host.Outcome State Fault Refusal := .next (s.tdmFrame port f)

/-- Clock loss entered (R419). -/
def State.clockLost (s : State) (p : Nat) : State :=
  if (s.port p).lost then s else
  let s := (s.setPort p fun t => { t with lost := true, valid := 0, out := if t.dir == 1 then [] else t.out, tails := [],
                                          paired := if t.dir == 1 then false else t.paired }).addCtr (ctrTdm p 7) 1
  s.lockLost p

/-- No frame opened within 2 frame periods of the time it was due. -/
def execTdmClockLoss (port : Nat) (s : State) : Host.Outcome State Fault Refusal :=
  .next (let t := s.port port
    if port < 128 && t.configured && !t.lost && s.decides && s.dieOn then
      s.decide 3 (portHandle port) 1 fun s => s.clockLost port
    else s)

/-- Recovery from clock loss: the port re-centres, inputs ramp up over 48 samples (R419). -/
def State.clockBack (s : State) (p : Nat) : State :=
  if s.host.bankLost.contains (p / 16) then s else
  s.setPort p fun t => { t with lost := false, paired := false, ages := [], slipDue := [], slipSinceCentre := false,
                                fade := if t.dir == 0 then GainRec.start oneW t.fade.value 48 else t.fade }

/-- 16 consecutive valid frames after a clock loss. -/
def execPortClockRecovered (port : Nat) (s : State) : Host.Outcome State Fault Refusal :=
  .next (let t := s.port port
    if s.dieOn && port < 128 && t.lost && t.valid ≥ 16 && s.decides && !(s.host.bankLost.contains (port / 16)) then
      s.decide 3 (portHandle port) 0 fun s => s.clockBack port
    else s)

/-! ## Field outputs (R427-R429) -/

def State.gpoAt (s : State) (g : Nat) : Gpo := s.gpo.getD g Gpo.reset

def State.setGpo (s : State) (g : Nat) (f : Gpo → Gpo) : State := { s with gpo := modAt s.gpo g f }

/-- GPO_TRIP. -/
def State.gpoTrip (s : State) (g result : Nat) : State :=
  (s.raiseObj (s.gpoAt g).owner 0x0905 (le 4 (portHandle (1056 + g)) ++ le 1 result ++ le 3 0)).decision 6 (portHandle (1056 + g)) s.now result

/-- Units of a second in quarry time that a trip counts as within 1 s of its retry. -/
def withinSecond (s : State) (q : Nat) : Bool := s.q ≤ q + secondQ

/-- Overcurrent: the output goes off; a second trip within 1 s of the retry latches it (R428). -/
def execGpoOvercurrent (gpo : Nat) (s : State) : Host.Outcome State Fault Refusal :=
  .next (let g := s.gpoAt gpo
    if !s.dieOn || gpo ≥ 32 || !g.on then s
    else
      let s := s.addCtr (ctrGpo gpo 0) 1
      if g.trip == 2 && withinSecond s g.retryAt then
        ((s.setGpo gpo fun g => { g with on := false, latched := true, trip := 0 }).addCtr (ctrGpo gpo 1) 1).gpoTrip gpo 2
      else s.setGpo gpo fun g => { g with on := false, trip := 1, tripAt := s.q })

/-- 10 ms after a trip: on again once, if it is still commanded on. -/
def execGpoRetry (gpo : Nat) (s : State) : Host.Outcome State Fault Refusal :=
  .next (let g := s.gpoAt gpo
    if s.dieOn && gpo < 32 && g.trip == 1 && !g.latched then
      if g.commanded then s.setGpo gpo fun g => { g with on := true, trip := 2, retryAt := s.q }
      else s.setGpo gpo fun g => { g with trip := 3 }
    else s)

/-- A retry has held for 100 ms. -/
def execGpoRetryHeld (gpo : Nat) (s : State) : Host.Outcome State Fault Refusal :=
  .next (let g := s.gpoAt gpo
    if s.dieOn && gpo < 32 && g.trip == 2 && g.on then s.gpoTrip gpo 1 else s)

/-- An off output reads 0 for 50 ms (R429). -/
def execGpoStuckLowTimeout (gpo : Nat) (s : State) : Host.Outcome State Fault Refusal :=
  .next (let g := s.gpoAt gpo
    if gpo < 32 && !g.on && !g.stuckTold && s.serving then
      ((s.setGpo gpo fun g => { g with stuckTold := true }).addCtr (ctrGpo gpo 2) 1).raiseObj g.owner 0x0906 (le 4 (portHandle (1056 + gpo)))
    else s)

end Sys2Proof.Machine
end

