-- ==== Sys2Proof/Machine/Store.lean ====
section
/-! DEFINITION. The Ring Store (R55-R71): writing whole ashlars with their tags and checks (R59, R492, R493), late writes
(R67), deep bodies (R70), and reads resolved from the tags with their underrun counts (R65, R66) and check failures (R496). -/
namespace Sys2Proof.Machine

/-! ## Writing -/

/-- Little-endian bytes of samples (R493). -/
def wordBytes (ws : List Word) : List Byte := ws.flatMap leWord

/-- A tag word of a written ashlar (R492). -/
def tagBytes (a : Nat) (ws : List Word) : List Byte := le 4 (a % 2 ^ 32) ++ le 2 (crc16 (wordBytes ws)) ++ le 1 1 ++ le 1 0

/-- Samples of the head of a ring (R57). -/
def Ring.head (r : Ring) : Nat := 64 * r.mult

/-- Row number and ashlar position of ring ashlar `a` (R57). -/
def Ring.place (r : Ring) (a : Nat) : Nat × Nat := ((8 * a) % r.head / 64, a % 8)

/-- Ashlar positions of a deep ring's body. -/
def Ring.bodyPos (r : Ring) (a : Nat) : Nat := a % (r.depth / 8)

/-- Put an ashlar into a deep ring's body (R70). -/
def Ring.keep (r : Ring) (a : Nat) (ws : List Word) : Ring :=
  if r.deep then
    let p := r.bodyPos a
    { r with body := (p, a, ws) :: r.body.filter fun e => e.1 != p }
  else r

/-- Write ashlar `a` of the ring at an index (R59). -/
def State.writeAshlar (s : State) (i a : Nat) (ws : List Word) : State :=
  match s.ringAt i with
  | none => s
  | some (_, r) =>
    let (row, pos) := r.place a
    let s := match r.rows[row]? with
      | some p => (s.write (rowAddr p.1 p.2 + 32 * pos) (wordBytes ws)).write (tagAddr p.1 p.2 + 8 * pos) (tagBytes a ws)
      | none => s
    s.modObj tRing i fun o => o.onRing fun r =>
      { r.keep a ws with first := some (r.first.getD (8 * a)), lastWrite := a }

/-- The tag of an ashlar position: written, low index, check. -/
def State.tagOf (s : State) (p : Nat × Nat) (pos : Nat) : Bool × Nat × Nat :=
  let bs := s.read (tagAddr p.1 p.2 + 8 * pos) 8
  (bit (fieldAt bs 6 1) 0, fieldAt bs 0 4, fieldAt bs 4 2)

/-- The tag of ring ashlar `a`'s position holds a newer ashlar. -/
def State.newerAt (s : State) (r : Ring) (a : Nat) : Bool :=
  let (row, pos) := r.place a
  match r.rows[row]? with
  | some p =>
    let (w, n, _) := s.tagOf p pos
    w && newer n (a % 2 ^ 32)
  | none => false

/-- A landing or Stream write (R67): an ashlar no route can still read, or older than what its position holds, is
discarded and counted. -/
def State.landAshlar (s : State) (i a : Nat) (ws : List Word) : State :=
  match s.ringAt i with
  | none => s
  | some (o, r) =>
    let lag := readLag s r
    let oldest := s.ash o.dom - min (s.ash o.dom) (lag + oMax s r / 8)
    if a < oldest || s.newerAt r a then s.addCtr (ctrRing i 2) 8 else s.writeAshlar i a ws

/-! ## Reading -/

/-- What a read of one sample finds. -/
inductive Found where
  | hit
  | repeated
  | zero
  | silent
  deriving DecidableEq, Repr

/-- Resolve a tag against the ashlar wanted (R65); `n` is the depth in ashlars. -/
def resolveTag (written : Bool) (lo a n : Nat) : Found :=
  if !written then .silent
  else if lo == a % 2 ^ 32 then .hit
  else if (lo + n) % 2 ^ 32 == a % 2 ^ 32 then .repeated
  else .zero

/-- Read source sample `i` of a ring at an offset: the sample and what was found. Offsets past the head read the body. -/
def State.readSample (s : State) (r : Ring) (off : Nat) (i : Int) : Word × Found :=
  if i < 0 then (0#32, .silent) else
  let n := i.toNat
  let a := n / 8
  let early : Bool := match r.first with
    | some f => n < f
    | none => true
  if early then (0#32, .silent)
  else if r.deep && off > r.head - 16 then
    match r.body.find? fun e => e.1 == r.bodyPos a with
    | none => (0#32, .silent)
    | some e =>
      match resolveTag true (e.2.1 % 2 ^ 32) a (r.depth / 8) with
      | .hit => (e.2.2.getD (n % 8) 0#32, .hit)
      | .repeated => (e.2.2.getD (n % 8) 0#32, .repeated)
      | .zero => (0#32, .zero)
      | .silent => (0#32, .silent)
  else
    let (row, pos) := r.place a
    match r.rows[row]? with
    | none => (0#32, .silent)
    | some p =>
      let (w, lo, _) := s.tagOf p pos
      let x := BitVec.ofNat 32 (fieldAt (s.read (rowAddr p.1 p.2 + 32 * pos + 4 * (n % 8)) 4) 0 4)
      match resolveTag w lo a (r.head / 8) with
      | .hit => (x, .hit)
      | .repeated => (x, .repeated)
      | .zero => (0#32, .zero)
      | .silent => (0#32, .silent)

/-- Source index of route index `j` at an offset (R63): a Seam landing is read m P - 1 ashlars further back. -/
def sourceIndex (s : State) (r : Ring) (off j : Nat) : Int := (j : Int) - 8 * ((readLag s r : Int) - 1) - off

/-- The sample a reading (source, offset) gives at route index `j`; source 0 reads 0.0 (R76). -/
def State.readRoute (s : State) (p : Nat × Nat) (j : Nat) : Word :=
  match (s.obj p.1).bind Obj.ring? with
  | some r => (s.readSample r p.2 (sourceIndex s r p.2 j)).1
  | none => 0#32

/-- Count the underruns of a reading over route indices `js` once per source index (R66), and report them. -/
def State.countReads (s : State) (p : Nat × Nat) (js : List Nat) : State :=
  match s.obj p.1 with
  | none => s
  | some o =>
    match o.ring? with
    | none => s
    | some r =>
      let hits := js.filterMap fun j =>
        let i := sourceIndex s r p.2 j
        let f := (s.readSample r p.2 i).2
        if (f == .repeated || f == .zero) && !(r.counted.contains i.toNat) then some (i.toNat, f) else none
      let hits := hits.eraseDups
      if hits.isEmpty then s else
      let reps := (hits.filter fun h => h.2 == .repeated).length
      let s := (s.addCtr (ctrRing o.idx 0) reps).addCtr (ctrRing o.idx 1) (hits.length - reps)
      let tick := s.tickOf o.dom
      let say : Bool := match r.lastEvent with
        | some t => tick ≥ t + 1000
        | none => true
      let low := ((sourceIndex s r p.2 (js.headD 0)) - r.depth).toNat
      let s := s.modObj tRing o.idx fun x => x.onRing fun r =>
        { r with counted := (hits.map (·.1)) ++ r.counted.filter (fun n => n ≥ low), lastEvent := if say then some tick else r.lastEvent }
      if say then
        s.raiseObj o.desk 0x0701 (le 4 o.handle ++ le 4 0 ++ le 8 (s.ctr (ctrRing o.idx 0)) ++ le 8 (s.ctr (ctrRing o.idx 1)))
      else s

/-- Ashlars of a ring a reading of route indices 8(s - 1) to 8s - 1 touches. -/
def touched (s : State) (r : Ring) (off slot : Nat) : List Nat :=
  ((List.range 8).filterMap fun k =>
    let i := sourceIndex s r off (8 * (slot - 1) + k)
    if i < 0 then none else some (i.toNat / 8)).eraseDups

/-- The check of ring ashlar `a` fails: its tag names the ashlar and its samples do not give its check (R496). -/
def State.checkFails (s : State) (r : Ring) (a : Nat) : Bool :=
  let (row, pos) := r.place a
  match r.rows[row]? with
  | none => false
  | some p =>
    let (w, _, chk) := s.tagOf p pos
    w && chk != crc16 (s.read (rowAddr p.1 p.2 + 32 * pos) 32)

end Sys2Proof.Machine
end

