-- ==== Sys2Proof/Machine/Streams.lean ====
section
/-! DEFINITION. Media streams (chapter 14, R330): creation with the train admission test (R389, R390, R393, R397), packets sent
and received (R391, R392, R395, R396, R399), path states, session descriptions (R402), and stopping (R353, R356). -/
namespace Sys2Proof.Machine

/-! ## Ethernet ports as carriers -/

/-- Index of an Ethernet port handle's first lane. -/
def ethPort (s : State) (h field : Nat) : Except Err Nat := do
  let p ← resolvePort s h field
  need (768 ≤ p && p < 800) eHandle field h
  .ok (p - 768)

def State.ethAt (s : State) (p : Nat) : EthPort := s.eth.getD p EthPort.reset

def State.setEth (s : State) (p : Nat) (f : EthPort → EthPort) : State := { s with eth := modAt s.eth p f }

/-- A link that carries traffic: 10 Mb/s carries none (R382). -/
def EthPort.carries (e : EthPort) : Bool := e.link && e.speed ≥ 100

/-- A frame of so many octets leaves a port. -/
def State.txFrame (s : State) (p octets : Nat) : State := (s.addCtr (ctrEth p 1) 1).addCtr (ctrEth p 5) octets

/-- Octets a port's VLAN tag adds (R385). -/
def tagOctets (s : State) (p : Nat) : Nat := if (s.ethAt p).vlan == 0 then 0 else 4

/-- Report membership of a receive group, source-specific where a source is set (R386). -/
def State.joinGroup (s : State) (h addr source : Nat) : State :=
  let p := hIdx h - 768
  if h == 0 || addr / 2 ^ 28 != 14 then s else
  let note (e : EthPort) : EthPort := { e with members := (addr :: e.members).eraseDups }
  let s := s.setEth p note
  if (s.ethAt p).carries then (s.emit (.ethSend p 2 [addr, source])).txFrame p (64 + tagOctets s p) else s

/-- Line rate in Mb/s: the resolved speed, or the mode's own while the link is down (log entry 46). -/
def lineRate (s : State) (p : Nat) : Nat :=
  let e := s.ethAt p
  if e.carries then e.speed else if s.quadModes.getD (p / 4) 4 == 1 then 10000 else 1000

/-! ## Formats (R389, R390) -/

/-- Samples per packet. -/
def packetSamples (ptime m : Nat) : Nat :=
  m * (match ptime with
    | 0 => 6
    | 1 => 12
    | 2 => 16
    | 3 => 48
    | _ => 192)

def Stream.bytes (st : Stream) : Nat := if st.format == 0 then 2 else 3

def Stream.frame (st : Stream) : Nat := st.channels * st.bytes

/-- Samples per packet of a Stream of multiplier `m`. -/
def Stream.n (st : Stream) (m : Nat) : Nat := packetSamples st.ptime m

/-- All Streams with their objects. -/
def State.streams (s : State) : List (Obj × Stream) := s.objs.filterMap fun o => o.stream?.map fun x => (o, x)

/-- A transmit Stream sends on a port and has not stopped. -/
def Stream.sendsOn (st : Stream) (p : Nat) : Bool :=
  st.tx && !st.stopped && (st.ethPort == portHandle (768 + p) || st.ethPort2 == portHandle (768 + p))

/-- Bytes one packet takes on the wire of a port (R393). -/
def wireBytes (s : State) (p m : Nat) (st : Stream) : Nat :=
  st.n m * st.frame + 12 + 8 + 20 + 18 + (if (s.ethAt p).vlan == 0 then 0 else 4) + 20

/-- R393 for a set of Streams (multiplier, rate, Stream): the train fits half of every packet time. -/
def trainFits (s : State) (p : Nat) (l : List (Nat × Nat × Stream)) : Bool :=
  let total := sumNat (l.map fun x => wireBytes s p x.1 x.2.2)
  l.all fun x => 16 * total * x.2.1 ≤ x.2.2.n x.1 * lineRate s p * 1000000

/-- The transmit Streams of a port. -/
def portTrain (s : State) (p : Nat) : List (Obj × Stream) := s.streams.filter fun x => x.2.sendsOn p && !x.1.freeing

def asTrain (s : State) (l : List (Obj × Stream)) : List (Nat × Nat × Stream) :=
  l.map fun x => (s.mult x.1.dom, s.fs x.1.dom, x.2)

/-! ## Creation -/

/-- A new Stream's content before its rings. -/
def Stream.blank (tx : Bool) : Stream :=
  { tx := tx, ethPort := 0, ethPort2 := 0, addr := 0, addr2 := 0, source := 0, udp := 0, udp2 := 0, channels := 1, format := 0,
    ptime := 0, pt := 96, dscp := 0, linkOffset := 0, omc := 0, firstRing := 0, up := [true, true], runs := [0, 0], next := 0,
    highest := none, missing := [], got := [], pend := [], stopped := false, fade := none, dither := List.replicate 64 0, ditherNext := none }

/-- Depth of a receive ring (R397): 0 for a base ring. -/
def rxDepth (link m : Nat) : Nat :=
  if link ≤ 40 * m then 0
  else
    let w := 2 * link + 128 * m
    let d := 2 ^ w.log2
    if d == w then d else 2 * d

/-- Ranges of a Stream's fields (R330, R390, R397); field offsets are those of the creation payload. -/
def streamRanges (st : Stream) (d m : Nat) : Except Err Unit := do
  need (!st.tx || st.source == 0) eRange 16
  need (d ≤ 2) eRange 24
  need (1 ≤ st.channels && st.channels ≤ 64) eRange 25
  need (st.format ≤ 1) eRange 26
  need (st.ptime ≤ 4) eRange 27
  need (96 ≤ st.pt && st.pt ≤ 127) eRange 28
  need (if st.tx then st.dscp ≤ 63 else st.dscp == 0) eRange 30
  need (if st.tx then st.linkOffset == 0 else 8 ≤ st.linkOffset && st.linkOffset ≤ 480000 * m) eRange 32
  need (st.n m * st.frame ≤ 1440) eRange 27

/-- Steps 14 to 16 and the creation itself: the handle and the first ring's. -/
def createStream (s : State) (desk cls d : Nat) (st : Stream) : Except Err (Nat × Nat × State) := do
  let m := s.mult d
  allocatable s d
  within s desk 7 1
  let depth := rxDepth st.linkOffset m
  if !st.tx then
    within s desk 4 (st.channels * m)
    within s desk 5 (if depth == 0 then 0 else st.channels * m)
  need ((s.streams.filter fun x => x.2.tx == st.tx).length < 1024) eNoResource
  let ports := (List.range 32).filter fun p => st.sendsOn p
  need (ports.all fun p => trainFits s p ((m, s.fs d, st) :: asTrain s (portTrain s p))) eNoResource
  if !st.tx && depth != 0 then
    need (s.deepRows + st.channels * m ≤ 4096 && s.deepUsed + st.channels * depth ≤ 536870912) eNoResource
  match (s.tab tStream).pick 1 1 0 2048 with
  | none => .error { status := eNoResource }
  | some i =>
    let n := st.n m
    let st := { st with next := ceilDiv (8 * (s.ash d + 2)) n }
    let s := s.addObj { ty := tStream, idx := i, gen := 1, desk := desk, cls := cls, dom := d, freeing := false, job := none,
                        staged := 0, charge := 0, safe := 0, epoch := s.epoch, kind := .stream st }
    let h := ((s.objAt tStream i).map Obj.handle).getD 0
    if st.tx then .ok (h, 0, s)
    else
      let (r, s) ← allocRings s desk cls d st.channels depth h 3 0
      let s := s.upd h fun x => x.onStream fun t => { t with firstRing := r }
      .ok (h, s.ringHandle r, (s.joinGroup st.ethPort st.addr st.source).joinGroup st.ethPort2 st.addr2 st.source)

/-- The creation payload. -/
def streamOf (tx : Bool) (f : CmdFrame) : Stream :=
  { Stream.blank tx with ethPort := u32 f 0, ethPort2 := u32 f 4, addr := u32 f 8, addr2 := u32 f 12, source := u32 f 16,
                         udp := u16 f 20, udp2 := u16 f 22, channels := u8 f 25, format := u8 f 26, ptime := u8 f 27,
                         pt := u8 f 28, dscp := u8 f 30, linkOffset := u32 f 32 }

def Stream.payload (st : Stream) (d cls : Nat) : List Byte :=
  le 4 st.ethPort ++ le 4 st.ethPort2 ++ le 4 st.addr ++ le 4 st.addr2 ++ le 4 st.source ++ le 2 st.udp ++ le 2 st.udp2 ++
    le 1 d ++ le 1 st.channels ++ le 1 st.format ++ le 1 st.ptime ++ le 1 st.pt ++ le 1 cls ++ le 1 st.dscp ++ le 1 0 ++
    le 4 st.linkOffset

/-- The port operands of a Stream: both resolve, and their owner is the desk (R304). -/
def streamPorts (s : State) (f : CmdFrame) (h1 h2 o1 o2 : Nat) : Except Err Unit := do
  let p ← ethPort s h1 o1
  if h2 == 0 then owned f (s.ethAt p).owner h1 o1
  else
    let q ← ethPort s h2 o2
    owned f (s.ethAt p).owner h1 o1
    owned f (s.ethAt q).owner h2 o2

def streamCreateBody (tx : Bool) : Body := fun s f => do
  streamPorts s f (u32 f 0) (u32 f 4) 0 4
  let st := streamOf tx f
  let d := u8 f 24
  streamRanges st d (s.mult d)
  let cls ← classOf s f 29
  reserved f 31 1
  classPermitted s f.desk cls 29
  let (h, r, s) ← createStream s f.desk cls d st
  okResp s (if tx then le 4 h else le 4 h ++ le 4 r)

def opStreamRxCreate : RuziaOp := ⟨0x0A01, .change, false, len 36, streamCreateBody false⟩

/-- `stream.rx.create`. -/
def execStreamRxCreate (f : CmdFrame) (s : State) : Host.Outcome State Fault Refusal :=
  ruzia opStreamRxCreate f s

def opStreamTxCreate : RuziaOp := ⟨0x0A02, .change, false, len 36, streamCreateBody true⟩

/-- `stream.tx.create`. -/
def execStreamTxCreate (f : CmdFrame) (s : State) : Host.Outcome State Fault Refusal :=
  ruzia opStreamTxCreate f s

def streamInfoBody : Body := fun s f => do
  let o ← resolve s [tStream] (u32 f 0) 0
  match o.stream? with
  | none => .error { status := eHandle, field := 0, handle := o.handle }
  | some st => okResp s (o.prefixBytes s ++ st.payload o.dom o.cls ++ counters s (ctrStream o.idx 0) 8)

def opStreamInfo : RuziaOp := ⟨0x0A00, .read, false, len 4, streamInfoBody⟩

/-- `stream.info`. -/
def execStreamInfo (f : CmdFrame) (s : State) : Host.Outcome State Fault Refusal :=
  ruzia opStreamInfo f s

/-! ## Stopping -/

/-- Start a Stream's 5 ms fade to 0.0 (R330, R353). -/
def State.fadeStream (s : State) (h : Nat) : State :=
  match s.obj h with
  | none => s
  | some o => s.upd h fun x => x.onStream fun st =>
      if st.fade.isSome then st else { st with fade := some (8 * (s.ash o.dom + 1), s.fs o.dom / 200) }

/-- STREAM_STOPPED. -/
def State.streamStopped (s : State) (o : Obj) (reason : Nat) : State :=
  s.raiseObj o.desk 0x0A02 (le 4 o.handle ++ le 1 reason ++ le 3 0)

def streamDeleteBefore (o : Obj) (s : State) : State := (s.fadeStream o.handle).streamStopped o 3

def opStreamDelete : RuziaOp := ⟨0x0A03, .change, false, len 8, freeBody [tStream] (fun _ _ => .ok ()) streamDeleteBefore⟩

/-- `stream.delete`. -/
def execStreamDelete (f : CmdFrame) (s : State) : Host.Outcome State Fault Refusal :=
  ruzia opStreamDelete f s

/-- Factor of a Stream at index `n`: 1.0 before its fade, 0.0 after. -/
def Stream.factor (st : Stream) (n : Nat) : Word :=
  match st.fade with
  | none => oneW
  | some (a, l) =>
    if n < a then oneW
    else
      let r : GainRec := GainRec.start 0#32 oneW l
      let r : GainRec := { r with count := a + l - n }
      r.value

def Stream.faded (st : Stream) (x : Word) (n : Nat) : Word := if st.fade.isNone then x else fMul x (st.factor n)

/-- A Stream's fade has ended by index `n`. -/
def Stream.silentAt (st : Stream) (n : Nat) : Bool := st.fade.any fun p => p.1 + p.2 ≤ n

/-- The Stream of a port that yields next: highest class number, then the newest grant (R351, R356). -/
def yieldNext : List (Obj × Stream) → Option (Obj × Stream)
  | [] => none
  | x :: xs =>
    match yieldNext xs with
    | none => some x
    | some y => if x.1.cls > y.1.cls || (x.1.cls == y.1.cls && x.1.epoch > y.1.epoch) then some x else some y

/-- The Stream that keeps its room: the first in the same order reversed. -/
def keepFirst : List (Obj × Stream) → Option (Obj × Stream)
  | [] => none
  | x :: xs =>
    match keepFirst xs with
    | none => some x
    | some y => if x.1.cls < y.1.cls || (x.1.cls == y.1.cls && x.1.epoch ≤ y.1.epoch) then some x else some y

/-- GUARANTEE_BROKEN (R357); an active's standbys break it with it (R461, R480). -/
def State.guaranteeBroken (s : State) (guarantee action : Nat) (keeper yield : Option Obj) : State :=
  let v : Nat := action + 2 ^ 32 * ((keeper.map Obj.handle).getD 0)
  let s := if s.red.role == .active then
      { s with epoch := s.epoch + 1 }.decision 10 ((yield.map Obj.handle).getD 0) s.now v
    else s
  let kd := (keeper.map (·.desk)).getD 0
  let yd := (yield.map (·.desk)).getD 0
  s.raise [kd, yd, 0] 0x0208 (le 1 guarantee ++ le 1 action ++ le 2 kd ++ le 2 yd ++ le 1 ((keeper.map (·.cls)).getD 0) ++
    le 1 ((yield.map (·.cls)).getD 0) ++ le 4 ((keeper.map Obj.handle).getD 0) ++ le 4 ((yield.map Obj.handle).getD 0))

/-- A Stream stops for a keeper (R353, R356). -/
def State.stopStream (s : State) (keeper : Option Obj) (o : Obj) : State :=
  let s := (s.fadeStream o.handle).upd o.handle fun x => x.onStream fun st => { st with stopped := true }
  (s.streamStopped o 1).guaranteeBroken 3 4 keeper (some o)

/-- Streams of a port stop one at a time until the rest fit (R356). -/
def State.yieldStreams (p : Nat) : Nat → State → State
  | 0, s => s
  | k + 1, s =>
    let l := portTrain s p
    if trainFits s p (asTrain s l) then s
    else match yieldNext l with
      | none => s
      | some y =>
        let keep := keepFirst (l.filter fun x => x.1.handle != y.1.handle)
        State.yieldStreams p k (s.stopStream (keep.map (·.1)) y.1)

/-! ## Sending (R391, R392) -/

/-- Big-endian bytes of a code of `b` bytes. -/
def bigEndian (b : Nat) (q : Int) : List Byte := (le b (twos (8 * b) q)).reverse

/-- One channel's payload code of the sample of index `n`, its dither open (R163, R164). -/
def Stream.code (st : Stream) (n k : Nat) (x : Word) (s : State) : Int × State :=
  let w := (ditherAt st.dither st.ditherNext n).getD k 0
  let (d, s) := if w == 0 then ((0 : Int), s) else
    let (n, s) := s.drawNat
    (((n % 2 ^ 25 : Nat) : Int) - 2 ^ 24, s)
  ((egress x (8 * st.bytes) w d).1, s)

def Stream.frameBytes (st : Stream) (n : Nat) (xs : List Word) : List Nat → State → List Byte × State
  | [], s => ([], s)
  | k :: ks, s =>
    let (q, s) := st.code n k (xs.getD k 0#32) s
    let (bs, s) := st.frameBytes n xs ks s
    (bigEndian st.bytes q ++ bs, s)

/-- Payload of output indices `i` on; an index no slot has produced carries 0.0. -/
def Stream.packet (st : Stream) (i : Nat) : Nat → State → List Byte × State
  | 0, s => ([], s)
  | n + 1, s =>
    let xs := ((st.pend.find? fun p => p.1 == i).map (·.2)).getD []
    let (b1, s) := st.frameBytes i xs (List.range st.channels) s
    let (b2, s) := st.packet (i + 1) n s
    (b1 ++ b2, s)

/-- Send a packet on one path, or count it missed (R400, R401). -/
def State.sendPath (s : State) (o : Obj) (h path seq stamp : Nat) (bs : List Byte) : State :=
  if h == 0 then s else
  let p := hIdx h - 768
  if (s.ethAt p).carries then
    let s := (s.addCtr (ctrStream o.idx (path - 1)) 1).txFrame p (bs.length + 58 + tagOctets s p)
    s.emit (.rtp o.handle path seq stamp bs)
  else s.addCtr (ctrStream o.idx 7) 1

/-- The next packet of a transmit Stream, at its launch time: the instant of output index (k + 1) N (R392). -/
def State.launchPacket (s : State) (o : Obj) (st : Stream) : State :=
  let n := st.n (s.mult o.dom)
  let fs := s.fs o.dom
  let k := match st.pend.head? with
    | some p => max st.next (p.1 / n)
    | none => st.next
  let s := s.carryTo (instantOf ((k + 1) * n) fs)
  let (bs, s) := if s.drives then st.packet (k * n) n s else ([], s)
  let s := s.upd o.handle fun x => x.onStream fun t =>
    { t with next := k + 1, pend := t.pend.filter fun p => p.1 ≥ (k + 1) * n }
  if !s.drives then s
  else
    let seq := k % 65536
    let stamp := k * n % 2 ^ 32
    (s.sendPath o st.ethPort 1 seq stamp bs).sendPath o st.ethPort2 2 seq stamp bs

/-- `STREAM_PACKET_LAUNCH`. -/
def execStreamPacketLaunch (stream : Nat) (s : State) : Host.Outcome State Fault Refusal :=
  .next (match s.obj stream with
    | some o => match o.stream? with
      | some st =>
        let last := st.next * st.n (s.mult o.dom)
        if st.tx && s.dieOn && (s.dom o.dom).runs && !(st.silentAt last) then s.launchPacket o st else s
      | none => s
    | none => s)

/-! ## Receiving (R395, R396, R399) -/

/-- The path a datagram takes into a Stream: its destination matches (R395). -/
def Stream.pathOf (st : Stream) (s : State) (port : Nat) (p : RtpPacket) : Option Nat :=
  let own := (s.ethAt port).addr
  let h := portHandle (768 + port)
  let at' (a : Nat) : Nat := if a == 0 then own else a
  if st.tx then none
  else if st.ethPort == h && p.dst == at' st.addr && p.udp == st.udp then some 1
  else if st.ethPort2 == h && p.dst == at' st.addr2 && p.udp == st.udp2 then some 2
  else none

/-- The other tests of R395. -/
def Stream.accepts (st : Stream) (p : RtpPacket) : Bool :=
  (st.source == 0 || p.src == st.source) && p.checksumOk && p.version == 2 && p.pt == st.pt &&
    p.payload.length % st.frame == 0 && p.payload.length ≤ 1440

/-- The 64-bit index congruent to a timestamp nearest the present index (R396). -/
def extendStamp (ts omc idx : Nat) : Nat :=
  let low := (ts + 2 ^ 32 - omc % 2 ^ 32) % 2 ^ 32
  let base := idx / 2 ^ 32 * 2 ^ 32 + low
  if base > idx then (if base - idx > 2 ^ 31 && base ≥ 2 ^ 32 then base - 2 ^ 32 else base)
  else (if idx - base > 2 ^ 31 then base + 2 ^ 32 else base)

/-- One channel's sample in a payload (R161). -/
def Stream.sampleAt (st : Stream) (bs : List Byte) (f k : Nat) : Word :=
  let b := st.bytes
  let v := leNat ((bs.drop (f * st.frame + k * b)).take b).reverse
  let x : Int := if v < 2 ^ (8 * b - 1) then v else (v : Int) - 2 ^ (8 * b)
  fRat x (2 ^ (8 * b - 1))

/-- A ring index already written. -/
def Stream.has (st : Stream) (n : Nat) : Bool := st.got.any fun g => g.1 ≤ n && n < g.1 + g.2

/-- Write the whole ashlars among the frames waiting (R59). -/
def State.flushFrames (s : State) (o : Obj) (st : Stream) : State :=
  let as := (st.pend.map fun p => p.1 / 8).eraseDups
  let full := as.filter fun a => (st.pend.filter fun p => p.1 / 8 == a).length == 8
  let step := s.maxMult o.dom
  let s := full.foldl (fun s a =>
    let frames := (st.pend.filter fun p => p.1 / 8 == a).inOrder fun x y => x.1 ≤ y.1
    (List.range st.channels).foldl (fun s k =>
      s.landAshlar (st.firstRing + step * k) a (frames.map fun p => p.2.getD k 0#32)) s) s
  s.upd o.handle fun x => x.onStream fun t => { t with pend := t.pend.filter fun p => !(full.contains (p.1 / 8)) }

/-- Sequence tracking (R401): numbers passed over, and those whose samples can no longer be in time. -/
def Stream.sequence (st : Stream) (p : RtpPacket) (n0 n ash : Nat) : Stream × Nat :=
  let st := match st.highest with
    | none => { st with highest := some p.seqNo }
    | some h =>
      let d := (p.seqNo + 65536 - h) % 65536
      if 0 < d && d < 32768 then
        let gone := (List.range (d - 1)).map fun k => ((h + 1 + k) % 65536, n0 - n * (d - 1 - k))
        { st with highest := some p.seqNo, missing := st.missing ++ gone }
      else { st with missing := st.missing.filter fun x => x.1 != p.seqNo }
  let lost := st.missing.filter fun x => x.2 / 8 + 1 ≤ ash
  ({ st with missing := st.missing.filter fun x => !(x.2 / 8 + 1 ≤ ash) }, lost.length)

/-- An accepted packet: placed by index, copies discarded (R396, R397, R399). -/
def State.takePacket (s : State) (o : Obj) (st : Stream) (path : Nat) (p : RtpPacket) : State :=
  let ash := s.ash o.dom
  let count := p.payload.length / st.frame
  let n0 := extendStamp p.timestamp st.omc (s.idx o.dom) + st.linkOffset
  let depth := (((s.ringAt st.firstRing).map fun r => r.2.depth)).getD 0
  let idxs := List.range count
  let early := idxs.filter fun f => n0 + f + 16 ≥ 8 * ash + depth
  let fresh := idxs.filter fun f => !(early.contains f) && !(st.has (n0 + f))
  let dup := !idxs.isEmpty && early.length < count && fresh.isEmpty
  let (st', lost) := st.sequence p n0 count ash
  let late := !dup && !fresh.isEmpty && n0 / 8 + 1 ≤ ash
  let s := s.addCtr (ctrStream o.idx (path - 1)) 1
  let s := s.addCtr (ctrStream o.idx 2) lost
  let s := if late then s.addCtr (ctrStream o.idx 3) 1 else s
  let s := s.addCtr (ctrStream o.idx 4) early.length
  let s := if dup then s.addCtr (ctrStream o.idx 5) 1 else s
  let frames := fresh.map fun f => (n0 + f, (List.range st.channels).map fun k =>
    s.edge o.dom (n0 + f) (st.faded (st.sampleAt p.payload f k) (n0 + f)))
  let old := 8 * ash - depth
  let runs := fresh.map fun f => (n0 + f, 1)
  let runs := if fresh.length == count then [(n0, count)] else runs
  let st' : Stream := { st' with pend := st'.pend ++ frames, got := runs ++ st'.got.filter fun g => g.1 + g.2 > old,
                                 runs := modAt st'.runs (path - 1) (· + 1) }
  let s := s.upd o.handle fun x => x.onStream fun _ => st'
  s.flushFrames o st'

/-- A datagram at a port: every Stream of its destination takes it or counts it (R395). -/
def State.rtpIn (s : State) (port : Nat) (p : RtpPacket) : State :=
  s.streams.foldl (fun s x =>
    match s.obj x.1.handle with
    | none => s
    | some o =>
      match o.stream? with
      | none => s
      | some st =>
        match st.pathOf s port p with
        | none => s
        | some path =>
          if !(st.accepts p) then s.addCtr (ctrStream o.idx 6) 1
          else if (s.dom o.dom).runs && !st.stopped && !(st.silentAt (s.idx o.dom)) then s.takePacket o st path p
          else s) s

/-- `STREAM_PACKET_RECEIVED`. -/
def execStreamPacketReceived (port : Nat) (p : RtpPacket) (s : State) : Host.Outcome State Fault Refusal :=
  .next (if port < 32 && s.dieOn && (s.ethAt port).carries then s.rtpIn port p else s)

/-- STREAM_PATH (R399). -/
def State.pathEvent (s : State) (o : Obj) (path : Nat) (up : Bool) : State :=
  s.raiseObj o.desk 0x0A01 (le 4 o.handle ++ le 1 path ++ le 1 (if up then 1 else 0) ++ le 2 0)

/-- A path of a receive Stream that exists. -/
def Stream.hasPath (st : Stream) (path : Nat) : Bool := !st.tx && (path == 1 || (path == 2 && st.ethPort2 != 0))

/-- A path changes state. -/
def State.setPath (s : State) (o : Obj) (path : Nat) (up : Bool) : State :=
  (s.upd o.handle fun x => x.onStream fun t =>
    { t with up := modAt t.up (path - 1) fun _ => up, runs := modAt t.runs (path - 1) fun _ => 0 }).pathEvent o path up

/-- `STREAM_PATH_DOWN_TIMEOUT`. -/
def execStreamPathDownTimeout (stream path : Nat) (s : State) : Host.Outcome State Fault Refusal :=
  .next (match s.obj stream with
    | some o => match o.stream? with
      | some st => if st.hasPath path && st.up.getD (path - 1) false && s.dieOn then s.setPath o path false else s
      | none => s
    | none => s)

/-- `STREAM_PATH_UP`. -/
def execStreamPathUp (stream path : Nat) (s : State) : Host.Outcome State Fault Refusal :=
  .next (match s.obj stream with
    | some o => match o.stream? with
      | some st =>
        if st.hasPath path && !(st.up.getD (path - 1) true) && st.runs.getD (path - 1) 0 ≥ 8 && s.dieOn then s.setPath o path true
        else s
      | none => s
    | none => s)

/-! ## Session descriptions (R402) -/

/-- ASCII bytes of a text. -/
def ascii (t : String) : List Byte := t.toList.map fun c => BitVec.ofNat 8 c.toNat

/-- What follows a prefix, if a line begins with it. -/
def after : List Byte → List Byte → Option (List Byte)
  | [], bs => some bs
  | p :: ps, b :: bs => if p == b then after ps bs else none
  | _ :: _, [] => none

def isDigit (b : Byte) : Bool := 48 ≤ b.toNat && b.toNat ≤ 57

/-- A decimal number at the head of a text. -/
def decimal (bs : List Byte) : Option (Nat × List Byte) :=
  let ds := bs.takeWhile isDigit
  if ds.isEmpty then none else some (ds.foldl (fun n b => 10 * n + (b.toNat - 48)) 0, bs.dropWhile isDigit)

/-- Fraction digits as thousandths. -/
def thousandths (bs : List Byte) : Nat :=
  let ds := ((bs.takeWhile isDigit) ++ [48, 48, 48]).take 3
  ds.foldl (fun n b => 10 * n + (b.toNat - 48)) 0

/-- Lines of a text, a carriage return at an end dropped. -/
def textLines : List Byte → List Byte → List (List Byte)
  | [], cur => if cur.isEmpty then [] else [cur.reverse]
  | b :: bs, cur =>
    if b.toNat == 10 then (match cur with
      | c :: cs => if c.toNat == 13 then cs.reverse else cur.reverse
      | [] => []) :: textLines bs []
    else textLines bs (b :: cur)

/-- Four decimal bytes of an IPv4 address. -/
def ipv4 (bs : List Byte) : Option Nat := do
  let (a, r) ← decimal bs
  let r ← after (ascii ".") r
  let (b, r) ← decimal r
  let r ← after (ascii ".") r
  let (c, r) ← decimal r
  let r ← after (ascii ".") r
  let (d, _) ← decimal r
  if a < 256 && b < 256 && c < 256 && d < 256 then some (((a * 256 + b) * 256 + c) * 256 + d) else none

/-- What one section of a description says. -/
structure Sdp where
  addr : Option Nat
  port : Option Nat
  pt : Nat
  bits : Nat
  rate : Nat
  channels : Nat
  ptime : Option Nat
  omc : Nat
  send : Bool
  deriving DecidableEq, Repr

def Sdp.none : Sdp := ⟨Option.none, Option.none, 0, 0, 0, 0, Option.none, 0, false⟩

/-- One line; a line the engine does not use is ignored, one it cannot read leaves its field unread. -/
def Sdp.line (x : Sdp) (l : List Byte) : Sdp :=
  match after (ascii "c=IN IP4 ") l with
  | some r => { x with addr := ipv4 r }
  | Option.none =>
  match after (ascii "m=audio ") l with
  | some r => match decimal r with
    | some (p, r) => match (after (ascii " RTP/AVP ") r).bind decimal with
      | some (t, _) => { x with port := some p, pt := t }
      | Option.none => x
    | Option.none => x
  | Option.none =>
  match (after (ascii "a=rtpmap:") l).bind decimal with
  | some (_, r) => match (after (ascii " L") r).bind decimal with
    | some (b, r) => match (after (ascii "/") r).bind decimal with
      | some (fs, r) => { x with bits := b, rate := fs, channels := (((after (ascii "/") r).bind decimal).map (·.1)).getD 1 }
      | Option.none => x
    | Option.none => x
  | Option.none =>
  match (after (ascii "a=ptime:") l).bind decimal with
  | some (n, r) => { x with ptime := some (1000 * n + ((after (ascii ".") r).map thousandths).getD 0) }
  | Option.none =>
  match (after (ascii "a=mediaclk:direct=") l).bind decimal with
  | some (n, _) => { x with omc := n }
  | Option.none => if (after (ascii "a=sendonly") l).isSome then { x with send := true } else x

/-- Sections of a description: the session's lines, then each media section's. -/
def sections : List (List Byte) → List (List Byte) → List (List (List Byte))
  | [], cur => [cur.reverse]
  | l :: ls, cur => if (after (ascii "m=") l).isSome then cur.reverse :: sections ls [l] else sections ls (l :: cur)

/-- PTIME code of a duration in microseconds, to three decimals of a millisecond (R389). -/
def ptimeCode (us : Nat) (f44 : Bool) : Option Nat :=
  let l := if f44 then [136, 272, 363, 1088, 4354] else [125, 250, 333, 1000, 4000]
  l.findIdx? fun x => x == us

/-- Direction, fields and rate of a description (R402). -/
def parseSdp (bs : List Byte) : Option (Bool × Stream × Nat) :=
  match sections (textLines bs []) [] with
  | [] => none
  | head :: media =>
    let base := head.foldl Sdp.line Sdp.none
    match media.map fun m => m.foldl Sdp.line base with
    | [] => none
    | x :: rest => do
      let addr ← x.addr
      let _ ← x.port
      let us ← x.ptime
      let pt ← ptimeCode us (x.rate % 44100 == 0)
      if x.bits != 16 && x.bits != 24 then none
      let two := rest.head?
      let st : Stream := { Stream.blank x.send with
        addr := addr, addr2 := ((two.bind (·.addr))).getD 0, udp2 := ((two.bind (·.port))).getD 0, channels := x.channels,
        format := if x.bits == 16 then 0 else 1, ptime := pt, pt := x.pt, omc := x.omc }
      some (x.send, st, x.rate)

def streamSdpGetBody : Body := fun s f => do
  let o ← resolve s [tStream] (u32 f 0) 0
  match o.stream? with
  | none => .error { status := eHandle, field := 0, handle := o.handle }
  | some st =>
    let b ← bulkAt s f 4 1 4096
    settled o
    mayDefer s f
    let text := Config.sdpText ([st.addr, st.addr2, st.source, st.udp, st.udp2, st.pt, st.format, st.ptime, st.channels,
      rateHz (s.dom o.dom).rate, s.ptp.domain] ++ s.ptp.states)
    accResp (s.deferOut f 0x0A04 o.handle b ((text.take 4096).take b.len))

def opStreamSdpGet : RuziaOp := ⟨0x0A04, .read, false, len 20, streamSdpGetBody⟩

/-- `stream.sdp.get`. -/
def execStreamSdpGet (f : CmdFrame) (s : State) : Host.Outcome State Fault Refusal :=
  ruzia opStreamSdpGet f s

def streamSdpSetBody : Body := fun s f => do
  streamPorts s f (u32 f 16) (u32 f 20) 16 20
  let b ← bulkAt s f 0 0 4096
  let _ ← domainAt f 30
  let cls ← classOf s f 31
  classPermitted s f.desk cls 31
  mayDefer s f
  accResp (s.defer f 0x0A05 0 (some b) 0 0)

def opStreamSdpSet : RuziaOp := ⟨0x0A05, .change, false, len 36, streamSdpSetBody⟩

/-- `stream.sdp.set`: its description is parsed when its data has arrived. -/
def execStreamSdpSet (f : CmdFrame) (s : State) : Host.Outcome State Fault Refusal :=
  ruzia opStreamSdpSet f s

/-- The Stream a description names, with the fields of the command (R402). -/
def sdpCreate (s : State) (f : CmdFrame) (data : List Byte) : Except Err (Nat × Nat × State) := do
  let d := u8 f 30
  let cls ← classOf s f 31
  match parseSdp data with
  | none => .error { status := eRange }
  | some (_, st, rate) =>
    let st : Stream := { st with ethPort := u32 f 16, ethPort2 := u32 f 20, source := u32 f 24, udp := u16 f 28,
                                 linkOffset := u32 f 32 }
    streamRanges st d (s.mult d)
    need (rate == s.fs d) eState
    createStream s f.desk cls d st

/-- The data of `stream.sdp.set` has arrived: COMMAND_DONE carries the handles. -/
def State.sdpArrived (s : State) (j : Job) : State :=
  match sdpCreate s j.frame j.data with
  | .ok (h, r, s) => s.done j 0 (le 4 h ++ le 4 r)
  | .error e => s.done j e.status (le 4 0 ++ le 4 0)

end Sys2Proof.Machine
end

