-- ==== Sys2Proof/Machine/Timing.lean ====
section
/-! DEFINITION. The timing function (chapter 16, R333, R334): candidates, selection, steering, states, holdover, steps and time
sets, and the `timing` commands. The arithmetic of the PLL (R441) is open: its output is a free value. -/
namespace Sys2Proof.Machine

/-! ## Reports (R444) -/

def TimState.code : TimState → Nat
  | .freeRun => 0
  | .acquiring => 1
  | .locked => 2
  | .holdover => 3
  | .lost => 4

/-- SELECTED as its registers and events give it. -/
def selCode (c : Option Nat) : Nat := c.getD 0xFF

def State.onTiming (s : State) (f : Timing → Timing) : State := { s with timing := f s.timing }

/-- TIMING_STATE. -/
def State.timingEvent (s : State) (old : Nat) : State :=
  s.raise0 0x0B01 (le 1 old ++ le 1 s.timing.st.code ++ le 1 (selCode s.timing.selected) ++ le 1 0 ++ le 4 s.timing.sticky)

/-- Set a sticky bit; one newly set is reported and interrupts. -/
def State.stick (s : State) (b : Nat) : State :=
  if bit s.timing.sticky b then s else
  let s := s.onTiming fun t => { t with sticky := setBit t.sticky b }
  let s := if bit s.timing.report 1 then s.timingEvent s.timing.st.code else s
  if bit s.timing.stickyIrqEn b then s.irq 17 else s

/-- Enter a timing state. -/
def State.timState (s : State) (st : TimState) : State :=
  if s.timing.st == st then s else
  let old := s.timing.st.code
  let s := s.onTiming fun t => { t with st := st }
  if bit s.timing.report 0 then s.timingEvent old else s

/-- REF_SWITCHED. -/
def State.refSwitched (s : State) (a b : Nat) (step : Int) : State :=
  s.raise0 0x0B02 (le 1 a ++ le 1 b ++ le 2 0 ++ le 4 0 ++ le 8 (twos 64 step))

/-! ## Candidates (R435-R438) -/

def State.cand (s : State) (c : Nat) : Cand := s.timing.cands.getD c Cand.reset

def State.setCand (s : State) (c : Nat) (f : Cand → Cand) : State :=
  s.onTiming fun t => { t with cands := modAt t.cands c f }

/-- A candidate whose quality its messages carry. -/
def carries (c : Nat) : Bool := c ≤ 1 || c == 6 || c == 7

def State.candQuality (s : State) (c : Nat) : Nat := if carries c then (s.cand c).carried else (s.cand c).quality

/-- Quality of a PTP port's Announce data (R438). -/
def ptpQuality (cls acc : Nat) : Nat :=
  if cls == 6 || cls == 13 then
    (if acc == 0x20 || acc == 0x21 then 240 else if acc == 0x22 || acc == 0x23 then 224
     else if 0x24 ≤ acc && acc ≤ 0x27 then 192 else 160)
  else if cls == 7 || cls == 14 then 128
  else if cls == 52 || cls == 58 || cls == 187 || cls == 193 then 64
  else if cls == 248 then 32
  else if cls == 255 then 0
  else 16

/-- A phase error of 1 ms or more (R446). -/
def isFar (e : Int) : Bool := e.natAbs ≥ 1000000

/-- QUALITY of the time carried (R439). -/
def State.qualityOut (s : State) : Nat :=
  let locked := match s.timing.selected with
    | some c => max 33 (s.candQuality c - 1)
    | none => 33
  match s.timing.st with
  | .locked => locked
  | .holdover => if s.timing.expired then 32 else s.timing.holdQuality
  | _ => 32

/-! ## Steering (R441) -/

/-- An integer division whose rounding the manual leaves open: the floor, or the whole number above it. -/
def openDiv (s : State) (n d : Int) : Int × State :=
  if n % d == 0 then (n / d, s) else let (w, s) := s.drawNat; (n / d + (if w % 2 == 0 then 0 else 1), s)

/-- The integer nearest `n / 2^16`; a tie is left to a free value. -/
def nearestPpt (s : State) (f : Int) : Int × State :=
  if f % 65536 == 32768 then openDiv s f 65536 else ((f + 32768) / 65536, s)

/-- Steer by a correction: the whole ppt to STEER, the remainder to RATE (R441). `limit` bounds the move of one update. -/
def State.steerBy (s : State) (f : Int) (limit : Bool) : State :=
  let (want, s) := nearestPpt s f
  let old := s.timing.steer
  let near := if limit then max (old - 1000) (min (old + 1000) want) else want
  let v := max (-50000000) (min 50000000 near)
  let s := s.onTiming fun t => { t with f := f, steer := v }
  let s := if v != near then s.stick 7 else s
  let (r, s) := openDiv s ((f - 65536 * want) * 67108864) 1000000000000
  s.setRate (4398046511104 + r).toNat s.clk.raw

/-! ## Steps and time sets (R446-R450) -/

/-- A time set or `timing.offset.set` runs. -/
def State.setting (s : State) : Bool := s.doms.any fun x => x.seq.any fun q => q.qtime.isSome

/-- The instant at which the last domain stops, were a time set decided now. -/
def setStops (s : State) : Nat :=
  let at' := instantOf (tickFor (s.tickLen 0) 0 (s.ash 0)) (s.fs 0)
  (List.range 3).foldl (fun m d =>
    if (s.dom d).launchable then max m (instantOf (stopIndex s d (roundUp (firstAt at' (s.fs d)) 8)) (s.fs d)) else m) s.q

/-- Take up an error of the candidate switched to: a time set, a step, or nothing. -/
def State.takeError (s : State) (a b : Nat) (e : Int) : State :=
  if s.setting then s
  else if isFar e then
    let q := ((setStops s : Int) + 65536 * e).toNat
    ((((s.startTimeSet 0 0 0 q).stick 3).refSwitched a b (65536 * e)).onTiming fun t => { t with lastStep := 65536 * e }).decision 9 0
      s.now (q : Int)
  else if e == 0 then s.refSwitched a b 0
  else
    let i := tickFor (s.tickLen 0) 0 (s.ash 0)
    (s.onTiming fun t => { t with stepDue := some (65536 * e, i, a, b) }).decision 8 0 i (65536 * e)

/-! ## Holdover (R445) -/

/-- E(t) has reached HOLD_LIMIT `t` units of 2^-16 ns after entry. -/
def holdReached (t : Timing) (q : Nat) : Bool :=
  let n := max t.e0.2 1
  -- E0 + 10^-3 |D| t + 10^-3 |A| t^2 / 172800, all times n * 172800 * 1000 * secondQ^2
  t.e0.1 * 172800000 * secondQ * secondQ + n * 172800 * t.drift.natAbs * q * secondQ + n * t.ageing.natAbs * q * q ≥
    n * t.holdLimit * 172800000 * secondQ * secondQ

/-- The least time at which a rising test holds, by halving: `k` more bits of it are to be found above `lo`. -/
def leastAt (p : Nat → Bool) : Nat → Nat → Nat
  | 0, lo => lo
  | k + 1, lo => if p (lo + 2 ^ k - 1) then leastAt p k lo else leastAt p k (lo + 2 ^ k)

/-- Time from entry to expiry in units of 2^-16 ns; none if holdover never expires. -/
def holdExpiry (t : Timing) : Option Nat :=
  if holdReached t 0 then some 0
  else if t.drift == 0 && t.ageing == 0 then none
  else some (leastAt (holdReached t) 96 0)

/-- HOLD_REMAIN: whole seconds to expiry. -/
def holdRemain (s : State) : Nat :=
  if s.timing.st != .holdover || s.timing.expired then 0xFFFFFFFF
  else match holdExpiry s.timing with
    | some t => min 0xFFFFFFFE ((t - (s.q - s.timing.holdFrom)) / secondQ)
    | none => 0xFFFFFFFF

/-- Expiry. -/
def State.expireHold (s : State) : State :=
  (((s.onTiming fun t => { t with expired := true }).stick 5)).raise0 0x0B03 (le 4 s.timing.holdLimit ++ le 4 s.timing.holdLimit)

/-- Mean of F over the 60 s that end 1 s before the last update. -/
def holdMean (s : State) : Int × State :=
  let l := (s.timing.fPast.drop 1000).take 60000
  if l.isEmpty then (s.timing.f, s) else openDiv s (l.foldl (· + ·) 0) l.length

/-- The journal's calibration record (R442). -/
def State.calibrate (s : State) (h : Int) : State := { s with journal := { s.journal with calib := [h] } }

/-- Errors of the last second: their sum of magnitudes and number; the latest alone if none is so recent. -/
def lastSecond (s : State) (c : Cand) : Nat × Nat :=
  let l := c.recent.filter fun m => s.q ≤ m.1 + secondQ
  let l := if l.isEmpty then c.recent.take 1 else l
  (sumNat (l.map fun m => m.2.natAbs), l.length)

/-- Enter HOLDOVER from the loss of candidate `c`. -/
def State.enterHold (s : State) (c : Nat) : State :=
  let (h, s) := holdMean s
  let e0 := lastSecond s (s.cand c)
  let q := min 128 (max 33 (s.candQuality c - 1))
  let s := (s.steerBy h false).onTiming fun t => { t with h := h, e0 := e0, holdFrom := s.q, expired := false, holdQuality := q }
  let s := ((s.timState .holdover).stick 4).calibrate h
  if holdReached s.timing 0 then s.expireHold else s

/-! ## PTP port states (R404, R406, R407): the default BMCA of IEEE 1588-2019 over the fields the manual names (log entry 8) -/

def ptpListening : Nat := 4
def ptpMaster : Nat := 6
def ptpPassive : Nat := 7
def ptpUncalibrated : Nat := 8
def ptpSlave : Nat := 9

/-- clockClass and clockAccuracy the engine announces as grandmaster (R406). -/
def ptpClass (s : State) : Nat × Nat :=
  if s.ptp.role == 0 then (255, 0xFE) else
  match s.timing.st with
  | .locked => match s.timing.selected with
    | some c => if c == 5 || c ≥ 6 then (6, 0x21) else (248, 0xFE)
    | none => (248, 0xFE)
  | .holdover => if s.timing.expired then (248, 0xFE) else (7, 0xFE)
  | _ => (248, 0xFE)

/-- The EUI-64 of the base MAC address (R406). -/
def clockIdentity : Nat :=
  let m := Config.macBase.toNat
  m / 2 ^ 24 * 2 ^ 40 + 0xFFFE * 2 ^ 24 + m % 2 ^ 24

/-- The engine's own dataset in the order of comparison: priority 1, class, accuracy, priority 2, identity, steps. -/
def ptpOwn (s : State) : List Nat := [s.ptp.priority1, (ptpClass s).1, (ptpClass s).2, s.ptp.priority2, clockIdentity, 0]

/-- Dataset order: the first difference decides. -/
def dsBefore : List Nat → List Nat → Bool
  | a :: as, b :: bs => a < b || (a == b && dsBefore as bs)
  | _, _ => false

/-- The best qualified master of some ports: two Announce messages qualify one. -/
def bestForeign (s : State) (ports : List Nat) : Option (Nat × List Nat) :=
  (s.ptp.foreign.filter fun x => ports.contains x.1 && x.2.getD 6 0 ≥ 2).foldl (fun b x => match b with
    | some (y : Nat × List Nat) => if dsBefore (x.2.take 6) (y.2.take 6) then some x else some y
    | none => some x) none

/-- State recommended to a port: 8 stands for the way to SLAVE. -/
def ptpRecommended (s : State) (p now : Nat) : Nat :=
  let own := ptpOwn s
  let here := bestForeign s [p]
  let best := if s.ptp.role == 2 then bestForeign s s.ptp.ports else here
  if s.ptp.role == 0 then (if here.isSome then ptpUncalibrated else ptpListening)
  else match best with
    | none => if now == ptpListening && !(s.ptp.silent.contains p) then ptpListening else ptpMaster
    | some b =>
      let beaten := dsBefore own (b.2.take 6)
      if (ptpClass s).1 ≤ 127 then
        (if here.all fun h => dsBefore own (h.2.take 6) then ptpMaster else ptpPassive)
      else if beaten then ptpMaster
      else if b.1 == p then ptpUncalibrated
      else match here with
        | some h => if h.2.getD 4 0 == b.2.getD 4 0 then ptpPassive else ptpMaster
        | none => ptpMaster

/-- Candidate a SLAVE port supplies (R404). -/
def ptpCand (s : State) (i : Nat) : Option Nat := if s.ptp.role == 2 then some 0 else if i < 2 then some i else none

/-- The port states now: a port on its way to SLAVE keeps SLAVE once there, and no port is MASTER unless the time distributed is the
time announced (R407). -/
def ptpStates (s : State) : List Nat :=
  let raw := s.ptp.ports.zipIdx.map fun x =>
    let now := s.ptp.states.getD x.2 ptpListening
    let r := ptpRecommended s x.1 now
    if r == ptpUncalibrated && now == ptpSlave then ptpSlave else r
  let grand := raw.all fun r => r != ptpSlave && r != ptpUncalibrated
  let follows := raw.zipIdx.any fun x => x.1 == ptpSlave && (ptpCand s x.2).isSome && s.timing.selected == ptpCand s x.2
  if grand || follows then raw else raw.map fun r => if r == ptpMaster then ptpPassive else r

/-- Enter port states; each change raises PTP_PORT_STATE. -/
def State.ptpEnter (s : State) (new : List Nat) : State :=
  let old := s.ptp.states
  let s : State := { s with ptp := { s.ptp with states := new } }
  (s.ptp.ports.zipIdx.filter fun x => old.getD x.2 0 != new.getD x.2 0).foldl (fun s x =>
    s.raise [(s.ethAt x.1).owner, 0] 0x1402 (le 4 (portHandle (768 + x.1)) ++ le 1 (new.getD x.2 0) ++ le 3 0)) s

/-- Work the port states out again. -/
def State.ptpRefresh (s : State) : State := if s.ptp.on then s.ptpEnter (ptpStates s) else s

/-! ## Selection (R440) -/

/-- States in which a far candidate may be selected (R448). -/
def mayFar (t : Timing) : Bool :=
  match t.st with
  | .freeRun => true
  | .lost => true
  | .holdover => t.expired
  | _ => false

/-- A candidate that selection may take. -/
def State.selectable (s : State) (c : Nat) : Bool := (s.cand c).valid && (!(isFar (s.cand c).e) || mayFar s.timing || s.timing.selected == some c)

/-- The better of two candidates: quality, then PRIORITY, then number. -/
def State.better (s : State) (a b : Nat) : Bool :=
  let qa := s.candQuality a
  let qb := s.candQuality b
  qa > qb || (qa == qb && ((s.cand a).priority < (s.cand b).priority || ((s.cand a).priority == (s.cand b).priority && a < b)))

def State.bestCand (s : State) : Option Nat :=
  ((List.range 8).filter s.selectable).foldl (fun m c => match m with
    | none => some c
    | some b => if s.better c b then some c else some b) none

/-- The candidate selection gives. -/
def State.choice (s : State) : Option Nat :=
  match s.timing.forced with
  | some c => if (s.cand c).valid then some c else none
  | none => s.bestCand

/-- Forget what a lock was measured by. -/
def Timing.restartLock (t : Timing) : Timing := { t with okSince := none, okCount := 0, badCount := 0, fPast := [] }

/-- Selection itself. -/
def State.selectNew (s : State) : State :=
  if !(s.decides && s.dieOn) then s else
  let s := if (List.range 8).any fun c => (s.cand c).valid && !(s.selectable c) then s.stick 8 else s
  let new := s.choice
  let old := s.timing.selected
  if new == old then s else
  match new with
  | some c =>
    let s := (s.onTiming fun t => { t with selected := some c }).stick 1
    ((s.takeError (selCode old) c (s.cand c).e).onTiming Timing.restartLock).timState .acquiring
  | none =>
    let long := s.timing.st == .locked && s.q ≥ s.timing.lockedSince + 61 * secondQ
    let s := s.stick 1
    match old with
    | some c =>
      let s := if s.timing.st != .locked && s.timing.st != .acquiring then s
        else if long then s.enterHold c else s.timState .lost
      s.onTiming fun t => { t.restartLock with selected := none }
    | none => s

/-- Run selection; the PTP ports follow it (R407). -/
def State.reselect (s : State) : State := s.selectNew.ptpRefresh

/-! ## Events of the references -/

/-- A step of the reference among the last five measurements, newest first (R447). -/
def isStep (l : List (Nat × Int)) : Bool :=
  match l.map (·.2) with
  | m5 :: m4 :: m3 :: m2 :: m1 :: _ =>
    (m2 - m1).natAbs ≥ 1000 && [m3, m4, m5].all fun m => (m - m2).natAbs ≤ 1000
  | _ => false

/-- A jump of 1,000 ns may yet prove to be a step: the last four measurements hold one (R443). -/
def maybeStep (l : List (Nat × Int)) : Bool :=
  let l := l.map (·.2)
  ((l.take 4).zip (l.drop 1)).any fun p => (p.1 - p.2).natAbs ≥ 1000

/-- What a measurement of the selected candidate does to the state (R443, R447). -/
def State.measured (s : State) (c : Nat) : State :=
  let k := s.cand c
  let e := k.e
  match s.timing.st with
  | .acquiring =>
    if e.natAbs < 1000 then
      let since := s.timing.okSince.getD s.q
      let n := s.timing.okCount + 1
      let s := s.onTiming fun t => { t with okSince := some since, okCount := n }
      if s.q ≥ since + 10 * secondQ && n ≥ 4 then
        (s.onTiming fun t => { t with lockedSince := s.q, badCount := 0, fPast := [] }).timState .locked
      else s
    else s.onTiming fun t => { t with okSince := none, okCount := 0 }
  | .locked =>
    if isStep k.recent && s.timing.stepDue.isNone then
      let s := s.setCand c fun x => { x with recent := x.recent.take 1 }
      ((s.takeError c c e).onTiming Timing.restartLock).timState .acquiring
    else
      let n := if e.natAbs > 10000 && !(maybeStep k.recent) then s.timing.badCount + 1 else 0
      let s := s.onTiming fun t => { t with badCount := n }
      if n ≥ 4 then ((s.stick 6).onTiming Timing.restartLock).timState .acquiring else s
  | _ => s

/-- A measurement `e` in ns of a candidate, with the quality its messages carry. -/
def State.referenceIn (s : State) (cand : Nat) (e : Int) (quality : Nat) : State :=
  let s := s.setCand cand fun c => { c with
    present := true, e := e, carried := if carries cand then quality % 256 else c.carried
    recent := (s.q, e) :: c.recent.zipIdx.filterMap fun p => if p.2 < 4 || s.q ≤ p.1.1 + secondQ then some p.1 else none }
  let s := if s.decides && s.timing.selected == some cand && !s.setting then s.measured cand else s
  s.reselect

/-- REFERENCE_EVENT. -/
def execReferenceEvent (cand : Nat) (e : Int) (quality : Nat) (s : State) : Host.Outcome State Fault Refusal :=
  .next (if s.dieOn && cand < 8 then s.referenceIn cand e quality else s)

/-- CANDIDATE_VALID: the conditions of R437 have held for 10 s. -/
def execCandidateValid (cand : Nat) (s : State) : Host.Outcome State Fault Refusal :=
  .next (if s.dieOn && cand < 8 && (s.cand cand).enable && (s.cand cand).present && s.candQuality cand > 0 then
    (s.setCand cand fun c => { c with valid := true }).reselect
  else s)

/-- A candidate is lost. -/
def State.loseCand (s : State) (c : Nat) : State :=
  let s := s.setCand c fun x => { x with valid := false, present := false, recent := x.recent.take 4 }
  let s := s.stick (16 + c)
  (if s.timing.selected == some c then s.stick 0 else s).reselect

/-- CANDIDATE_LOST (R435, R437). -/
def execCandidateLost (cand : Nat) (s : State) : Host.Outcome State Fault Refusal :=
  .next (if s.dieOn && cand < 8 && ((s.cand cand).valid || (s.cand cand).present) then s.loseCand cand else s)

/-- PLL_UPDATE: the loop's next correction while it runs on a candidate (R441). -/
def execPllUpdate (s : State) : Host.Outcome State Fault Refusal :=
  .next (if !(s.dieOn && s.decides && s.timing.selected.isSome && (s.timing.st == .acquiring || s.timing.st == .locked)) then s else
    let (f, s) := s.drawInt
    let s := s.steerBy f true
    if s.timing.st == .locked then s.onTiming fun t => { t with fPast := (f :: t.fPast).take 61000 } else s)

/-- HOLDOVER_EXPIRY: E(t) reaches HOLD_LIMIT; RAW is carried to that instant. -/
def execHoldoverExpiry (s : State) : Host.Outcome State Fault Refusal :=
  .next (match holdExpiry s.timing with
    | some t =>
      if s.dieOn && s.timing.st == .holdover && !s.timing.expired then ((s.carryTo (s.timing.holdFrom + t)).expireHold).reselect else s
    | none => s)

/-- CALIBRATION_WRITE: every hour while LOCKED (R442). -/
def execCalibrationWrite (s : State) : Host.Outcome State Fault Refusal :=
  .next (if s.dieOn && s.timing.st == .locked then let (h, s) := holdMean s; s.calibrate h else s)

/-! ## The step (R40, R449, R450) -/

/-- Sample periods of a rate in a step, rounded to the nearest with halves away from zero. -/
def stepSamples (e : Int) (fs : Nat) : Int :=
  let k := (2 * e.natAbs * fs + secondQ) / (2 * secondQ)
  if e < 0 then -(k : Int) else k

/-- A domain takes a step that took effect at quarry time `q` of the old numbering. -/
def State.domStep (s : State) (d q : Nat) (e : Int) : State :=
  if !((s.dom d).runs) then s else
  let fs := s.fs d
  let k := stepSamples e fs
  if k == 0 then s else s.setDom d fun x => { x with step := some (k, roundUp (firstAt q fs) 8) }

/-! ## The commands -/

def timingInfoBody : Body := fun s _ =>
  let t := s.timing
  okResp s (le 1 t.st.code ++ le 1 (selCode t.selected) ++ le 1 t.bandwidth ++ le 1 t.report ++ le 4 t.sticky ++ le 4 (twos 32 t.steer) ++
    (List.range 8).flatMap fun c =>
      let k := s.cand c
      le 1 (if k.enable then 1 else 0) ++ le 1 k.priority ++ le 1 (s.candQuality c) ++ le 1 (if k.valid then 1 else 0))

def opTimingInfo : RuziaOp := ⟨0x0B00, .read, false, len 0, timingInfoBody⟩

/-- `timing.info`. -/
def execTimingInfo (f : CmdFrame) (s : State) : Host.Outcome State Fault Refusal :=
  ruzia opTimingInfo f s

def timingNowBody : Body := fun s _ =>
  okResp s (qBytes s.q ++ le 8 s.clk.raw ++ le 8 (s.idx 0) ++ le 8 (s.idx 1) ++ le 8 (s.idx 2) ++ le 4 (twos 32 s.timing.steer))

def opTimingNow : RuziaOp := ⟨0x0B01, .read, false, len 0, timingNowBody⟩

/-- `timing.now`. -/
def execTimingNow (f : CmdFrame) (s : State) : Host.Outcome State Fault Refusal :=
  ruzia opTimingNow f s

/-- A PORT a candidate may name (R435). -/
def candPort (s : State) (c h : Nat) : Bool :=
  match resolvePort s h 4 with
  | .error _ => false
  | .ok p =>
    if c ≤ 1 then 768 ≤ p && p < 800 && s.ptp.ports.contains (p - 768)
    else 256 ≤ p && p < 288 && (s.lane (p - 256)).upstream

def timingRefBody : Body := fun s f => do
  let c := u8 f 0
  need (c ≤ 7) eRange 0
  need (u8 f 1 ≤ 1) eRange 1
  need (carries c || u32 f 4 == 0) eRange 4
  need (!(carries c) || candPort s c (u32 f 4)) eState 4
  let on := u8 f 1 == 1
  let s := s.setCand c fun k => { k with enable := on, priority := u8 f 2, quality := u8 f 3, port := u32 f 4,
                                         valid := k.valid && on && k.port == u32 f 4 }
  let s : State := { s with journal := { s.journal with
    cands := [c, u8 f 1, u8 f 2, u8 f 3, u32 f 4] :: s.journal.cands.filter fun l => l.getD 0 99 != c } }
  okResp (if s.timing.selected == some c && !on then (s.stick 0).reselect else s.reselect)

def opTimingRefConfig : RuziaOp := ⟨0x0B02, .change, true, len 8, timingRefBody⟩

/-- `timing.ref.config`: kept in the configuration journal. -/
def execTimingRefConfig (f : CmdFrame) (s : State) : Host.Outcome State Fault Refusal :=
  ruzia opTimingRefConfig f s

def timingPllBody : Body := fun s f => do
  need (u8 f 0 ≤ 2) eRange 0
  need (u8 f 1 ≤ 3) eRange 1
  reserved f 2 2
  let s : State := { s with journal := { s.journal with pll := [u8 f 0, u8 f 1] } }
  okResp (s.onTiming fun t => { t with bandwidth := u8 f 0, report := u8 f 1 })

def opTimingPllSet : RuziaOp := ⟨0x0B03, .change, true, len 4, timingPllBody⟩

/-- `timing.pll.set`: kept in the configuration journal. -/
def execTimingPllSet (f : CmdFrame) (s : State) : Host.Outcome State Fault Refusal :=
  ruzia opTimingPllSet f s

def timingHoldBody : Body := fun s f => do
  need ((s32 (u32 f 0)).natAbs ≤ 50000000) eRange 0
  need ((s32 (u32 f 4)).natAbs ≤ 1000000) eRange 4
  need (100 ≤ u32 f 8 && u32 f 8 ≤ 1000000000) eRange 8
  okResp (s.onTiming fun t => { t with drift := s32 (u32 f 0), ageing := s32 (u32 f 4), holdLimit := u32 f 8 })

def opTimingHoldoverSet : RuziaOp := ⟨0x0B04, .change, true, len 12, timingHoldBody⟩

/-- `timing.holdover.set`. -/
def execTimingHoldoverSet (f : CmdFrame) (s : State) : Host.Outcome State Fault Refusal :=
  ruzia opTimingHoldoverSet f s

def timingOffsetBody : Body := fun s f => do
  match qOf f.payload 0 with
  | none => .error { status := eRange, field := 0 }
  | some q =>
    need (domAFree s) eState
    need (!(s.doms.any fun x => x.seq.isSome)) eBusy
    need (!((List.range 3).any fun d => (s.dom d).runs && recallIn s d)) eBusy
    mayDefer s f
    accResp ((s.defer f 0x0B05 0 none 1 0).startTimeSet f.desk f.seq 0x0B05 q)

def opTimingOffsetSet : RuziaOp := ⟨0x0B05, .change, true, len 12, timingOffsetBody⟩

/-- `timing.offset.set`. -/
def execTimingOffsetSet (f : CmdFrame) (s : State) : Host.Outcome State Fault Refusal :=
  ruzia opTimingOffsetSet f s

def timingSpliceBody : Body := fun s f => do
  let d ← domainAt f 0
  reserved f 1 1
  need (u16 f 2 ≤ 240) eRange 2
  okResp (s.setDom d fun x => { x with spliceL := u16 f 2 })

def opTimingSpliceSet : RuziaOp := ⟨0x0B06, .change, true, len 4, timingSpliceBody⟩

/-- `timing.splice.set`. -/
def execTimingSpliceSet (f : CmdFrame) (s : State) : Host.Outcome State Fault Refusal :=
  ruzia opTimingSpliceSet f s

def timingStickyBody : Body := fun s f => okResp (s.onTiming fun t => { t with sticky := w1c t.sticky (u32 f 0) })

def opTimingStickyClear : RuziaOp := ⟨0x0B07, .locl, true, len 4, timingStickyBody⟩

/-- `timing.sticky.clear`. -/
def execTimingStickyClear (f : CmdFrame) (s : State) : Host.Outcome State Fault Refusal :=
  ruzia opTimingStickyClear f s

def timingSelectBody : Body := fun s f => do
  let c := u8 f 0
  need (c ≤ 7 || c == 0xFF) eRange 0
  reserved f 1 3
  okResp (s.onTiming fun t => { t with forced := if c == 0xFF then none else some c }).reselect

def opTimingSelect : RuziaOp := ⟨0x0B08, .change, true, len 4, timingSelectBody⟩

/-- `timing.select`. -/
def execTimingSelect (f : CmdFrame) (s : State) : Host.Outcome State Fault Refusal :=
  ruzia opTimingSelect f s

end Sys2Proof.Machine
end

