-- ==== Sys2Proof/Machine/Red.lean ====
section
/-! DEFINITION. Redundant pairs and triads (chapter 17, R336): roles, formation, ownership and fence, switch and rejoin. What the
records of a Tether frame do is in `Tether.lean`. -/
namespace Sys2Proof.Machine

def State.onRed (s : State) (f : Red → Red) : State := { s with red := f s.red }

def State.peer (s : State) (i : Nat) : Option Peer := s.red.peers[i]?

def State.setPeer (s : State) (i : Nat) (f : Peer → Peer) : State := s.onRed fun r => { r with peers := modAt r.peers i f }

/-- The claim a member sends: 0 while STALE (R458). -/
def Red.claimNow (r : Red) : Nat := if r.role == .stale then 0 else r.claim

/-- RED_ROLE, and the role (R458). -/
def State.setRole (s : State) (r : Role) : State :=
  if s.red.role == r then s else
  let old := s.red.role.code
  let s := s.onRed fun x => { x with role := r }
  s.raise0 0x0E01 (le 1 old ++ le 1 r.code ++ le 1 s.red.claimNow ++ le 1 0 ++ le 8 s.epoch)

/-- RED_PEER_LOST. -/
def State.peerLostEvent (s : State) (id cause : Nat) : State := s.raise0 0x0E02 (le 2 id ++ le 1 cause ++ le 1 0)

/-- Send the responses whose acknowledgements no longer wait for anyone (R463). -/
def State.releaseHeld (s : State) : State :=
  let waits (e : Nat) : Bool := s.red.peers.any fun p => p.awaited && p.acked < e
  let go := s.red.held.filter fun h => !(waits h.1)
  let s := s.onRed fun r => { r with held := r.held.filter fun h => waits h.1 }
  go.foldl (fun s h =>
    match (s.desk h.2.1).kept.find? fun k => k.response == h.2.2 with
    | some k => s.respond k.frame h.2.2
    | none => s) s

/-- A member becomes STALE: it gives up outputs, readiness and claim (R458, R462). -/
def State.goStale (s : State) : State :=
  ((s.onRed fun r => { r with ownOut := false, settle := false, backoff := false, ready := false, fenceOut := false, against := 0,
                              rejoin := 0 }).setRole .stale).releaseHeld

/-- Assert OWN_OUT_N and settle (R476). -/
def State.assertOwn (s : State) : State := s.onRed fun r => { r with ownOut := true, settle := true, backoff := false }

/-- A member becomes ACTIVE at formation and asserts OWN_OUT_N. -/
def State.goActive (s : State) : State :=
  ((s.onRed fun r => { r with ready := false, rejoin := 0 }).setRole .active).assertOwn

/-- Complete the redundancy command in progress. -/
def State.redDone (s : State) (op status : Nat) : State :=
  match s.red.job with
  | some (d, q, o) =>
    if o != op then s else
    let s := s.onRed fun r => { r with job := none }
    match s.jobs.find? fun j => j.desk == d && j.seq == q && j.op == o with
    | some j => s.done j status
    | none => s
  | none => s

/-- DSP state is lost, or a break of this member's own would be needed: a standby becomes STALE at once, an owner at the next
boundary (R462). -/
def State.leaveSet (s : State) : State :=
  match s.red.role with
  | .standby => s.goStale
  | .active => s.onRed fun r => { r with leaving := true }
  | _ => s

/-- A new active delivers from the last event its forerunner reported (R463). -/
def Desk.resume (k : Desk) : Desk :=
  match k.reported with
  | some q => { k with undelivered := (k.history.filter fun e => newer e.seq q).length, reported := none }
  | none => k

/-! ## Formation (R459) -/

/-- A peer's header that no set can hold: an equal claim, another mode, or a list that does not name this member. -/
def State.conflicts (s : State) (h : TetherHdr) : Bool :=
  (h.claim == s.red.claim && h.claim != 0) || h.mode != s.red.mode || !(h.peers.contains s.engineId)

/-- Record the redundancy configuration (R455). -/
def State.keepRed (s : State) (l : List Nat) : State := { s with journal := { s.journal with red := l } }

/-- Leave a set that cannot form; a `red.config` in progress leaves the member single. -/
def State.unform (s : State) : State :=
  let s := if s.red.job.isSome then s.keepRed [] else s
  ((s.onRed fun r => { r with mode := 0, peers := [] }).setRole .single).redDone 0x0E01 eState

/-- Begin a rejoin: the engine is emptied and the image asked for (R483). -/
def State.beginRejoin (s : State) : State :=
  let s := s.onRed fun r => { r with rejoin := 1, deltas := [] }
  { s with objs := [], tabs := List.replicate 16 { gens := [], freed := [] }, recalls := [], arms := [], moves := [],
           jobs := s.jobs.filter fun j => s.red.job == some (j.desk, j.seq, j.op) }

/-- Go on with formation by what the peers' headers say. -/
def State.form (s : State) : State :=
  if s.red.role != .forming then s else
  let ps := s.red.peers
  if ps.any fun p => p.seen && s.conflicts p.hdr then s.unform
  else if ps.any fun p => p.seen && p.hdr.role == 1 then (s.goStale).redDone 0x0E01 0
  else if ps.all fun p => p.seen && p.hdr.role == 0 then
    let best := ps.all fun p => p.hdr.epoch < s.epoch || (p.hdr.epoch == s.epoch && p.hdr.claim < s.red.claim)
    if best then (s.goActive).redDone 0x0E01 0 else ((s.goStale).beginRejoin).redDone 0x0E01 0
  else s

/-- FORMATION_TIMEOUT: no peer seen for 10 s. -/
def execFormationTimeout (s : State) : Host.Outcome State Fault Refusal :=
  .next (if s.dieOn && s.red.role == .forming && !(s.red.peers.any fun p => p.seen) then
    (if s.red.ownIn.any id then s.goStale else s.goActive).redDone 0x0E01 0
  else s)

/-! ## Ownership (R475-R479) -/

/-- The member that takes over when the owner releases: a switch's TARGET, or the standby-ready one of the highest claim (R476). -/
def State.succeeds (s : State) : Bool :=
  s.red.role == .standby && s.red.ready && !s.red.fenced &&
  (match s.red.switchDue with
   | some (t, _) => t == s.engineId
   | none => s.red.peers.all fun p => !(p.seen && !p.lost && p.hdr.role == 2 && p.hdr.ready) || p.hdr.claim < s.red.claim)

/-- Take over if it is this member's turn and no peer asserts. -/
def State.tryTakeover (s : State) : State :=
  if s.succeeds && !(s.red.ownIn.any id) && !s.red.ownOut then s.assertOwn else s

/-- OWN_RELEASE_SENSED on OWN_IN0_N or OWN_IN1_N: the owner's release. -/
def execOwnReleaseSensed (peer : Nat) (s : State) : Host.Outcome State Fault Refusal :=
  .next (if s.dieOn && peer < 2 && s.red.ownIn.getD peer false then
    (s.onRed fun r => { r with ownIn := modAt r.ownIn peer fun _ => false }).tryTakeover
  else s)

/-- OWN_ASSERT_SENSED: driving stops while a peer asserts; in a settle OWN_OUT_N is released (R474, R477). -/
def execOwnAssertSensed (peer : Nat) (s : State) : Host.Outcome State Fault Refusal :=
  .next (if s.dieOn && peer < 2 then
    s.onRed fun r =>
      let r := { r with ownIn := modAt r.ownIn peer fun _ => true }
      if r.settle then { r with ownOut := false, settle := false, backoff := true } else r
  else s)

/-- TAKEOVER_SETTLE_END: the drivers are enabled, and a successor is ACTIVE from here. -/
def execTakeoverSettleEnd (s : State) : Host.Outcome State Fault Refusal :=
  .next (if s.dieOn && s.red.settle && s.red.ownOut && !(s.red.ownIn.any id) then
    let s := if s.red.role == .standby then { s with desks := s.desks.map Desk.resume } else s
    (s.onRed fun r => { r with settle := false, switchDue := none }).setRole .active
  else s)

/-- OWN_COLLISION_BACKOFF: the wait of (256 - claim) us is over (R477). -/
def execOwnCollisionBackoff (s : State) : Host.Outcome State Fault Refusal :=
  .next (if s.dieOn && s.red.backoff then
    (if s.red.ownIn.any id || s.red.fenced then s.onRed fun r => { r with backoff := false } else s.assertOwn)
  else s)

/-- TETHER_SELF_RELEASE: no header sent for 2 ashlar periods (R468). -/
def execTetherSelfRelease (s : State) : Host.Outcome State Fault Refusal :=
  .next (if s.dieOn && s.red.mode != 0 then s.onRed fun r => { r with ownOut := false, settle := false, backoff := false } else s)

/-- FENCE_ASSERTED: both fence inputs of a triad's member (R478). -/
def execFenceAsserted (s : State) : Host.Outcome State Fault Refusal :=
  .next (if s.dieOn && s.red.mode == 2 then (s.onRed fun r => { r with fenced := true }).goStale else s)

/-- FENCE_RELEASED. -/
def execFenceReleased (s : State) : Host.Outcome State Fault Refusal :=
  .next (if s.dieOn && s.red.fenced then s.onRed fun r => { r with fenced := false } else s)

/-- PEER_LOST_TIMEOUT: no valid header for 2 ashlar periods (R468, R481). -/
def State.losePeer (s : State) (i : Nat) (p : Peer) : State :=
  let s := (s.setPeer i fun p => { p with lost := true }).peerLostEvent p.id (if p.up then 1 else 2)
  let s := s.addCtr ctrTetherLost 1
  if s.red.role == .standby && p.hdr.role == 1 then
    (if s.red.ownIn.getD i false then s.goStale else s.tryTakeover)
  else s.releaseHeld

def execPeerLostTimeout (peer : Nat) (s : State) : Host.Outcome State Fault Refusal :=
  .next (match s.peer peer with
    | some p => if s.dieOn && p.seen && !p.lost then s.losePeer peer p else s
    | none => s)

/-- ACK_TIMEOUT: an acknowledgement has missed 4 ashlars; the standby counts as STALE and responses go out (R463). -/
def execAckTimeout (peer : Nat) (s : State) : Host.Outcome State Fault Refusal :=
  .next (match s.peer peer with
    | some p =>
      if s.dieOn && s.red.role == .active && p.awaited then
        (s.setPeer peer fun p => { p with hdr := { p.hdr with ready := false, role := 3 } }).releaseHeld
      else s
    | none => s)

/-! ## The commands -/

def redInfoBody : Body := fun s _ =>
  let r := s.red
  okResp s (le 1 r.mode ++ le 1 r.role.code ++ le 1 r.claimNow ++ le 1 0 ++ le 8 s.epoch ++ le 8 (s.ctr ctrSweep) ++
    r.peers.flatMap fun p => le 2 p.id ++ le 1 p.hdr.role ++ le 1 (if p.seen && !p.lost then 1 else 0))

def opRedInfo : RuziaOp := ⟨0x0E00, .locl, false, len 0, redInfoBody⟩

/-- `red.info`. -/
def execRedInfo (f : CmdFrame) (s : State) : Host.Outcome State Fault Refusal :=
  ruzia opRedInfo f s

/-- An instance a set may not hold: a NONDET type (R113), or more than 65,536 bytes of state (R457). -/
def setForbids (s : State) (b : Block) : Bool :=
  b.package != 0 && (s.pkgType b.package b.typ).any fun t => bit t.flags 0 || t.stateBytes > 65536

/-- R457: the states in which a set may not be entered. -/
def mayJoin (s : State) (p0 p1 : Nat) : Bool :=
  s.engineId != 0 && p0 != s.engineId && p1 != s.engineId && !(s.lanes.any Lane.isUp) && s.mult 0 == 1 && s.ceiling ≤ 80 &&
  ((List.range 192).all fun c => coreCharge s c ≤ s.ceiling * 64) &&
  !(s.objs.any fun o => o.block?.any fun b => setForbids s b)

def redConfigBody : Body := fun s f => do
  let mode := u8 f 0
  let p0 := u16 f 4
  let p1 := u16 f 6
  need (mode ≤ 2) eRange 0
  need (mode == 0 || u8 f 1 != 0) eRange 1
  reserved f 2 2
  need (mode == 2 || p1 == 0) eRange 6
  if mode == 0 then
    need (!(s.red.ownOut && s.red.peers.any Peer.awaited)) eState 0
    mayDefer s f
    let s := s.defer f 0x0E01 0 none 1 0
    let s := s.onRed fun r => { Red.reset with claim := u8 f 1, ownIn := r.ownIn, role := r.role, job := some (f.desk, f.seq, 0x0E01) }
    accResp (((s.keepRed [0, u8 f 1]).setRole .single).redDone 0x0E01 0)
  else
    need (mayJoin s p0 p1) eState 0
    mayDefer s f
    let peers := if mode == 2 then [Peer.new p0, Peer.new p1] else [Peer.new p0]
    let s := s.defer f 0x0E01 0 none 1 0
    let s := s.onRed fun r => { Red.reset with mode := mode, claim := u8 f 1, peers := peers, ownIn := r.ownIn, role := r.role,
                                               job := some (f.desk, f.seq, 0x0E01) }
    accResp ((s.keepRed (mode :: u8 f 1 :: peers.map (·.id))).setRole .forming)

def opRedConfig : RuziaOp := ⟨0x0E01, .locl, true, len 8, redConfigBody⟩

/-- `red.config`; it completes when formation ends. -/
def execRedConfig (f : CmdFrame) (s : State) : Host.Outcome State Fault Refusal :=
  ruzia opRedConfig f s

/-- The boundary of a switch asked for at domain A index `i` (R485): (ashlar, late). -/
def switchAt (s : State) (l : Launch) : Nat × Bool :=
  let tick := tickFor (s.tickLen 0) 0 (s.ash 0) / 8
  if l.kind == 0 then (tick, false)
  else
    let b := ceilDiv (l.index s 0) 8
    if s.ash 0 + 2 ≤ b then (b, false) else (tick, true)

def redSwitchBody : Body := fun s f => do
  let t := u16 f 0
  reserved f 2 2
  let l ← launchAt s f 4
  need (s.red.role == .active || (t == s.engineId && s.red.role == .standby)) eState 0
  need (if s.red.role == .active then s.red.peers.any fun p => p.id == t && p.awaited else s.red.ready) eState 0
  let (b, late) := switchAt s l
  need (!(late && strictFlag f)) eLate
  okResp (s.onRed fun r => { r with switchDue := some (t, b), sendDelta := r.sendDelta ++ [TetherRec.switch t b] }) (le 8 b)

/-- A `red.switch` that its TARGET relays to the active, to be answered when the SWITCH record names its boundary (R485). -/
def relays (s : State) (f : CmdFrame) : Bool :=
  s.red.role == .standby && takeable s f && (frameCheck f).isOk && (repeated s 0x0E02 f).isNone && (clears s 0x0E02 .locl true (len 20) f).isOk &&
  (redSwitchBody s f).isOk

def opRedSwitch : RuziaOp := ⟨0x0E02, .locl, true, len 20, redSwitchBody⟩

/-- A `red.switch` is relayed in this member's next Tether frame, or run here. -/
def redSwitchState (f : CmdFrame) (s : State) : State :=
  if relays s f then
    let r := TetherRec.command s.epoch 0 0x0E02 f []
    s.onRed fun x => { x with relay := some f, sendDelta := x.sendDelta ++ [r] }
  else ruziaState opRedSwitch f s

/-- `red.switch`. -/
def execRedSwitch (f : CmdFrame) (s : State) : Host.Outcome State Fault Refusal := .next (redSwitchState f s)

/-- An ACTIVE reachable over Tether. -/
def activeSeen (s : State) : Bool := s.red.peers.any fun p => p.seen && !p.lost && p.hdr.role == 1

def redRejoinBody : Body := fun s f => do
  need (s.red.role == .stale) eState
  mayDefer s f
  let s := (s.defer f 0x0E03 0 none 1 0).onRed fun r => { r with job := some (f.desk, f.seq, 0x0E03) }
  accResp (if activeSeen s then s.beginRejoin else s.redDone 0x0E03 eState)

def opRedRejoin : RuziaOp := ⟨0x0E03, .locl, true, len 0, redRejoinBody⟩

/-- `red.rejoin`. -/
def execRedRejoin (f : CmdFrame) (s : State) : Host.Outcome State Fault Refusal :=
  ruzia opRedRejoin f s

end Sys2Proof.Machine
end

