-- ==== Sys2Proof/Machine/Blocks.lean ====
section
/-! DEFINITION. Block packages and package blocks (R99, R107-R109, R113-R117), and the block commands (R338-R340). -/
namespace Sys2Proof.Machine

/-! ## The image of a package (R114, R115, R340) -/

/-- The value fields of a parameter entry satisfy R340. -/
def PkgParam.ok (p : PkgParam) (flags : Nat) : Bool :=
  let q := p.spec
  let fin (v : Nat) : Bool := !(p.unit == 7 && fSpecial (BitVec.ofNat 32 v))
  p.id ≤ 0xFF && p.kerf ≤ 4 && p.unit ≤ 7 && (p.kerf < 3 || bit flags 3) && fin p.min && fin p.max && q.lo ≤ q.hi && q.ok p.dflt

def paramOf (bs : List Byte) : PkgParam :=
  { id := fieldAt bs 0 2, kerf := fieldAt bs 2 1, unit := fieldAt bs 3 1, min := fieldAt bs 4 4, max := fieldAt bs 8 4,
    dflt := fieldAt bs 12 4 }

/-- One descriptor of the package bytes `all` (R115), and whether its fields are in range. -/
def typeOf (all bs : List Byte) (total codeLen : Nat) : PkgType × Bool :=
  let n := fieldAt bs 6 2
  let table := fieldAt bs 40 4
  let ps := (List.range n).map fun i => paramOf (all.drop (table + 4 + 16 * i))
  let t : PkgType :=
    { typ := fieldAt bs 0 2, chIn := fieldAt bs 2 1, chOut := fieldAt bs 3 1, sideIn := fieldAt bs 4 1, flags := fieldAt bs 5 1,
      cycles := [fieldAt bs 8 4, fieldAt bs 12 4, fieldAt bs 16 4], localBytes := fieldAt bs 20 4, stateBytes := fieldAt bs 24 4,
      latency := [fieldAt bs 28 2, fieldAt bs 30 2, fieldAt bs 32 2], params := ps }
  let one (v : Nat) : Bool := 1 ≤ v && v ≤ 64
  (t, t.typ ≤ 255 && one t.chIn && one t.chOut && t.sideIn ≤ 8 && t.flags < 32 && n ≤ 256 && t.localBytes ≤ 122880 &&
    t.stateBytes ≤ t.localBytes && fieldAt bs 34 2 == 0 && fieldAt bs 36 4 < codeLen && fieldAt bs 44 20 == 0 &&
    table + 4 + 16 * n ≤ total && fieldAt all table 2 == n && fieldAt all (table + 2) 2 == 0 &&
    ps.all (fun p => p.ok t.flags) && (ps.map (·.id)).eraseDups.length == n)

/-- Check 1 of R116: the package and its MIN_FIRMWARE, none where a field is out of range. -/
def packageOf (all : List Byte) : Option (Package × Nat) :=
  let total := fieldAt all 24 4
  let count := fieldAt all 22 2
  let desc := fieldAt all 28 4
  let code := fieldAt all 32 4
  let codeLen := fieldAt all 36 4
  let id := fieldAt all 8 4
  let head := fieldAt all 0 4 == 0x474B5043 && fieldAt all 4 2 == 1 && fieldAt all 6 2 == 256 && 1 ≤ id && id ≤ 0xFFFFFFFE &&
    fieldAt all 20 1 ≤ 4 && fieldAt all 21 1 < 2 && 1 ≤ count && count ≤ 256 && total ≤ 16777216 && total ≤ all.length &&
    fieldAt all 88 72 == 0 && 256 ≤ desc && desc + 64 * count ≤ total && 256 ≤ code && code + codeLen ≤ total
  if !head then none else
  let ts := (List.range count).map fun i => typeOf all ((all.drop (desc + 64 * i)).take 64) total codeLen
  if ts.all (·.2) then
    some ({ id := id, version := fieldAt all 12 4, keySlot := fieldAt all 20 1, flags := fieldAt all 21 1, total := total,
            types := ts.map (·.1) }, fieldAt all 16 4)
  else none

/-- Key slot 0 is in the image; a customer slot must be programmed and not revoked (R116, R117). -/
def State.keyOk (s : State) (slot : Nat) : Bool :=
  slot == 0 || ((s.keySlots[slot - 1]?).any fun k => !k.key.isEmpty && !k.revoked)

/-- The first failing check of R116 with its status, or the package to keep. -/
def packageCheck (s : State) (data : List Byte) (signatureOk digestOk : Bool) : Except (Nat × Nat) Package :=
  match packageOf data with
  | none => .error (1, eRange)
  | some (p, minFirmware) =>
    if !(s.keyOk p.keySlot) then .error (2, eAuth)
    else if !(signatureOk && digestOk) then .error (3, eAuth)
    else if minFirmware > s.host.image then .error (4, eState)
    else if s.packages.any (fun q => q.id == p.id) then .error (5, eState)
    else if s.packages.length ≥ 64 || p.total > pkgFree s then .error (6, eNoResource)
    else .ok p

/-! ## The package store -/

def blockPkgLoadBody : Body := fun s f => do
  let b ← bulkAt s f 0 0 16777216
  mayDefer s f
  accResp (s.defer f 0x1102 0 (some b) 0 0)

def opBlockPkgLoad : RuziaOp := ⟨0x1102, .change, true, len 16, blockPkgLoadBody⟩

/-- `block.pkg.load`: checked once its data has arrived. -/
def execBlockPkgLoad (f : CmdFrame) (s : State) : Host.Outcome State Fault Refusal :=
  ruzia opBlockPkgLoad f s

/-- PACKAGE_CHECK_DONE: the oldest package whose data has arrived is loaded or rejected (R116). -/
def execPackageCheckDone (signatureOk digestOk : Bool) (s : State) : Host.Outcome State Fault Refusal :=
  if !s.serving then .next s else
  match s.jobs.find? fun j => j.op == 0x1102 && j.stage == 1 with
  | none => .next s
  | some j =>
    match packageCheck s j.data signatureOk digestOk with
    | .error (n, status) => .next (s.complete j 0x1102 status (le 1 n ++ le 3 0))
    | .ok p => .next (({ s with packages := s.packages ++ [p] } : State).complete j 0x1101 0 (le 4 p.id ++ le 2 p.types.length ++ le 2 0))

def blockPkgUnloadBody : Body := fun s f => do
  let id := u32 f 0
  need (s.packages.any fun p => p.id == id) eHandle 0
  need (!(s.objs.any fun o => o.block?.any fun b => b.package == id)) eState 0
  okResp { s with packages := s.packages.filter (fun p => p.id != id),
                  faults := { s.faults with damaged := s.faults.damaged.filter (· != id) } }

def opBlockPkgUnload : RuziaOp := ⟨0x1103, .change, true, len 4, blockPkgUnloadBody⟩

/-- `block.pkg.unload`. -/
def execBlockPkgUnload (f : CmdFrame) (s : State) : Host.Outcome State Fault Refusal :=
  ruzia opBlockPkgUnload f s

def blockPkgListBody : Body := fun s f => do
  reserved f 2 2
  let ps := (s.packages.drop (u16 f 0)).take 19
  okResp s (le 2 ps.length ++ le 2 0 ++
    ps.flatMap fun p => le 4 p.id ++ le 4 p.version ++ le 1 p.keySlot ++ le 1 p.flags ++ le 2 p.types.length)

def opBlockPkgList : RuziaOp := ⟨0x1104, .read, false, len 4, blockPkgListBody⟩

/-- `block.pkg.list`. -/
def execBlockPkgList (f : CmdFrame) (s : State) : Host.Outcome State Fault Refusal :=
  ruzia opBlockPkgList f s

/-- Change a key slot in use and in the OTP and flash that keep it. -/
def State.setKeySlot (s : State) (slot : Nat) (g : KeySlot → KeySlot) : State :=
  { s with keySlots := modAt s.keySlots (slot - 1) g,
           journal := { s.journal with keySlots := modAt s.journal.keySlots (slot - 1) g } }

def keySlotAt (f : CmdFrame) : Except Err Nat := do
  need (1 ≤ u8 f 0 && u8 f 0 ≤ 4) eRange 0
  reserved f 1 3
  .ok (u8 f 0)

def keyslotProgramBody : Body := fun s f => do
  let k ← keySlotAt f
  need (u8 f 4 == 4) eRange 4
  reserved f 101 3
  need ((s.keySlots[k - 1]?).all fun x => x.key.isEmpty) eState 0
  okResp (s.setKeySlot k fun x => { x with key := slice f.payload 4 97 })

def opBlockKeyslotProgram : RuziaOp := ⟨0x1105, .change, true, len 104, keyslotProgramBody⟩

/-- `block.keyslot.program`: once per slot. -/
def execBlockKeyslotProgram (f : CmdFrame) (s : State) : Host.Outcome State Fault Refusal :=
  ruzia opBlockKeyslotProgram f s

def keyslotRevokeBody : Body := fun s f => do
  let k ← keySlotAt f
  okResp (s.setKeySlot k fun x => { x with revoked := true })

def opBlockKeyslotRevoke : RuziaOp := ⟨0x1106, .change, true, len 4, keyslotRevokeBody⟩

/-- `block.keyslot.revoke`: for good; packages already loaded stay. -/
def execBlockKeyslotRevoke (f : CmdFrame) (s : State) : Host.Outcome State Fault Refusal :=
  ruzia opBlockKeyslotRevoke f s

/-! ## Compute -/

/-- A Block instance of a Strip or Bus, or of a package; the tile sets share the handle type (R167). -/
def resolveBlock (s : State) (h field : Nat) : Except Err (Obj × Block) := do
  let o ← resolve s [tBlock] h field
  match o.block? with
  | some b => .ok (o, b)
  | none => .error { status := eHandle, field := field, handle := h }

/-- Chain position of a Delay, an Insert or a hosted package block (R338). -/
def Block.place (s : State) (b : Block) : Nat :=
  let at' (id dflt : Nat) : Nat := ((s.obj b.host).bind Obj.chan?).elim 0 fun c => (valOf c.vals id dflt .object).use
  if b.package != 0 then b.position else if b.page == 8 then at' 1 0 else if b.page == 9 then at' 2 2 else 0

def blockInfoBody : Body := fun s f => do
  need (u8 f 0 ≤ 1) eRange 0
  reserved f 1 3
  if u8 f 0 == 0 then
    reserved f 4 4
    okResp s (((List.range 3).flatMap fun d =>
        let c := computeOf s d
        le 2 c.1 ++ le 2 0 ++ le 4 c.2.1 ++ le 4 c.2.2) ++
      le 2 (domCores s 3).length ++ le 2 s.ceiling)
  else
    let (o, b) ← resolveBlock s (u32 f 4) 4
    -- the type number of a library block is open
    let (t, s) := if b.package == 0 then s.drawNat else (b.typ, s)
    okResp s (o.prefixBytes s ++ le 4 b.package ++ le 2 t ++ le 1 (b.place s) ++ le 1 0 ++ le 2 b.core ++ le 2 0 ++
      le 8 (s.ctr (ctrBlock o.idx 0)) ++ le 8 (s.ctr (ctrBlock o.idx 1)))

def opBlockInfo : RuziaOp := ⟨0x1100, .read, false, len 8, blockInfoBody⟩

/-- `block.info`. -/
def execBlockInfo (f : CmdFrame) (s : State) : Host.Outcome State Fault Refusal :=
  ruzia opBlockInfo f s

def blockCeilingBody : Body := fun s f => do
  need (40 ≤ u32 f 0 && u32 f 0 ≤ 160) eRange 0
  need (s.red.mode == 0 || u32 f 0 ≤ 80) eState 0
  okResp { s with ceiling := u32 f 0 }

def opBlockCeilingSet : RuziaOp := ⟨0x1101, .change, true, len 4, blockCeilingBody⟩

/-- `block.ceiling.set`: later placements find it (R104). -/
def execBlockCeilingSet (f : CmdFrame) (s : State) : Host.Outcome State Fault Refusal :=
  ruzia opBlockCeilingSet f s

/-! ## Instances of package types (R339) -/

def Block.ofPkg (host package typ position core localBytes ins outs : Nat) : Block :=
  { Block.hosted host 0 core with package := package, typ := typ, position := position, localBytes := localBytes, chIn := ins,
                                  chOut := outs }

/-- Allocate the instance itself. -/
def State.addPkgBlock (s : State) (desk cls d w : Nat) (b : Block) : Except Err (Nat × State) :=
  match (s.tab tBlock).pick 1 1 0 131072 with
  | none => .error { status := eNoResource }
  | some i =>
    let s := s.addObj { ty := tBlock, idx := i, gen := 1, desk := desk, cls := cls, dom := d, freeing := false, job := none,
                        staged := 0, charge := w, safe := 0, epoch := s.epoch, kind := .block b }
    .ok (((s.objAt tBlock i).map Obj.handle).getD 0, s)

/-- The form with a host: its chain takes the instance at POSITION, on its own core; `chIn` keeps the side inputs. -/
def createHosted (s : State) (f : CmdFrame) (host : Obj) (c : Chan) (t : PkgType) (cls : Nat) : Except Err (State × Resp) := do
  let w := t.charge (s.mult host.dom)
  within s host.desk 8 w
  match enableRoom s host c w t.localBytes with
  | none => .error { status := eNoResource, handle := host.handle }
  | some (overs, moves) =>
    if !moves.isEmpty then
      need (deferredOk f) eBusy
      mayDefer s f
    let (h, s) ← s.addPkgBlock host.desk cls host.dom w
      (Block.ofPkg host.handle (u32 f 0) t.typ (u8 f 6) c.core t.localBytes t.sideIn t.chOut)
    let s := s.upd host.handle fun x => { x with charge := x.charge + w }
    s.seated f 0x1107 h host.dom [{ core := c.core, moves := moves, overs := overs }] (le 4 h ++ le 4 0)

/-- The standalone form: an object of the services stage of domain A, for which the command names no other. -/
def createAlone (s : State) (f : CmdFrame) (t : PkgType) (cls : Nat) : Except Err (State × Resp) := do
  let m := s.mult 0
  let w := t.charge m
  within s f.desk 8 w
  within s f.desk 4 (t.chOut * m)
  let p ← seat s f 0 { w := w, bytes := t.localBytes, rd := t.chIn * m, wr := t.chOut * m }
  let (h, s) ← s.addPkgBlock f.desk cls 0 w (Block.ofPkg 0 (u32 f 0) t.typ 0 p.core t.localBytes t.chIn t.chOut)
  let (r, s) ← allocRings (s.useCore p.core 0) f.desk cls 0 t.chOut 0 h 8 0
  let s := s.upd h fun x => x.onBlock fun b => { b with firstRing := r }
  s.seated f 0x1107 h 0 [p] (le 4 h ++ le 4 (s.ringHandle r))

def blockCreateBody : Body := fun s f => do
  let h := u32 f 8
  match s.pkgType (u32 f 0) (u16 f 4) with
  | none => .error { status := eHandle, field := 0 }
  | some t =>
    let sound := !(s.faults.damaged.contains (u32 f 0))
    if h == 0 then
      let cls ← classOf s f 7
      need (u8 f 6 == 0) eRange 6
      need sound eState 0
      need (bit t.flags 4 && t.cycles.getD (multIdx (s.mult 0)) 0 != 0) eState 0
      need (s.red.mode == 0 || !(bit t.flags 0 || t.stateBytes > 65536)) eState 0
      classPermitted s f.desk cls 7
      allocatable s 0
      createAlone s f t cls
    else
      let o ← resolve s [tStrip, tBus] h 8
      owned f o.desk h 8
      let cls ← classOf s f 7
      need (u8 f 6 ≤ 3) eRange 6
      settled o 8
      need sound eState 0
      need (bit t.flags (if o.ty == tStrip then 1 else 2) && t.cycles.getD (multIdx (s.mult o.dom)) 0 != 0) eState 0
      need (s.red.mode == 0 || !(bit t.flags 0 || t.stateBytes > 65536)) eState 0
      classPermitted s o.desk cls 7
      allocatable s o.dom
      match o.chan? with
      | some c => createHosted s f o c t cls
      | none => .error { status := eHandle, field := 8, handle := h }

def opBlockCreate : RuziaOp := ⟨0x1107, .change, false, len 12, blockCreateBody⟩

/-- `block.create`. -/
def execBlockCreate (f : CmdFrame) (s : State) : Host.Outcome State Fault Refusal :=
  ruzia opBlockCreate f s

/-- Only an instance of a package type is freed by itself; library blocks and tile sets have their own commands. -/
def pkgBlockOnly (_s : State) (o : Obj) : Except Err Unit := need (o.block?.any fun b => b.package != 0) eState 0 o.handle

def opBlockFree : RuziaOp := ⟨0x1108, .change, false, len 8, freeBody [tBlock] pkgBlockOnly noBefore⟩

/-- `block.free`. -/
def execBlockFree (f : CmdFrame) (s : State) : Host.Outcome State Fault Refusal :=
  ruzia opBlockFree f s

def blockWrite : ParamWrite := plainWrite 0x1109 blockSpec 0

def opBlockParamSet : RuziaOp := ⟨0x1109, .change, false, paramLen, paramSetBody 0x1109 [tBlock] blockWrite⟩

/-- `block.param.set`: the identifiers are those of the type's parameter table; a library block has none of its own. -/
def execBlockParamSet (f : CmdFrame) (s : State) : Host.Outcome State Fault Refusal :=
  ruzia opBlockParamSet f s

def opBlockParamGet : RuziaOp := ⟨0x110A, .read, false, getLen, paramGetBody [tBlock] blockSpec plainUse⟩

/-- `block.param.get`. -/
def execBlockParamGet (f : CmdFrame) (s : State) : Host.Outcome State Fault Refusal :=
  ruzia opBlockParamGet f s

/-! ## Overruns and traps (R108, R109) -/

/-- An event limited to one in 1,000 ticks may be raised again. -/
def State.mayTell (s : State) (kind unit tick : Nat) : Bool :=
  (s.faults.lastEvent.find? fun p => p.1 == kind && p.2.1 == unit).all fun p => p.2.2 + 1000 ≤ tick

def State.told (s : State) (kind unit tick : Nat) : State :=
  { s with faults := { s.faults with
      lastEvent := (kind, unit, tick) :: s.faults.lastEvent.filter fun p => !(p.1 == kind && p.2.1 == unit) } }

/-- Put an instance into permanent bypass and report why. -/
def State.disableBlock (s : State) (o : Obj) (cause : Nat) : State :=
  (s.upd o.handle fun x => x.onBlock fun b => { b with bypass := true }).raiseObj o.desk 0x1104 (le 4 o.handle ++ le 1 cause ++ le 3 0)

/-- A package instance reached its bound in the domain's tick `k`: counted, reported once in 1,000 ticks, and the third within
1,000 disables it (R108). -/
def State.blockOverrun (s : State) (o : Obj) (b : Block) (k : Nat) : State :=
  let s := s.addCtr (ctrBlock o.idx 0) 1
  let recent := b.overTicks.filter fun t => k < t + 1000
  let s := if s.mayTell 0x1103 o.idx k then
      (s.told 0x1103 o.idx k).raiseObj o.desk 0x1103 (le 4 o.handle ++ le 2 b.core ++ le 2 0 ++ le 8 (s.ctr (ctrBlock o.idx 0)))
    else s
  let s := s.upd o.handle fun x => x.onBlock fun b => { b with overTicks := k :: recent }
  if recent.length ≥ 2 then s.disableBlock o 1 else s

/-- A package instance left its windows at an address: stopped as an overrun, and bypassed (R109). -/
def State.blockTrap (s : State) (o : Obj) (b : Block) (k addr : Nat) : State :=
  ((s.blockOverrun o b k).raiseObj o.desk 0x1105 (le 4 o.handle ++ le 4 addr)).disableBlock o 2

end Sys2Proof.Machine
end

