-- ==== Sys2Proof/Machine/Integrity.lean ====
section
/-! DEFINITION. Faults: records, classification and outcomes (R486-R496, R505), the breaking of guarantees for a failed core
(R353-R358), and the control halt (R504). -/
namespace Sys2Proof.Machine

def State.onFaults (s : State) (f : Faults → Faults) : State := { s with faults := f s.faults }

def State.onHost (s : State) (f : HostRegs → HostRegs) : State := { s with host := f s.host }

/-- MAILBOX_FAULT for a desk; kind 1 at most once in 1,000 domain A ticks (R283, R289). -/
def State.mailboxFault (s : State) (d kind : Nat) : State :=
  let k := s.tickOf 0
  if kind == 1 && (s.desk d).faultTick.any (fun t => k < t + 1000) then s else
  let s := if kind == 1 then s.setDesk d fun x => { x with faultTick := some k } else s
  s.raise [d, 0] 0x0203 (le 2 d ++ le 2 kind ++ le 4 (s.desk d).protoErrCount)

/-- SPARE_POOL_EMPTY (R503). -/
def State.poolEmpty (s : State) (kind : Nat) : State := s.raise0 0x100A (le 1 kind ++ le 3 0)

/-! ## The control halt (R504) -/

/-- What an object loses in a control halt: tick writes and twins not yet started, Sieve twins apart. -/
def Obj.haltDrop (now : Nat) (o : Obj) : Obj :=
  let p := o.params
  let o := o.setParams { p with pend := p.pend.filter (fun c => !c.tick), twins := p.twins.filter fun t => t.page == 1 || t.first ≤ now }
  match o.kind with
  | .group g => { o with kind := .group { g with pend := [] } }
  | _ => o

/-- The control processor stops: MAGIC reads zero, vector 20 is sent, and what only firmware holds is dropped. -/
def State.controlHalt (s : State) : State :=
  if s.halted then s else
  let s := (s.write (mailboxBase + 0x19800) [0, 0, 0, 0]).onHost fun h => { h with irqStatus := h.irqStatus ||| 4 }
  let s : State := { s with halted := true, recalls := s.recalls.filter (·.planned), jobs := [], host := { s.host with restart := none },
                            objs := s.objs.map fun o => o.haltDrop (s.idx (if o.dom ≤ 2 then o.dom else 0)) }
  if s.host.haltIrqEn then s.irq 20 else s

/-- LOCKSTEP_MISMATCH. -/
def execLockstepMismatch (s : State) : Host.Outcome State Fault Refusal :=
  if s.dieOn then .next s.controlHalt else .next s

/-! ## Records (R336, R505) -/

/-- Record a fault of a severity (1 transient, 2 lasting, 3 uncorrected) against a unit, and report it. -/
def State.faultRecord (s : State) (kind sev unit addr : Nat) : State :=
  let n := ((s.faults.counts.find? fun c => c.1 == kind && c.2.1 == unit).elim 0 (·.2.2)) + 1
  let tick := s.tickOf 0
  let r : FaultRec := { kind := kind, severity := sev, unit := unit, address := addr, ashlar := s.now, count := n }
  let tell := sev != 1 || s.mayTell kind unit tick
  let s := s.onFaults fun x => { x with
    counts := (kind, unit, n) :: x.counts.filter (fun c => !(c.1 == kind && c.2.1 == unit))
    log := (if x.log.length ≥ 4096 then x.log.drop 1 else x.log) ++ [r]
    total := x.total + 1 }
  let s := (s.addCtr ctrFaultRecords 1).addCtr (if sev == 1 then ctrFaultTransient else if sev == 2 then ctrFaultLasting
    else ctrFaultUncorrected) 1
  let s : State := if sev == 1 then s else
    let rec' := [kind, sev, unit, addr, n]
    let l := s.journal.faultLog
    { s with journal := { s.journal with faultLog := (if l.length ≥ 256 then l.drop 1 else l) ++ [rec'] } }
  if tell then
    (if sev == 1 then s.told kind unit tick else s).raise0 (0x0F00 + sev) (le 1 kind ++ le 1 0 ++ le 2 unit ++ le 4 addr ++ le 8 n)
  else s

/-- Keep a lasting fault over restarts (R503). -/
def State.keepFailed (s : State) (kind unit : Nat) : State :=
  { s with journal := { s.journal with failedUnits := (kind, unit) :: s.journal.failedUnits.filter (· != (kind, unit)) } }

/-! ## Breaking compute guarantees (R353-R358) -/

/-- Room the removal or reduction of an item frees, and its stage in R354; none for what never yields. -/
def yieldStage (s : State) (o : Obj) : Option Nat :=
  match o.kind with
  | .block b =>
    if b.package == 0 || b.removed || o.freeing then none
    else if (s.packages.find? fun p => p.id == b.package).any fun p => p.keySlot != 0 then some 1 else some 2
  | .meter m => if m.loud then none else if m.refresh == 0 then some 3 else if m.refresh == 1 then some 4 else none
  | _ => none

def yieldRoom (o : Obj) : Nat := match o.kind with | .meter _ => o.charge / 2 | _ => o.charge

/-- The room lies on a core of the domain, or leaves its core unassigned. -/
def yieldsThere (s : State) (d : Nat) (o : Obj) : Bool :=
  o.dom == d || (coreOf o).any fun c => coreLoad s c == o.charge

/-- Yielding items that a test admits: class 3 first, then by stage, the newest grant first. -/
def yieldSort (s : State) (p : Obj → Bool) : List Obj :=
  (s.objs.filter fun o => (yieldStage s o).isSome && p o).inOrder fun a b =>
    a.cls > b.cls || (a.cls == b.cls && ((yieldStage s a).getD 9 < (yieldStage s b).getD 9 ||
      ((yieldStage s a) == (yieldStage s b) && a.epoch ≥ b.epoch)))

def yieldOrder (s : State) (d : Nat) : List Obj := yieldSort s (yieldsThere s d)

/-- One item yields, to a keeper or to the limit of R502. -/
def State.yieldItem (s : State) (keeper : Option Obj) (o : Obj) : State :=
  match o.kind with
  | .meter m =>
    let s := s.upd o.handle fun x => { (x.onMeter fun m => { m with refresh := m.refresh + 1 }) with charge := x.charge - x.charge / 2 }
    (s.onFaults fun x => { x with reduced := o.handle :: x.reduced }).guaranteeBroken 2 3 keeper (some { o with
      kind := .meter m })
  | _ =>
    let s := s.upd o.handle fun x => x.onBlock fun b => { b with removed := true, retire := some (s.ash o.dom + 61) }
    s.guaranteeBroken 2 2 keeper (some o)

/-- Take items until the keepers fit; answers the room freed. -/
def breakItems (keepers : List Obj) : List Obj → Nat → State → Nat × State
  | [], freed, s => (freed, s)
  | o :: os, freed, s =>
    let ks := keepers.filter fun k => k.cls < o.cls
    match ks with
    | [] => (freed, s)
    | k :: _ =>
      if freed ≥ sumNat (ks.map (·.charge)) then breakItems keepers os freed s
      else breakItems keepers os (freed + yieldRoom o) (s.yieldItem (some k) o)

/-- Keepers that the room freed does not reach stay on the failed core; their desks are told, the action left open (R355). -/
def State.stranded (s : State) : List Obj → Nat → State
  | [], _ => s
  | k :: ks, room =>
    if k.charge ≤ room then s.stranded ks (room - k.charge)
    else
      let (a, s) := s.drawNat
      (s.guaranteeBroken 2 (a % 256) (some k) none).stranded ks 0

/-- Break guarantees of a domain for keepers without room (R354, R355); a standby may not (R462). -/
def State.breakCompute (s : State) (d : Nat) (keepers : List Obj) : State :=
  if keepers.isEmpty then s else
  let s := if s.red.role == .standby then s.goStale else s
  let r := breakItems keepers (yieldOrder s d) 0 s
  r.2.stranded keepers r.1

/-- Removed blocks whose fade has ended give their charge back and stay disabled (R354). -/
def State.retireRemoved (s : State) (d : Nat) : State :=
  let gone := s.objs.filter fun o => o.dom == d && o.block?.any fun b => b.removed && b.retire.any fun a => a ≤ s.ash d
  gone.foldl (fun s o =>
    let host := (o.block?.map (·.host)).getD 0
    let s := if host == 0 then s else s.upd host fun x => { x with charge := x.charge - o.charge }
    (((s.upd o.handle fun x => { (x.onBlock fun b => { b with retire := none }) with charge := 0 }).releaseCores).clearQuota o.desk)) s

/-- A reduced Meter returns towards FULL where its cores have the room, the last reduced first (R358). -/
def State.restoreMeter (s : State) : State :=
  match s.faults.reduced with
  | [] => s
  | h :: hs =>
    match s.obj h with
    | none => s.onFaults fun x => { x with reduced := hs }
    | some o =>
      match o.meter? with
      | none => s.onFaults fun x => { x with reduced := hs }
      | some m =>
        if m.refresh == 0 then s.onFaults fun x => { x with reduced := hs }
        else if s.faults.waiting.isEmpty && evacuating s o.dom == 0 &&
            m.cores.all (fun c => coreLoad s c + coreShare c o ≤ 160 * 64) then
          (s.upd h fun x => { (x.onMeter fun m => { m with refresh := m.refresh - 1 }) with charge := x.charge * 2 }).onFaults fun x =>
            { x with reduced := hs }
        else s

/-! ## Failed cores (R120, R122) -/

/-- The reserve that comes in for a core: its own cluster's first, then the lowest cluster's (R120). -/
def reserveFor (s : State) (c : Nat) : Option Nat :=
  let rs := (List.range 192).filter fun r => (s.core r).reserve
  match rs.find? fun r => r / 16 == c / 16 with
  | some r => some r
  | none => rs.head?

def reservesLeft (s : State) : Nat := (s.cores.filter (·.reserve)).length

/-- Take a reserve into a domain (3: the allocatable set). -/
def State.takeReserve (s : State) (r d : Nat) : State :=
  let s := s.setCore r fun k => { k with reserve := false, dom := d }
  if reservesLeft s == 0 then s.poolEmpty 1 else s

/-- Objects that stand on a core and are not on their way elsewhere, bedrock first, then by handle (R122). -/
def onFailed (s : State) (c : Nat) : List Obj :=
  (s.objs.filter fun o => standing c o > 0 && !hostedBlock o && !(s.moves.any fun m => m.source == c && m.objs.contains o.handle)).inOrder
    fun a b => a.cls < b.cls || (a.cls == b.cls && a.handle ≤ b.handle)

/-- Start one transplant per object that finds room within 160 WU, `limit` at once in the engine; the others are answered. -/
def evacuateAll (c d limit : Nat) : List Obj → State → List Obj × State
  | [], s => ([], s)
  | o :: os, s =>
    if s.moves.length ≥ limit then (o :: os, s) else
    let fits (k : Nat) : Bool := k != c && coreFits s k { moveNeed s c k o with w := coreShare c o } 160
    let to_ := match bestCore s ((domCores s d).filter fits) with
      | some k => some k
      | none => bestCore s ((domCores s 3).filter fits)
    match to_ with
    | none =>
      let r := evacuateAll c d limit os s
      (o :: r.1, r.2)
    | some k => evacuateAll c d limit os
        { s.useCore k d with moves := s.moves ++ [{ source := c, target := k, objs := [o.handle], dom := d, slot := s.ash d + 1,
                                                    retried := false, spare := true }] }

/-- Go on moving the instances of a failed core (R122); it is fused off when none is left. -/
def State.evacuate (s : State) (c : Nat) : State :=
  let d := (s.core c).dom
  let r := evacuateAll c d 64 (onFailed s c) s
  let s := r.2
  if r.1.isEmpty && !(s.moves.any fun m => m.source == c) then
    (s.setCore c fun k => { k with fused := true, dom := 3 }).onFaults fun x => { x with waiting := x.waiting.filter (· != (1, c)) }
  else s

/-- What a lasting fault of a core brings about. -/
def State.coreFailed (s : State) (c : Nat) : State :=
  let k := s.core c
  if k.reserve then
    let s := s.setCore c fun k => { k with reserve := false, fused := true }
    if reservesLeft s == 0 then s.poolEmpty 1 else s
  else if k.dom == 3 then
    let s := s.setCore c fun k => { k with fused := true }
    match reserveFor s c with
    | some r => s.takeReserve r 3
    | none => s
  else match reserveFor s c with
    | some r =>
      let t : Transplant := { source := c, target := r, objs := (onFailed s c).map Obj.handle, dom := k.dom, slot := s.ash k.dom + 1,
                              retried := false, spare := true }
      let s := s.takeReserve r k.dom
      { s with moves := s.moves ++ [t] }
    | none =>
      let s := s.onFaults fun x => { x with waiting := x.waiting ++ [(1, c)] }
      let unfit := (evacuateAll c k.dom 100000 (onFailed s c) s).1
      (s.breakCompute k.dom unfit).evacuate c

end Sys2Proof.Machine
end

