-- ==== Sys2Proof/Machine/Spares.lean ====
section
/-! DEFINITION. Spares: banks, arrays, DRAM rows (R88, R89, R192-R194, R497-R501), transplants (R118-R122), what a memory error
brings about (R488-R491), and the fault and spare commands (R336, R337). -/
namespace Sys2Proof.Machine

/-! ## Banks and arrays -/

def spares (s : State) (kind : Nat) : List Nat := if kind == 2 then s.faults.spareArrays else s.faults.spareBanks

def State.setSpares (s : State) (kind : Nat) (l : List Nat) : State :=
  s.onFaults fun x => if kind == 2 then { x with spareArrays := l } else { x with spareBanks := l }

/-- Cells of a range moved to another base; what stood there is gone. -/
def copyCells (m : List Host.Cell) (src dst n : Nat) : List Host.Cell :=
  let rest := m.filter fun c => !(dst ≤ c.1 && c.1 < dst + n)
  (m.filter fun c => src ≤ c.1 && c.1 < src + n).foldl (fun m c => memWrite m (c.1 - src + dst) c.2) rest

/-- A bank's rows and tags go to another bank, and every ring with them (R88). -/
def State.swapBank (s : State) (old new : Nat) : State :=
  let place (p : Nat × Nat) : Nat × Nat := if p.1 == old then (new, p.2) else p
  let mem := copyCells (copyCells s.mem (rowAddr old 0) (rowAddr new 0) 0x40000) (tagAddr old 0) (tagAddr new 0) 0x10000
  ({ s with mem := mem, objs := s.objs.map fun o => o.onRing fun r => { r with rows := r.rows.map place } } : State).onFaults fun x =>
    { x with bankMap := x.bankMap.map (fun b => if b == old then new else b)
             moving := x.moving.map fun m => if m.2.2.1 == old then (m.1, m.2.1, new, m.2.2.2) else m }

/-- A unit of kind 2 or 3 is replaced in its map. -/
def State.swapUnit (s : State) (kind old new : Nat) : State :=
  if kind == 2 then s.onFaults fun x => { x with arrayMap := x.arrayMap.map fun a => if a == old then new else a }
  else s.swapBank old new

/-- ARRAY_SPARED or BANK_SPARED, with the spares left. -/
def State.spared (s : State) (kind failed spare : Nat) : State :=
  s.raise0 (if kind == 2 then 0x1002 else 0x1003) (le 1 failed ++ le 1 spare ++ le 1 (spares s kind).length ++ le 1 0)

/-- Start a swap of a spare for a unit; the spare leaves its pool. -/
def State.startSwap (s : State) (kind failed spare : Nat) (test : Bool) : State :=
  let s := s.setSpares kind ((spares s kind).filter (· != spare))
  let s := s.onFaults fun x => { x with work := x.work ++ [{ kind := kind, failed := failed, spare := spare, since := s.now, test := test }] }
  if (spares s kind).isEmpty then s.poolEmpty kind else s

/-- Rings with a row on a bank, bedrock first, then by handle (R89). -/
def ringsOnBank (s : State) (b : Nat) : List (Obj × Ring) :=
  ((s.objs.filterMap fun o => o.ring?.map fun r => (o, r)).filter fun p => p.2.rows.any fun q => q.1 == b).inOrder fun x y =>
    x.1.cls < y.1.cls || (x.1.cls == y.1.cls && x.1.handle ≤ y.1.handle)

/-- The ring that yields a healthy row to a keeper: the highest class, then the newest grant (R351). -/
def yieldingRing (s : State) (keeper : Obj) (b : Nat) : Option (Obj × Nat × (Nat × Nat)) :=
  let rs := (s.objs.filterMap fun o => o.ring?.map fun r => (o, r)).filter fun p =>
    (p.1.cls > keeper.cls || (p.1.cls == keeper.cls && p.1.epoch > keeper.epoch)) && !(p.2.rows.any fun q => q.1 == b)
  ((rs.inOrder fun x y => x.1.cls > y.1.cls || (x.1.cls == y.1.cls && x.1.epoch ≥ y.1.epoch)).head?).bind fun p =>
    (p.2.rows.zipIdx.find? fun q => !(s.badBank q.1.1)).map fun q => (p.1, q.2, q.1)

/-- Two ring rows exchange their places and contents (R353). -/
def State.exchangeRows (s : State) (i pi j pj : Nat) (a b : Nat × Nat) : State :=
  let da := s.read (rowAddr a.1 a.2) 256
  let ta := s.read (tagAddr a.1 a.2) 64
  let s := (s.write (rowAddr a.1 a.2) (s.read (rowAddr b.1 b.2) 256)).write (tagAddr a.1 a.2) (s.read (tagAddr b.1 b.2) 64)
  let s := (s.write (rowAddr b.1 b.2) da).write (tagAddr b.1 b.2) ta
  let s := s.modObj tRing i fun o => o.onRing fun r => { r with rows := modAt r.rows pi fun _ => b }
  let s := s.modObj tRing j fun o => o.onRing fun r => { r with rows := modAt r.rows pj fun _ => a }
  (s.ringMoved i a.1 b).ringMoved j b.1 a

/-- One row leaves a failing bank: relocated to a free row, or exchanged with a yielding ring's. -/
def State.rescueRow (s : State) (b : Nat) (o : Obj) (part : Nat) (p : Nat × Nat) : State :=
  let rows := (o.ring?.map fun r => r.rows.map (·.1)).getD []
  match findRoom s (b :: rows) 65536 0 with
  | some dst => s.onFaults fun x => { x with moving := x.moving ++ [(o.idx, part, dst.1, dst.2)] }
  | none => match yieldingRing s o b with
    | some v => (s.exchangeRows o.idx part v.1.idx v.2.1 p v.2.2).guaranteeBroken 5 5 (some o) (some v.1)
    | none => s

/-- A bank with a lasting fault and no spare: its rows leave it (R89). -/
def State.emptyBank (s : State) (b : Nat) : State :=
  (ringsOnBank s b).foldl (fun s x =>
    (x.2.rows.zipIdx.filter fun q => q.1.1 == b).foldl (fun s q =>
      match s.objAt tRing x.1.idx with
      | some o => s.rescueRow b o q.2 q.1
      | none => s) s) s

/-- RELOCATION_SWITCH: a relocated row's copy has ended (R87). -/
def execRelocationSwitch (ring part bank row : Nat) (s : State) : Host.Outcome State Fault Refusal :=
  if !s.dieOn || !(s.faults.moving.contains (ring, part, bank, row)) then .next s else
  let old := ((s.ringAt ring).bind fun p => p.2.rows[part]?).getD (0, 0)
  let s := s.onFaults fun x => { x with moving := x.moving.filter (· != (ring, part, bank, row)) }
  match s.ringAt ring with
  | some _ => .next ((s.moveRow ring part (bank, row)).ringMoved ring old.1 (bank, row))
  | none => .next s

/-! ## Tiles without a spare array (R194) -/

def setsOnArray (s : State) (a : Nat) : List (Obj × Tiles) :=
  ((s.objs.filterMap fun o => o.tiles?.map fun t => (o, t)).filter fun p => p.2.tiles.contains a).inOrder fun x y =>
    x.1.cls < y.1.cls || (x.1.cls == y.1.cls && x.1.handle ≤ y.1.handle)

/-- The tiles of one set leave logical array `a` for free slots, as far as there are any. -/
def State.moveTiles (s : State) (a : Nat) (o : Obj) (t : Tiles) : State :=
  let m := s.heldMult o.dom
  let n := (t.tiles.filter (· == a)).length
  let to_ := giveTiles m ((freeSlots s).filter fun p => p.1 != a) n
  let tiles := (t.tiles.foldl (fun (p : List Nat × List Nat) x =>
    match p.2 with
    | y :: ys => if x == a then (p.1 ++ [y], ys) else (p.1 ++ [x], p.2)
    | [] => (p.1 ++ [x], [])) ([], to_)).1
  let s := s.upd o.handle fun x => x.onTiles fun t => { t with tiles := tiles }
  to_.eraseDups.foldl (fun s k => s.raiseObj o.desk 0x0503 (le 4 o.handle ++ le 2 (to_.filter (· == k)).length ++
    le 1 (s.faults.arrayMap.getD a 0) ++ le 1 (s.faults.arrayMap.getD k 0))) s

/-- A tile set gives up its slots: its nodes ramp to −∞ over 480 samples and the set is released (R194, R353). -/
def State.yieldTiles (s : State) (keeper o : Obj) : State :=
  let s := if s.red.role == .standby then s.goStale else s
  let s := s.upd o.handle fun x => x.onTiles fun t =>
    { t with pend := [], nodes := t.nodes.map (fun n => n.aim minusInf n.pan 480), release := some (s.ash o.dom + 61) }
  let s := (s.startFree o).2
  s.guaranteeBroken 4 5 (some keeper) (some o)

/-- Sets of lower standing yield until a keeper's tiles would fit. -/
def yieldSets (a : Nat) (keeper : Obj) (need' : Nat) : List (Obj × Tiles) → Nat → State → State
  | [], _, s => s
  | v :: vs, got, s =>
    if got ≥ need' then s
    else yieldSets a keeper need' vs (got + s.heldMult v.1.dom * (v.2.tiles.filter (· != a)).length) (s.yieldTiles keeper v.1)

/-- An array with a lasting fault and no spare: its tiles leave it as slots allow; `yield` lets others give up theirs. -/
def State.emptyArray (s : State) (a : Nat) (yield : Bool) : State :=
  let s := (setsOnArray s a).foldl (fun s x => s.moveTiles a x.1 x.2) s
  if !yield then s else
  (setsOnArray s a).foldl (fun s x =>
    let overs := (setsOnArray s a).map fun y => y.1.handle
    let vs := ((s.objs.filterMap fun o => o.tiles?.map fun t => (o, t)).filter fun p => !p.1.freeing && p.2.tiles.any (· != a) &&
      (p.1.cls > x.1.cls || (p.1.cls == x.1.cls && p.1.epoch > x.1.epoch && !(overs.contains p.1.handle)))).inOrder fun p q =>
        p.1.cls > q.1.cls || (p.1.cls == q.1.cls && p.1.epoch ≥ q.1.epoch)
    yieldSets a x.1 (s.heldMult x.1.dom * (x.2.tiles.filter (· == a)).length) vs 0 s) s

/-! ## Lasting faults (R489, R490, R500) -/

/-- The logical place of a physical bank or array in service. -/
def placeOf (s : State) (kind unit : Nat) : Option Nat :=
  (if kind == 2 then s.faults.arrayMap else s.faults.bankMap).findIdx? fun x => x == unit

/-- Bring a spare in for a unit of kind 2 or 3, or make do without one. -/
def State.bringIn (s : State) (kind unit : Nat) : State :=
  if s.faults.work.any fun w => w.kind == kind then s.onFaults fun x => { x with waiting := x.waiting ++ [(kind, unit)] } else
  match spares s kind with
  | spare :: _ => s.startSwap kind unit spare false
  | [] =>
    if kind == 3 then s.emptyBank unit
    else match placeOf s 2 unit with
      | some a => (s.onFaults fun x => { x with waiting := x.waiting ++ [(kind, unit)] }).emptyArray a true
      | none => s

/-- End a test with a pass mark, or with a status and no further field. -/
def State.testDone (s : State) (order status : Nat) (rest : List Byte) : State :=
  match s.jobs.find? fun j => j.order == order with
  | some j => s.done j status rest
  | none => s

def passBytes (pass : Bool) : List Byte := le 1 (if pass then 1 else 0) ++ le 3 0

/-- The unit under test has failed: its spare stays in its place (R499, R500). -/
def State.testFailed (s : State) (kind unit spare order : Nat) : State :=
  let s := s.onFaults fun x => { x with tests := x.tests.filter fun t => !(t.1 == kind),
                                        work := x.work.filter fun w => !(w.kind == kind && w.test) }
  ((s.keepFailed kind unit).testDone order 0 (passBytes false)).spared kind unit spare

/-- A lasting fault of a bank or an array, wherever it stands. -/
def State.unitFailed (s : State) (kind unit : Nat) : State :=
  let s := s.keepFailed kind unit
  if (spares s kind).contains unit then
    let s := s.setSpares kind ((spares s kind).filter (· != unit))
    if (spares s kind).isEmpty then s.poolEmpty kind else s
  else match s.faults.work.find? fun w => w.kind == kind && w.spare == unit && !w.test with
    | some w => (s.onFaults fun x => { x with work := x.work.filter (· != w) }).bringIn kind w.failed
    | none =>
      match s.faults.tests.find? fun t => t.1 == kind && t.2.1 == unit with
      | some t =>
        -- still in place if the swap has not been made: then it needs the spare for good
        let s := if (placeOf s kind unit).isSome then s.swapUnit kind unit t.2.2.1 else s
        s.testFailed kind unit t.2.2.1 t.2.2.2
      | none =>
        match s.faults.tests.find? fun t => t.1 == kind && (spares s kind).isEmpty with
        | some t =>
          -- the only free spare stands in for a test: the unit under test becomes the spare
          let s := if (placeOf s kind t.2.1).isSome then s.swapUnit kind t.2.1 t.2.2.1 else s
          let s := s.onFaults fun x => { x with tests := x.tests.filter (· != t), work := x.work.filter fun w => !(w.kind == kind && w.test) }
          ((s.testDone t.2.2.2 eBusy []).setSpares kind [t.2.1]).bringIn kind unit
        | none => if (placeOf s kind unit).isSome then s.bringIn kind unit else s

/-- A DRAM row becomes lasting: shadowed while shadow rows last (R501). -/
def State.rowFailed (s : State) (bank addr : Nat) : State :=
  if s.faults.shadow.contains (bank, addr) then s
  else if s.faults.shadow.length ≥ 64 then s.poolEmpty 4
  else
    let s := s.onFaults fun x => { x with shadow := x.shadow ++ [(bank, addr)] }
    let s : State := { s with journal := { s.journal with shadowed := s.journal.shadowed ++ [(bank, addr)] } }
    s.raise0 0x1004 (le 2 bank ++ le 2 (s.faults.rowsLeft.getD bank 0) ++ le 4 addr)

/-- A fault of a unit is lasting (R489): recorded every time, acted on once. -/
def State.lasting (s : State) (kind unit addr : Nat) : State :=
  let s := s.faultRecord kind 2 unit addr
  if kind == 4 then s.rowFailed unit addr
  else if s.faults.lasting.contains (kind, unit) || s.halted then s
  else
    let s := s.onFaults fun x => { x with lasting := x.lasting ++ [(kind, unit)] }
    match kind with
    | 1 => (s.keepFailed 1 unit).coreFailed unit
    | 2 => s.unitFailed 2 unit
    | 3 => s.unitFailed 3 unit
    | 7 => (s.keepFailed 7 unit).onFaults fun x => { x with pagesRetired := x.pagesRetired ++ [unit] }
    | _ => s

/-- A transient fault: lasting if the word gave one within 1,000 ticks or the unit 32 within 3,600,000 (R489). -/
def State.transient (s : State) (kind unit addr : Nat) : State :=
  let s := s.faultRecord kind 1 unit addr
  let k := s.tickOf 0
  let near := s.faults.transients.filter fun t => t.kind == kind && t.unit == unit && k < t.tick + 3600000
  let s := s.onFaults fun x => { x with
    transients := { kind := kind, unit := unit, address := addr, tick := k } :: x.transients.filter fun t => k < t.tick + 3600000 }
  if near.length ≥ 31 || near.any (fun t => t.address == addr && k < t.tick + 1000) then s.lasting kind unit addr else s

/-! ## Outcomes (R491) -/

/-- A word of a deep body, a delay line or a capture reads as 0.0 and is rewritten so; `sub` is channel × 2^32 + place. -/
def zeroAt (ws : List Word) (i : Nat) : List Word := modAt ws i fun _ => 0#32

def Obj.zeroWord (o : Obj) (sub : Nat) : Obj :=
  let ch := sub / 2 ^ 32
  let i := sub % 2 ^ 32
  match o.kind with
  | .ring r => { o with kind := .ring { r with body := r.body.map fun b => if b.1 == i / 8 then (b.1, b.2.1, zeroAt b.2.2 (i % 8)) else b } }
  | .chan c => { o with kind := .chan { c with chans := modAt c.chans ch fun x => { x with line := zeroAt x.line i } } }
  | .capture c => { o with kind := .capture { c with record := c.record.map fun p => if p.1 % 2 ^ 32 == i then (p.1, zeroAt p.2 ch) else p } }
  | _ => o

/-- A node or row record is lost: the node comes back from 0.0 to its target, the row factor is formed anew (R193). -/
def State.nodeLost (s : State) (h row col : Nat) : State :=
  match s.obj h with
  | none => s
  | some o =>
    let s := s.upd h fun x => x.onTiles fun t =>
      if col == 0xFFFF then
        let f := rowFactor s o.dom h row
        { t with rowRecs := { row := row, ramp := GainRec.start f 0#32 480 } :: t.rowRecs.filter fun r => r.row != row }
      else
        { t with nodes := t.nodes.map fun n =>
            if n.row == row && n.col == col then { n with ramp := GainRec.start n.ramp.gainEnd 0#32 480 } else n }
    s.raiseObj o.desk 0x1009 (le 4 h ++ le 2 row ++ le 2 col)

/-- A ring sample is rewritten as 0.0, and its ashlar's check is formed anew, so that later reads find no second failure (R491, R496). -/
def State.zeroSample (s : State) (bank address : Nat) : State :=
  let s := s.write (rowAddr bank 0 + address) (le 4 0)
  let pos := address / 32
  s.write (tagAddr bank 0 + 8 * pos + 4) (le 2 (crc16 (s.read (rowAddr bank 0 + 32 * pos) 32)))

/-- What becomes of a word that cannot be corrected; a member of a set whose state it changes leaves it (R462). -/
def State.uncorrected (s : State) (e : MemError) : State :=
  let s := if [0, 1, 2, 3, 8].contains e.content then s.leaveSet else s
  match e.content with
  | 0 => s.zeroSample e.unit e.address
  | 1 => s.write (tagAddr e.unit 0 + e.address) (le 8 0)
  | 2 => s.nodeLost e.obj (e.sub / 65536) (e.sub % 65536)
  | 4 => s.onFaults fun x => { x with skip := (e.obj, s.ash (((s.obj e.obj).map (·.dom)).getD 0)) :: x.skip }
  | 5 => s.controlHalt
  | 6 => (s.setDesk e.obj fun k => { k with protoErrCount := min (k.protoErrCount + 1) 0xFFFFFFFF }).mailboxFault e.obj 2
  | 8 => s.upd e.obj fun o => o.zeroWord e.sub
  | 10 => s.onFaults fun x => { x with damaged := (e.obj :: x.damaged).eraseDups }
  | 11 => if e.sub == 1 then s.controlHalt else s
  | _ => s

/-- An overrun of an instance: its ashlar passes the input through; a library block's is an error of its core, lasting at the
second within 1,000 ticks (R108). -/
def State.overrun (s : State) (e : MemError) (trap : Bool) : State :=
  match s.obj e.obj with
  | none => s
  | some o =>
    match o.block? with
    | none => s
    | some b =>
      let k := s.tickOf o.dom
      let s := s.onFaults fun x => { x with skip := (e.obj, s.ash o.dom) :: x.skip }
      if b.package != 0 then (if trap then s.blockTrap o b k e.address else s.blockOverrun o b k)
      else
        let s := s.blockOverrun o { b with overTicks := [] } k
        let c := b.core
        let recent := (s.core c).errTicks.filter fun t => s.tickOf 0 < t + 1000
        let s := s.setCore c fun x => { x with errTicks := s.tickOf 0 :: recent }
        if recent.isEmpty then s else s.lasting 1 c 0

/-- One error the hardware has found (R488, R489, R491). -/
def State.memError (s : State) (e : MemError) : State :=
  if e.content == 14 then s.overrun e false
  else if e.content == 15 then s.overrun e true
  else if e.correctable then
    if e.rereadClean then s.transient e.kind e.unit e.address else s.lasting e.kind e.unit e.address
  else (((s.faultRecord e.kind 3 e.unit e.address).uncorrected e).lasting e.kind e.unit e.address)

/-- An ashlar check that fails with no error of the memory: counted, reported, and lasting at the second within 1,000 ticks (R496). -/
def State.checkFailed (s : State) (ring bank addr : Nat) : State :=
  let k := s.tickOf 0
  let s := (s.addCtr (ctrRing ring 3) 1).faultRecord 3 3 bank addr
  let again := s.faults.checkFails.any fun p => p.1 == bank && k < p.2 + 1000
  let s := s.onFaults fun x => { x with checkFails := (bank, k) :: x.checkFails.filter fun p => k < p.2 + 1000 }
  if again then s.lasting 3 bank addr else s

/-- SCRUB_PASS: the errors a scrub's reads find. -/
def execScrubPass (errors : List MemError) (s : State) : Host.Outcome State Fault Refusal :=
  if s.dieOn then .next (errors.foldl (fun s e => s.memError e) s) else .next s

/-! ## Switches -/

/-- The next waiting bring-in of a kind. -/
def State.nextBringIn (s : State) (kind : Nat) : State :=
  match s.faults.waiting.find? fun w => w.1 == kind with
  | some w => if (spares s kind).isEmpty && kind == 2 then s else
      (s.onFaults fun x => { x with waiting := x.waiting.filter (· != w) }).bringIn kind w.2
  | none => s

/-- The copy of a spare has ended: the map switches (R88, R192). -/
def State.switchSpare (s : State) (kind failed : Nat) : State :=
  match s.faults.work.find? fun w => w.kind == kind && w.failed == failed with
  | none => s
  | some w =>
    let s := (s.onFaults fun x => { x with work := x.work.filter (· != w) }).swapUnit kind failed w.spare
    if !w.test then ((s.spared kind failed w.spare).nextBringIn kind)
    else match s.faults.tests.find? fun t => t.1 == kind && t.2.1 == w.spare && t.2.2.1 == failed with
      | some t =>
        -- the unit tested is back in its place
        let s := s.onFaults fun x => { x with tests := x.tests.filter (· != t) }
        ((s.setSpares kind (spares s kind ++ [failed])).testDone t.2.2.2 0 (passBytes true)).nextBringIn kind
      | none => s

/-- BANK_SPARE_SWITCH. -/
def execBankSpareSwitch (failed : Nat) (s : State) : Host.Outcome State Fault Refusal :=
  if s.dieOn then .next (s.switchSpare 3 failed) else .next s

/-- ARRAY_SPARE_SWITCH; the tile-slots whose shadow differed are reported, and the switch is made (R193). -/
def execArraySpareSwitch (failed : Nat) (mismatches : List Nat) (s : State) : Host.Outcome State Fault Refusal :=
  if !s.dieOn || !(s.faults.work.any fun w => w.kind == 2 && w.failed == failed) then .next s else
  let s := mismatches.foldl (fun s k => s.raise0 0x1007 (le 1 failed ++ le 1 k ++ le 2 0 ++ le 8 s.now)) s
  .next (s.switchSpare 2 failed)

/-- Allocations and enables that waited for the transplants off a core are complete (R106). -/
def placing (op : Nat) : Bool := [0x0301, 0x0303, 0x0401, 0x0403, 0x0C01, 0x0D01, 0x1107].contains op

def State.placed (s : State) (c : Nat) : State :=
  if s.moves.any fun m => m.source == c then s else
  (s.jobs.filter fun j => placing j.op && j.stage == 1 && j.num == c && j.handle != 0).foldl (fun s j => s.done j 0) s

/-- A NONDET instance is compared with nothing (R113). -/
def nondet (s : State) (h : Nat) : Bool :=
  ((s.obj h).bind Obj.block?).any fun b => (s.pkgType b.package b.typ).any fun t => bit t.flags 0

/-- The lines an instance keeps in local memory are zero again (R121). -/
def Obj.zeroState (page : Nat) (o : Obj) : Obj :=
  o.onChan fun c => { c with chans := c.chans.map fun x =>
    if page == 8 then { x with line := [], line2 := [] } else if page == 9 then { x with dry := [], dry2 := [] }
    else if page == 7 then { x with look := [], look2 := [] } else x }

/-- An instance whose state is lost starts from zero and comes in over 480 samples (R121). -/
def State.stateLost (s : State) (h : Nat) : State :=
  match s.obj h with
  | none => s
  | some o =>
    let s := match o.block? with
      | some b => s.upd b.host fun x => x.zeroState b.page
      | none => s
    let s := s.onFaults fun x => { x with revive := (h, 8 * (s.ash (if o.dom ≤ 2 then o.dom else 0) + 1)) :: x.revive }
    s.leaveSet.raiseObj o.desk 0x1008 (le 4 h)

/-- The switch of a transplant (R118-R120). -/
def State.switchMove (s : State) (t : Transplant) (lost : List Nat) : State :=
  let s := t.objs.foldl (fun s h => s.moveObj h t.source t.target) { s with moves := s.moves.filter (· != t) }
  let s := lost.foldl (fun s h => s.stateLost h) (s.addCtr ctrTransplants 1)
  let s := if t.spare && !(s.faults.waiting.contains (1, t.source)) then
      (s.setCore t.source fun k => { k with fused := true, dom := 3 }).raise0 0x1001
        (le 2 t.source ++ le 2 t.target ++ le 1 (reservesLeft s) ++ le 3 0)
    else s
  let s := if s.faults.waiting.contains (1, t.source) then s.evacuate t.source else s
  s.releaseCores.placed t.source

/-- TRANSPLANT_SWITCH: the shadow has been compared; `lost` lists the instances whose state could not be read. -/
def execTransplantSwitch (source target : Nat) (mismatch : Bool) (lost : List Nat) (s : State) : Host.Outcome State Fault Refusal :=
  if !s.dieOn then .next s else
  match s.moves.find? fun m => m.source == source && m.target == target with
  | none => .next s
  | some t =>
    let bad := mismatch && !(t.objs.all fun h => nondet s h)
    if !bad then .next (s.switchMove t lost) else
    let s := s.raise0 0x1006 (le 2 source ++ le 2 target ++ le 4 (t.objs.headD 0) ++ le 8 s.now)
    if !t.retried then .next { s with moves := s.moves.map fun m => if m == t then { m with retried := true, slot := m.slot + 2 } else m }
    else if t.spare then .next (s.switchMove t lost)
    else .next (({ s with moves := s.moves.filter (· != t) }.setCore target fun k => { k with suspect := true }).releaseCores.placed source)

/-- Moves off failed units that wait for room go on as room comes free (R122, R194, R357). -/
def State.retryFaults (s : State) : State :=
  if s.halted then s else
  s.faults.waiting.foldl (fun s w =>
    if w.1 == 1 then s.evacuate w.2
    else if w.1 == 2 && (spares s 2).isEmpty then
      (match placeOf s 2 w.2 with
       | some a => s.emptyArray a false
       | none => s)
    else s) s

/-! ## Tests (R497-R499) -/

/-- A unit that carries no audio. -/
def idleUnit (s : State) (kind unit : Nat) : Bool :=
  match kind with
  | 1 => unit < 192 && !(s.core unit).fused && ((s.core unit).reserve || (s.core unit).dom == 3 || (s.core unit).suspect)
  | 2 => s.faults.spareArrays.contains unit
  | 3 => s.faults.spareBanks.contains unit
  | _ => false

/-- BACKGROUND_TEST: a pass clears a core's suspect mark, a failure is lasting. -/
def execBackgroundTest (kind unit : Nat) (pass : Bool) (s : State) : Host.Outcome State Fault Refusal :=
  if !s.serving || !(idleUnit s kind unit) then .next s
  else if pass then .next (if kind == 1 then s.setCore unit fun k => { k with suspect := false } else s)
  else .next (s.lasting kind unit 0)

/-- SPARE_TEST_COMPLETE: the unit passes and goes back, or fails and stays out (R499). -/
def execSpareTestComplete (kind unit : Nat) (pass : Bool) (s : State) : Host.Outcome State Fault Refusal :=
  if !s.serving || (s.faults.work.any fun w => w.kind == kind && w.test) then .next s else
  match s.faults.tests.find? fun t => t.1 == kind && t.2.1 == unit with
  | none => .next s
  | some t =>
    if pass then .next (s.startSwap kind t.2.2.1 unit true)
    else .next (s.lasting kind unit 0)

/-! ## The commands (R336, R337) -/

def faultLogBody : Body := fun s f => do
  reserved f 4 4
  let rs := (s.faults.log.drop (u32 f 0)).take 11
  okResp s (le 2 rs.length ++ le 2 0 ++ le 4 s.faults.total ++
    rs.flatMap fun r => le 1 r.kind ++ le 1 r.severity ++ le 2 r.unit ++ le 4 r.address ++ le 8 r.ashlar ++ le 4 r.count)

def opFaultLogGet : RuziaOp := ⟨0x0F00, .locl, false, len 8, faultLogBody⟩

/-- `fault.log.get`. -/
def execFaultLogGet (f : CmdFrame) (s : State) : Host.Outcome State Fault Refusal :=
  ruzia opFaultLogGet f s

def faultClearBody : Body := fun s _ =>
  okResp ({ s with journal := { s.journal with faultLog := [] } } |>.onFaults fun x => { x with log := [] })

def opFaultClear : RuziaOp := ⟨0x0F01, .locl, true, len 0, faultClearBody⟩

/-- `fault.clear`: both logs, no unit's state. -/
def execFaultClear (f : CmdFrame) (s : State) : Host.Outcome State Fault Refusal :=
  ruzia opFaultClear f s

def phasesLeft (s : State) : Nat := if s.sv.spareInUse || bit s.sv.phaseFailed 6 then 0 else 1

def spareInfoBody : Body := fun s _ =>
  let mask := sumNat ((List.range 192).map fun c => if (s.core c).reserve then 2 ^ c else 0)
  okResp s (le 1 (reservesLeft s) ++ le 1 s.faults.spareArrays.length ++ le 1 s.faults.spareBanks.length ++ le 1 (phasesLeft s) ++
    le 24 mask ++ s.faults.rowsLeft.flatMap fun n => le 2 n)

def opSpareInfo : RuziaOp := ⟨0x1000, .locl, false, len 0, spareInfoBody⟩

/-- `spare.info`. -/
def execSpareInfo (f : CmdFrame) (s : State) : Host.Outcome State Fault Refusal :=
  ruzia opSpareInfo f s

def spareTestBody : Body := fun s f => do
  let kind := u8 f 0
  let unit := u16 f 2
  need (kind == 2 || kind == 3) eRange 0
  reserved f 1 1
  need (unit < (if kind == 2 then 18 else 68)) eRange 2
  need ((placeOf s kind unit).isSome) eState 2
  need (!(s.faults.tests.any fun t => t.1 == kind)) eBusy
  need (!(s.faults.work.any fun w => w.kind == kind)) eBusy
  mayDefer s f
  match spares s kind with
  | [] => .error { status := eNoResource }
  | spare :: _ =>
    let order := s.orderCtr
    let s := (s.defer f 0x1001 0 none 1 0).onFaults fun x => { x with tests := x.tests ++ [(kind, unit, spare, order)] }
    accResp (s.startSwap kind unit spare true)

def opSpareTest : RuziaOp := ⟨0x1001, .locl, true, len 4, spareTestBody⟩

/-- `spare.test`: a free spare stands in for the unit, which is tested and returned. -/
def execSpareTest (f : CmdFrame) (s : State) : Host.Outcome State Fault Refusal :=
  ruzia opSpareTest f s

end Sys2Proof.Machine
end

