-- ==== Sys2Proof/Machine/Seam.lean ====
section
/-! DEFINITION. Seam lanes (R359-R376, R90-R93): the `seam` commands, the lanes' topology, the frame positions, forwarding and
landing of segments, and the quarry's keeper, control tree and presentation depth (R377, R381). -/
namespace Sys2Proof.Machine

/-! ## Lanes -/

def LaneState.code : LaneState → Nat
  | .down => 0
  | .training => 1
  | .up => 2
  | .degraded => 3
  | .test => 4

/-- Lane of a lane port handle. -/
def lanePort (s : State) (h field : Nat) : Except Err Nat := do
  let p ← resolvePort s h field
  need (256 ≤ p && p < 288) eHandle field h
  .ok (p - 256)

def laneHandle (l : Nat) : Nat := portHandle (256 + l)

/-- A lane whose quad is in Seam mode (R359). -/
def seamMode (s : State) (l : Nat) : Bool := s.quadModes.getD (l / 4) 4 == 0

/-- Channel slots of a lane (R364). -/
def Lane.slots (l : Lane) : Nat := 2800 / l.mult

/-- Channels in a data segment (R364). -/
def Lane.perSeg (l : Lane) : Nat := 100 / l.mult

def State.onQuarry (s : State) (f : Quarry → Quarry) : State := { s with quarry := f s.quarry }

/-- The upstream lanes that face an engine known by its identifier. -/
def upstreamLanes (s : State) : List Nat := (List.range 32).filter fun i => (s.lane i).upstream && (s.lane i).peer != 0

/-- The ring pair: two upstream lanes with different peers (R375). -/
def ringPair (s : State) : List Nat :=
  match upstreamLanes s with
  | a :: rest => match rest.find? fun b => (s.lane b).peer != (s.lane a).peer with
    | some b => [a, b]
    | none => []
  | [] => []

/-- The other lane of a ring pair. -/
def ringMate (s : State) (l : Nat) : Option Nat :=
  match ringPair s with
  | [a, b] => if l == a then some b else if l == b then some a else none
  | _ => none

/-- The redundant group of a lane: the upstream lanes with its peer, if there are two or more (R375, R376). -/
def groupOf (s : State) (l : Nat) : List Nat :=
  if !(s.lane l).upstream then [] else
  let g := (upstreamLanes s).filter fun i => (s.lane i).peer == (s.lane l).peer
  if g.length ≥ 2 then g else []

/-- Lanes whose landings take a lane's slots: itself, its ring mate, its group (R375, R376). -/
def bundle (s : State) (l : Nat) : List Nat :=
  match ringMate s l with
  | some b => [l, b]
  | none => if (groupOf s l).isEmpty then [l] else groupOf s l

/-- Rings bound to a received slot. -/
def landings (s : State) (l slot : Nat) : List Nat :=
  (bundle s l).flatMap fun i => ((s.lane i).lands.filter fun b => b.1 == slot).map (·.2)

def entryOut (e : Nat) : Nat × Nat := (bits e 20 16, bits e 11 0)

/-- Valid forwarding entries of a lane as (slot, output lane, output slot); an entry across the ring pair is mirrored, and those of a
group hold for each of its lanes (R375, R376). -/
def forwards (s : State) (l : Nat) : List (Nat × Nat × Nat) :=
  let own (i : Nat) : List (Nat × Nat × Nat) := ((s.lane i).fwd.filter fun e => bit e.2 31).map fun e => (e.1, entryOut e.2)
  match ringMate s l with
  | some b => own l ++ ((own b).filter fun e => e.2.1 == l).map fun e => (e.1, b, e.1)
  | none => if (groupOf s l).isEmpty then own l else (groupOf s l).flatMap own

/-- Send routes of a lane's slot, its ring mate's among them (R375). -/
def sendRoutes (s : State) (l slot : Nat) : List (Obj × Route) :=
  let ls := match ringMate s l with
    | some b => [l, b]
    | none => [l]
  s.routes.filter fun r => r.2.kind == 3 && r.2.sub == slot && ls.any fun i => r.2.sink == laneHandle i

/-- Output slots of a lane that forwarding feeds. -/
def forwardFed (s : State) (l : Nat) : List Nat :=
  ((List.range 32).flatMap fun i => (forwards s i).filterMap fun e => if e.2.1 == l then some e.2.2 else none).filter
    fun k => (sendRoutes s l k).isEmpty

/-- A lane in use by landings, forwarding or send routes (R341). -/
def laneBusy (s : State) (l : Nat) : Bool :=
  !(s.lane l).lands.isEmpty || (s.lane l).fwd.any (fun e => bit e.2 31) || !(s.lane l).fwdNext.isEmpty ||
  (s.lanes.any fun x => x.fwd.any fun e => bit e.2 31 && bits e.2 20 16 == l) ||
  (s.routes.any fun r => r.2.kind == 3 && r.2.sink == laneHandle l)

/-! ## Frame positions (R362, R365): the frame sent in a slot is that of the ashlar before -/

/-- Ashlar of the frame being sent. -/
def State.frame (s : State) : Nat := (s.dom 0).next - 2

/-- Positions used in the frame being sent. -/
def Lane.used (l : Lane) (frame : Nat) : Nat := (l.copies.filter fun c => c.2.1 == frame).length

/-- Room for one more position: the last fits a 48 kHz frame only if no /NAK/ was inserted and the frame has its longer form, which
the phase of the character clock decides (a free value, log entry 2). -/
def State.posRoom (s : State) (l : Nat) : Bool × State :=
  let n := (s.lane l).used s.frame
  if n < 31 then (true, s)
  else if n > 31 then (false, s)
  else if rate44 (s.dom 0).rate then (true, s)
  else if assoc (s.lane l).naks s.frame > 0 then (false, s)
  else
    let (k, s) := s.drawNat
    (k % 2 == 0, s)

/-- Take the next position for an item: kind 0 data, 1 control, 2 resend. -/
def State.takePos (s : State) (l kind : Nat) : Nat × State :=
  let f := s.frame
  let n := (s.lane l).used f
  (n, s.setLane l fun x => { x with copies := ((n, f, kind) :: x.copies).filter fun c => c.2.1 + 2 ≥ f })

/-- The positions a resend may name: the last 64, and the header areas of the last two frames (R369). -/
def Lane.resendable (l : Lane) (pos low frame : Nat) : Option Nat :=
  if bit pos 7 then
    if frame % 256 == low then some frame else if (frame - 1) % 256 == low then some (frame - 1) else none
  else
    let here := 32 * frame + l.used frame
    (l.copies.find? fun c => c.1 == pos && c.2.1 % 256 == low && here ≤ 32 * c.2.1 + pos + 64).map fun c => c.2.1

/-- Send the resends owed, oldest first, while positions last. -/
def State.sendOwed (l : Nat) : Nat → State → State
  | 0, s => s
  | n + 1, s =>
    match (s.lane l).owed with
    | [] => s
    | (pos, f) :: rest =>
      let (room, s) := s.posRoom l
      if !room then s else
      let (_, s) := s.takePos l 2
      State.sendOwed l n ((s.setLane l fun x => { x with owed := rest }).emit (.resend l pos f))

/-- Bytes of a control record (R378). -/
def recSize (r : CtrlRec) : Nat := 8 + roundUp r.body.length 4

/-- The records that fit in so many bytes, in order, and those left. -/
def fitting : Nat → List CtrlRec → List CtrlRec × List CtrlRec
  | _, [] => ([], [])
  | n, r :: rs => if recSize r ≤ n then let (a, b) := fitting (n - recSize r) rs; (r :: a, b) else ([], r :: rs)

/-- A control segment with the relayed records, once a frame (R365, R379). -/
def State.sendRelays (s : State) (l : Nat) : State :=
  let waiting := (s.lane l).relays
  if waiting.isEmpty || !(s.lane l).isUp || (s.lane l).copies.any (fun c => c.2.1 == s.frame && c.2.2 == 1) then s else
  let (room, s) := s.posRoom l
  if !room then s else
  let (_, s) := s.takePos l 1
  let (now, _) := fitting 3200 (waiting.map (·.body))
  (s.setLane l fun x => { x with relays := x.relays.drop now.length }).emitAll (now.map fun r => Output.seamCtrl l r)

/-- A data segment's 800 words from its fed slots; the others carry 0.0 (R364). -/
def segWords (m seg : Nat) (fed : List (Nat × List Word)) : List Word :=
  (List.range (100 / m)).flatMap fun c =>
    match fed.find? fun e => e.1 == seg * (100 / m) + c with
    | some e => (e.2 ++ List.replicate (8 * m) 0#32).take (8 * m)
    | none => List.replicate (8 * m) 0#32

/-- A waiting segment is ready: its frame has begun and every forwarded slot of it has been released (R365). -/
def segReady (s : State) (l : Nat) (e : Nat × Nat × List (Nat × List Word)) : Bool :=
  let per := (s.lane l).perSeg
  e.1 ≤ s.frame && (forwardFed s l).all fun k => k / per != e.2.1 || e.2.2.any fun x => x.1 == k

/-- The order segments leave in: oldest ashlar, then lowest number. -/
def segFirst (a b : Nat × Nat × List (Nat × List Word)) : Bool := a.1 < b.1 || (a.1 == b.1 && a.2.1 ≤ b.2.1)

/-- Send the ready segments while positions last (R365). -/
def State.sendReady (l : Nat) : Nat → State → State
  | 0, s => s
  | n + 1, s =>
    match ((s.lane l).ready.filter (segReady s l)).foldl (fun b e => match b with
        | some x => if segFirst x e then some x else some e
        | none => some e) none with
    | none => s
    | some e =>
      let (room, s) := s.posRoom l
      if !room then s else
      let (pos, s) := s.takePos l 0
      let m := (s.lane l).mult
      let s := s.setLane l fun x => { x with ready := x.ready.filter fun y => !(y.1 == e.1 && y.2.1 == e.2.1) }
      State.sendReady l n (s.emit (.seamData l pos e.1 e.2.1 (segWords m e.2.1 e.2.2)))

/-- Fill the positions left of the present frame in the order of R365. -/
def State.fillFrame (s : State) (l : Nat) : State :=
  if (s.lane l).isUp then State.sendReady l 32 ((State.sendOwed l 32 s).sendRelays l) else s

/-- Put slots of an ashlar into the segments waiting at a lane. -/
def addReady (per a slot : Nat) (ws : List Word) (r : List (Nat × Nat × List (Nat × List Word))) : List (Nat × Nat × List (Nat × List Word)) :=
  let seg := slot / per
  if r.any fun e => e.1 == a && e.2.1 == seg then
    r.map fun e => if e.1 == a && e.2.1 == seg then (e.1, e.2.1, (slot, ws) :: e.2.2.filter fun x => x.1 != slot) else e
  else r ++ [(a, seg, [(slot, ws)])]

/-! ## Landing and forwarding a good segment (R370, R92) -/

/-- Land a slot's samples into a ring at their indices (R59, R60, R364). -/
def State.landSlot (s : State) (l i m a : Nat) (ws : List Word) : State :=
  let clean := ws.map fIngress
  let s := s.addCtr (ctrLane l 8) (clean.filter (·.2)).length
  let xs := clean.map (·.1)
  (List.range m).foldl (fun s k => s.landAshlar i (m * a + k) ((xs.drop (8 * k)).take 8)) s

/-- The lane a group lands and forwards an ashlar from: that of the highest claim (R376). -/
def claimWinner (s : State) (g : List Nat) (a : Nat) : Option Nat :=
  let claims := g.map fun i => (i, assoc (s.lane i).claims a)
  match claims.foldl (fun b x => match b with
      | some y => if x.2 > (y : Nat × Nat).2 then some x else some y
      | none => some x) none with
  | some x => if x.2 > 0 then some x.1 else none
  | none => none

/-- Release segment `seg` of ashlar `a` received good on a lane: its landed slots are written, its forwarded slots are ready on
their output lanes. -/
def State.releaseSeg (s : State) (l a seg : Nat) (payload : List Word) : State :=
  let ln := s.lane l
  let m := ln.mult
  let per := ln.perSeg
  let g := groupOf s l
  if !g.isEmpty && claimWinner s g a != some l then s else
  let twice := match ringMate s l with
    | some b => (s.lane b).held.contains (seg, a)
    | none => false
  let slots := (List.range per).map fun c => (seg * per + c, (payload.drop (8 * m * c)).take (8 * m))
  let s := if twice then s else
    slots.foldl (fun s x => (landings s l x.1).foldl (fun s i => s.landSlot l i m a x.2) s) s
  let fw := forwards s l
  let outs := fw.filter fun e => e.1 / per == seg && (sendRoutes s e.2.1 e.2.2).isEmpty
  let s := outs.foldl (fun s e =>
    let ws := ((slots.find? fun x => x.1 == e.1).map (·.2)).getD []
    s.setLane e.2.1 fun x => { x with ready := addReady x.perSeg a e.2.2 ws x.ready }) s
  (outs.map (·.2.1)).eraseDups.foldl (fun s o => s.fillFrame o) s

/-- A lost segment: the output segments that waited for its slots are never ready (R92). -/
def State.dropForwards (s : State) (l a seg : Nat) : State :=
  let per := (s.lane l).perSeg
  ((forwards s l).filter fun e => e.1 / per == seg).foldl (fun s e =>
    s.setLane e.2.1 fun x => { x with ready := x.ready.filter fun y => !(y.1 == a && y.2.1 == e.2.2 / x.perSeg) }) s

/-! ## The keeper and the control tree (R377) -/

/-- The engine's own TOPO bits on a lane (R362). -/
def topoBits (s : State) (l : Nat) : Nat :=
  let ln := s.lane l
  flagAt (ringMate s l).isSome 0 + flagAt s.isKeeper 1 + flagAt (ln.agree ≥ 3) 2 + flagAt ln.degraded 3 + flagAt (ln.loop == 3) 4 +
    flagAt (s.quarry.parent == l) 5

/-- The (keeper, hops) heard on up lanes and the engine's own. -/
def keeperHeard (s : State) : List (Nat × Nat) :=
  let own := if s.extId == 0 then [] else [(s.extId, 0)]
  own ++ (s.lanes.filter fun l => l.isUp && l.keeper != 0 && l.hops < 254).map fun l => (l.keeper, l.hops + 1)

def bestKeeper (l : List (Nat × Nat)) : Option (Nat × Nat) :=
  l.foldl (fun b x => match b with
    | some (y : Nat × Nat) => if x.1 < y.1 || (x.1 == y.1 && x.2 < y.2) then some x else some y
    | none => some x) none

/-- The parent lane towards a keeper: non-degraded, then fewest hops, then the lowest number. -/
def parentLane (s : State) (keeper : Nat) : Nat :=
  let all := (List.range 32).filter fun i => (s.lane i).isUp && (s.lane i).keeper == keeper && (s.lane i).hops < 254
  let good := all.filter fun i => !(s.lane i).degraded
  let from_ := if good.isEmpty then all else good
  ((from_.foldl (fun b i => match b with
    | some (j : Nat) => if (s.lane i).hops < (s.lane j).hops then some i else some j
    | none => some i) none)).getD 255

/-! ### The tree seen by the keeper (R381, R48) -/

/-- The engine's own topology report. -/
def ownReport (s : State) : List TopoEntry :=
  ((List.range 32).filter (seamMode s)).map fun i =>
    let l := s.lane i
    { lane := i, state := l.st.code, peer := l.peer, window := l.window, flags := l.topo, delayPs := l.delayPs }

def allReports (s : State) : List (Nat × List TopoEntry) :=
  (s.extId, ownReport s) :: s.quarry.reports.filter fun r => r.1 != s.extId

/-- Links of the control tree as (parent, child, delay, parent's window): lanes whose peer calls them its parent lane. -/
def treeLinks (s : State) : List (Nat × Nat × Nat × Nat) :=
  (allReports s).flatMap fun r => (r.2.filter fun e => (e.state == 2 || e.state == 3) && bit e.flags 5).map fun e =>
    (r.1, e.peer, e.delayPs, e.window)

/-- A child's window on its lane towards its parent: the largest it reports towards that engine. -/
def childWindow (s : State) (child parent : Nat) : Nat :=
  ((((allReports s).filter fun r => r.1 == child).flatMap fun r => (r.2.filter fun e => e.peer == parent).map (·.window)).foldl max 0)

/-- Hops of R48 in both directions as (from, to, cost), the cost in 1/(32 · 10^12) of an ashlar. -/
def treeHops (s : State) : List (Nat × Nat × Nat) :=
  let fs := s.fs 0
  let cost (ps w : Nat) : Nat := 4 * ps * fs + (w + 1) * 10 ^ 12
  (treeLinks s).flatMap fun x =>
    [(x.1, x.2.1, cost x.2.2.1 (max (childWindow s x.2.1 x.1) 4)), (x.2.1, x.1, cost x.2.2.1 x.2.2.2)]

/-- Engines reached from some by tree hops, with their cost and hop count. -/
def reach (hs : List (Nat × Nat × Nat)) : Nat → List (Nat × Nat × Nat) → List (Nat × Nat × Nat)
  | 0, seen => seen
  | n + 1, seen =>
    let new := seen.flatMap fun x => (hs.filter fun h => h.1 == x.1 && !(seen.any fun y => y.1 == h.2.1)).map fun h =>
      (h.2.1, x.2.1 + h.2.2, x.2.2 + 1)
    if new.isEmpty then seen else reach hs n (seen ++ new)

/-- The engines of the tree from one, with cost and hops. -/
def treeFrom (s : State) (e : Nat) : List (Nat × Nat × Nat) := reach (treeHops s) 256 [(e, 0, 0)]

/-- The largest P_min of R48 over the paths of the control tree. -/
def treePMin (s : State) : Nat :=
  let costs := (treeFrom s s.extId).flatMap fun e => (treeFrom s e.1).map (·.2.1)
  let d := costs.foldl max 0
  if d == 0 then 2 else 2 + ceilDiv d (32 * 10 ^ 12)

/-- The largest HOPS this engine knows: of the tree at the keeper, otherwise its own and its peers'. -/
def hopsMax (s : State) : Nat :=
  if s.isKeeper then ((treeFrom s s.extId).map (·.2.2)).foldl max 0
  else ((s.lanes.filter Lane.isUp).map fun l => if l.hops == 255 then 0 else l.hops).foldl max (if s.quarry.hops == 255 then 0 else s.quarry.hops)

/-- What TOPOLOGY_CHANGED reports: keeper, engine-wide TOPO bits, largest HOPS. -/
def topologyOf (s : State) : Nat × Nat × Nat :=
  (s.quarry.keeper, flagAt (!(ringPair s).isEmpty) 0 + flagAt s.isKeeper 1, hopsMax s)

/-- TOPOLOGY_CHANGED (R377). -/
def State.topologyEvent (s : State) : State :=
  s.raise0 0x1303 (le 1 (topologyOf s).2.1 ++ le 1 0 ++ le 2 s.members.length ++ le 1 (topologyOf s).2.2 ++ le 3 0)

/-- Work out keeper, hops, parent lane, members and P_min again, and report a change (R377, R381). -/
def State.settleTree (s : State) : State :=
  let before := topologyOf s
  let oldMin := s.quarry.pMin
  let (k, h) := (bestKeeper (keeperHeard s)).getD (0, 255)
  let s := s.onQuarry fun q => { q with keeper := k, hops := h, parent := if h == 0 then 255 else parentLane s k }
  let s := if s.isKeeper then
      s.onQuarry fun q => { q with engines := ((treeFrom s s.extId).map (·.1)).filter (· != s.extId), pMin := treePMin s }
    else s
  let raised := s.isKeeper && s.quarry.pMin > s.quarry.p && oldMin ≤ s.quarry.p
  if topologyOf s != before || raised then s.topologyEvent else s

/-! ## Lane states (R371, R372) -/

/-- LANE_STATE (R372). -/
def State.laneEvent (s : State) (l : Nat) : State :=
  s.raiseObj (s.lane l).owner 0x1302 (le 4 (laneHandle l) ++ le 1 (s.lane l).st.code ++ le 1 0 ++ le 2 (s.lane l).peer)

/-- A TYPE 3 report to the keeper (R381). -/
def State.sendReport (s : State) : State :=
  if s.extId == 0 || s.isKeeper || s.quarry.keeper == 0 then s else
  s.sendCtrl 3 s.quarry.keeper ((ownReport s).flatMap fun e =>
    le 1 e.lane ++ le 1 e.state ++ le 2 e.peer ++ le 1 e.window ++ le 1 e.flags ++ le 2 0 ++ le 4 e.delayPs)

/-- The timing candidates a lane carried are lost (R435). -/
def State.loseSeam (s : State) (l : Nat) : State :=
  [6, 7].foldl (fun s c =>
    if ((s.cand c).valid || (s.cand c).present) && (s.cand c).port == laneHandle l then s.loseCand c else s) s

/-- A lane changes state: it is reported, the tree follows, and a lane that is not up loses its timing candidates. -/
def State.laneTo (s : State) (l : Nat) (st : LaneState) : State :=
  if (s.lane l).st == st then s else
  let s := (((s.setLane l fun x => { x with st := st }).laneEvent l).settleTree).sendReport
  if st == .up then s else s.loseSeam l

/-- Training starts: what the lane held of its link is forgotten and the degraded mark is cleared (R371, R372). -/
def Lane.train (l : Lane) : Lane :=
  { l with valid := 0, agree := 0, claims := [], windows := [], held := [], naks := [], owed := [], copies := [], ready := [],
           fails := [], degraded := false }

/-- Count a failure of a frame; more than 64 failed first copies or 4 losses in 1,000 frames degrade the lane (R371). -/
def State.laneFail (s : State) (l : Nat) (lost : Bool) : State :=
  let f := (s.lane l).lastAsh
  let s := s.setLane l fun x => { x with fails := (f, lost) :: x.fails.filter fun e => f < e.1 + 1000 }
  let x := s.lane l
  if x.degraded || !((x.fails.filter fun e => !e.2).length > 64 || (x.fails.filter (·.2)).length > 4) then s
  else
    let s := (s.setLane l fun x => { x with degraded := true }).addCtr (ctrLane l 3) 1
    let s := (s.raiseObj (s.lane l).owner 0x1301 (le 4 (laneHandle l) ++ le 4 0 ++ le 8 (s.ctr (ctrLane l 0)))).lasting 6 l 0
    s.laneTo l .degraded

/-! ## Commands (R341) -/

def seamInfoBody : Body := fun s f => do
  let i ← lanePort s (u32 f 0) 0
  let l := s.lane i
  okResp s (le 4 (laneHandle i) ++ le 1 l.owner ++ le 1 0xFF ++ le 1 0xFF ++ le 1 0 ++ le 4 0 ++ le 4 0 ++ le 1 l.st.code ++
    le 1 l.mult ++ le 1 l.window ++ le 1 0 ++ le 2 l.peer ++ le 1 l.hops ++ le 1 l.topo ++ le 8 (s.ctr (ctrLane i 0)) ++
    le 8 (s.ctr (ctrLane i 1)))

def opSeamInfo : RuziaOp := ⟨0x1300, .locl, false, len 4, seamInfoBody⟩

/-- `seam.info`. -/
def execSeamInfo (f : CmdFrame) (s : State) : Host.Outcome State Fault Refusal :=
  ruzia opSeamInfo f s

/-- A second ring pair cannot form (R375). -/
def pairTaken (s : State) (l : Nat) : Bool :=
  let other := ringPair (s.setLane l fun x => { x with upstream := false })
  !other.isEmpty && (groupOf (s.setLane l fun x => { x with upstream := true }) l).isEmpty

def seamConfigBody : Body := fun s f => do
  let i ← lanePort s (u32 f 0) 0
  let m := u8 f 4
  need (m == 1 || m == 2 || m == 4) eRange 4
  need (4 ≤ u8 f 5 && u8 f 5 ≤ 16) eRange 5
  need (u8 f 6 ≤ 1) eRange 6
  reserved f 7 1
  need (seamMode s i && !(laneBusy s i)) eState 0 (u32 f 0)
  need (!(u8 f 6 == 1 && pairTaken s i)) eState 6 (u32 f 0)
  let s := s.setLane i fun l =>
    { l.train with mult := m, window := u8 f 5, upstream := u8 f 6 == 1, config := slice f.payload 0 8 }
  let up := (s.lane i).st != .down
  okResp (if up then s.laneTo i .training else s)

def opSeamConfig : RuziaOp := ⟨0x1301, .change, true, len 8, seamConfigBody⟩

/-- `seam.config`: the lane is trained again (R371). -/
def execSeamConfig (f : CmdFrame) (s : State) : Host.Outcome State Fault Refusal :=
  ruzia opSeamConfig f s

/-- Rings fit to land a lane's slots (R341, R49). -/
def landRings (s : State) (f : CmdFrame) (m n h : Nat) : Except Err (List Nat) :=
  bindRings s f h n 8 fun o r => rate44 (s.dom o.dom).rate == rate44 (s.dom 0).rate && r.mult == m && (s.quarry.p ≤ 8 || r.deepDue)

def seamLandBody : Body := fun s f => do
  let i ← lanePort s (u32 f 0) 0
  let l := s.lane i
  if u32 f 8 != 0 then
    let _ ← resolve s [tRing] (u32 f 8) 8
  owned f l.owner (u32 f 0)
  let a := u16 f 4
  let n := u16 f 6
  need (a < l.slots) eRange 4
  need (1 ≤ n && n ≤ 64 && a + n ≤ l.slots) eRange 6
  need (seamMode s i) eState 0 (u32 f 0)
  let mine := l.lands.filter fun b => a ≤ b.1 && b.1 < a + n
  if u32 f 8 == 0 then
    let s := mine.foldl (fun s b => s.unbindWriter b.2) s
    okResp (s.setLane i fun x => { x with lands := x.lands.filter fun b => !(a ≤ b.1 && b.1 < a + n) })
  else
    let rs ← landRings s f l.mult n (u32 f 8)
    need mine.isEmpty eState 4 (u32 f 0)
    let s ← State.bindWriters (laneHandle i) 2 rs a s
    okResp (s.setLane i fun x => { x with lands := x.lands ++ rs.zipIdx.map fun r => (a + r.2, r.1) })

def opSeamLand : RuziaOp := ⟨0x1302, .change, false, len 12, seamLandBody⟩

/-- `seam.land`. -/
def execSeamLand (f : CmdFrame) (s : State) : Host.Outcome State Fault Refusal :=
  ruzia opSeamLand f s

def seamFwdSetBody : Body := fun s f => do
  let i ← lanePort s (u32 f 0) 0
  let a := u16 f 4
  let n := u16 f 6
  need (a < (s.lane i).slots) eRange 4
  need (1 ≤ n && n ≤ 2800 && a + n ≤ (s.lane i).slots) eRange 6
  let l ← launchAt s f 8
  need (l.kind != 1 || l.dom == 0) eRange 9
  let b ← bulkAt s f 24 0 11200
  need (b.len == 4 * n) eLength 28
  need (seamMode s i) eState 0 (u32 f 0)
  mayDefer s f
  accResp (s.defer f 0x1303 0 (some b) 0 0)

def opSeamFwdSet : RuziaOp := ⟨0x1303, .change, true, len 40, seamFwdSetBody⟩

/-- `seam.fwd.set`: deferred until its entries have arrived (R93). -/
def execSeamFwdSet (f : CmdFrame) (s : State) : Host.Outcome State Fault Refusal :=
  ruzia opSeamFwdSet f s

/-- Whether an entry may stand at a slot of a lane beside the entries `others`: 0, or the status (R90, R91, R375). -/
def entryCheck (s : State) (i slot e : Nat) (others : List (Nat × Nat × Nat)) : Nat :=
  let (out, o) := entryOut e
  if bits e 15 12 != 0 || bits e 30 21 != 0 then eRange
  else if !(bit e 31) then 0
  else if o ≥ (s.lane i).slots then eRange
  else if out == i || !(seamMode s out) || (s.lane out).degraded then eState
  else if ringMate s i == some out && o != slot then eState
  else if others.any (fun x => x.2.1 == out && x.2.2 == o) || !(sendRoutes s out o).isEmpty then eState
  else 0

/-- The first refusal among entries from a slot, and its index. -/
def entriesCheck (s : State) (i : Nat) : List Nat → Nat → List (Nat × Nat × Nat) → Option (Nat × Nat)
  | [], _, _ => none
  | e :: es, slot, others =>
    let c := entryCheck s i slot e others
    if c != 0 then some (c, slot)
    else entriesCheck s i es (slot + 1) (if bit e 31 then (slot, entryOut e) :: others else others)

/-- The entries of a `seam.fwd.set` have arrived: checked, and held for their frame (R91, R93). -/
def State.fwdArrived (s : State) (j : Job) (data : List Byte) : State :=
  let f := j.frame
  match lanePort s (u32 f 0) 0, launchAt s f 8 with
  | .ok i, .ok l =>
    let a := u16 f 4
    let n := u16 f 6
    let es := (List.range n).map fun k => fieldAt data (4 * k) 4
    let others := (List.range 32).flatMap fun k => (forwards s k).filter fun x => !(k == i && a ≤ x.1 && x.1 < a + n)
    match entriesCheck s i es a others with
    | some (c, _) => s.done j c
    | none =>
      match schedule s l 0 0 (strictFlag f) 8 with
      | .error e => s.done j e.status
      | .ok w =>
        let s := s.slipEvent f 0x1303 1 w
        let frame := ceilDiv w.index 8
        let news := es.zipIdx.map fun e => (a + e.2, e.1)
        (s.setLane i fun x => { x with fwdNext := x.fwdNext ++ [(frame, news)] }).done j 0
  | _, _ => s.done j eState

/-- The entries due by frame `a` come into force. -/
def Lane.applyFwd (l : Lane) (a : Nat) : Lane :=
  let due := l.fwdNext.filter fun p => p.1 ≤ a
  let fwd := due.foldl (fun t p => p.2.foldl (fun t e => assocSet t e.1 e.2) t) l.fwd
  { l with fwd := fwd, fwdNext := l.fwdNext.filter fun p => !(p.1 ≤ a) }

def seamFwdGetBody : Body := fun s f => do
  let i ← lanePort s (u32 f 0) 0
  let a := u16 f 4
  let n := u16 f 6
  need (a < (s.lane i).slots) eRange 4
  need (1 ≤ n && n ≤ 56 && a + n ≤ (s.lane i).slots) eRange 6
  okResp s ((List.range n).flatMap fun k => le 4 (assoc (s.lane i).fwd (a + k)))

def opSeamFwdGet : RuziaOp := ⟨0x1304, .read, false, len 8, seamFwdGetBody⟩

/-- `seam.fwd.get`. -/
def execSeamFwdGet (f : CmdFrame) (s : State) : Host.Outcome State Fault Refusal :=
  ruzia opSeamFwdGet f s

def seamIdBody : Body := fun s f => do
  need (1 ≤ u16 f 0) eRange 0
  reserved f 2 2
  need (!(s.lanes.any Lane.isUp)) eState 0
  let j := { s.journal with engineId := u16 f 0 }
  okResp ({ s with engineId := u16 f 0, journal := j }).settleTree

def opSeamIdSet : RuziaOp := ⟨0x1305, .locl, true, len 4, seamIdBody⟩

/-- `seam.id.set`. -/
def execSeamIdSet (f : CmdFrame) (s : State) : Host.Outcome State Fault Refusal :=
  ruzia opSeamIdSet f s

/-- A route reads a ring that a lane lands (R49). -/
def readsLanded (s : State) : Bool :=
  s.routes.any fun r => r.2.sources.any fun h => ((s.ringAt (hIdx h)).any fun x => x.2.writerKind == 2)

/-- This engine can take a presentation depth (R49). -/
def mayTakeP (s : State) (p : Nat) : Bool :=
  !(readsLanded s) && (p ≤ 8 || s.objs.all fun o => match o.ring? with
    | some r => r.writerKind != 2 || r.deepDue
    | none => true)

/-- Body of a quarry setting record (R381). -/
def settingBody (op p ashlar : Nat) : List Byte := le 1 op ++ le 1 0 ++ le 2 p ++ le 4 0 ++ le 8 ashlar

/-- Commit the proposal: every engine carries the new depth and its ashlar (R381). -/
def State.commitP (s : State) (p : Nat) : State :=
  let at' := s.now + 2 * s.quarry.p + 8
  (s.sendCtrl 4 0xFFFF (settingBody 4 p at')).onQuarry fun q => { q with nextP := p, nextAt := at' }

/-- The proposal ends without a change. -/
def State.failP (s : State) (order : Nat) : State :=
  let s := s.onQuarry fun q => { q with proposal := none }
  match s.jobs.find? fun j => j.order == order with
  | some j => s.done j eState
  | none => s

/-- Commit once no engine is waited for. -/
def State.tryCommit (s : State) : State :=
  match s.quarry.proposal with
  | some (p, _, _, []) => if s.quarry.nextAt == 0 then s.commitP p else s
  | _ => s

def seamPBody : Body := fun s f => do
  let p := u16 f 0
  need (2 ≤ p && p ≤ 4096) eRange 0
  reserved f 2 2
  need s.isKeeper eState
  need (p ≥ s.quarry.pMin) eRange 0
  need (mayTakeP s p) eState 0
  need (s.quarry.proposal.isNone && s.quarry.nextAt == 0) eBusy
  mayDefer s f
  let order := s.orderCtr
  let s := s.defer f 0x1306 0 none 1 p
  let s := s.onQuarry fun q => { q with proposal := some (p, order, [s.extId], s.members.filter (· != s.extId)) }
  accResp (s.sendCtrl 4 0xFFFF (settingBody 1 p 0)).tryCommit

def opSeamPSet : RuziaOp := ⟨0x1306, .change, true, len 4, seamPBody⟩

/-- `seam.p.set`: on the keeper, a proposal to every engine (R381). -/
def execSeamPSet (f : CmdFrame) (s : State) : Host.Outcome State Fault Refusal :=
  ruzia opSeamPSet f s

def seamTestBody : Body := fun s f => do
  let i ← lanePort s (u32 f 0) 0
  let l := s.lane i
  need (u8 f 4 ≤ 4) eRange 4
  need (u8 f 6 ≤ 3) eRange 6
  reserved f 7 1
  need (seamMode s i) eState 0 (u32 f 0)
  let runs := u8 f 4 != 0 || u8 f 6 != 0
  need (!(runs && (laneBusy s i || l.isUp))) eState 0 (u32 f 0)
  let (e, s) := if l.pattern == 0 then (0, s) else s.drawNat
  let (b, s) := if l.pattern == 0 then (0, s) else s.drawNat
  let s := s.setLane i fun x => { x.train with pattern := u8 f 4, inject := u8 f 5, loop := u8 f 6 }
  let s := if u8 f 4 != 0 || u8 f 6 == 1 || u8 f 6 == 2 then s.laneTo i .test
    else if (s.lane i).st == .test then s.laneTo i .training else s
  okResp s (le 8 e ++ le 8 b)

def opSeamTest : RuziaOp := ⟨0x1307, .locl, true, len 8, seamTestBody⟩

/-- `seam.test`: error and bit counts of a pattern test are free values; far-end loopback is asked for while the lane trains (R374). -/
def execSeamTest (f : CmdFrame) (s : State) : Host.Outcome State Fault Refusal :=
  ruzia opSeamTest f s

/-! ## Presentation depth events (R381) -/

/-- A proposal: the engine answers the keeper. -/
def State.proposeIn (s : State) (p src : Nat) : State :=
  if s.isKeeper then s else s.sendCtrl 4 src (settingBody (if mayTakeP s p then 2 else 3) p 0)

/-- P_PROPOSE. -/
def execPPropose (p src : Nat) (s : State) : Host.Outcome State Fault Refusal :=
  .next (if s.inQuarry then s.proposeIn p src else s)

/-- An answer at the keeper; an engine no longer waited for, or an answer after the commit, changes nothing. -/
def State.acceptIn (s : State) (e : Nat) (accept : Bool) : State :=
  match s.quarry.proposal with
  | some (p, order, yes, wait) =>
    if !(wait.contains e) then s
    else if !accept then s.failP order
    else (s.onQuarry fun q => { q with proposal := some (p, order, yes ++ [e], wait.filter (· != e)) }).tryCommit
  | none => s

/-- P_ACCEPT. -/
def execPAccept (engine : Nat) (accept : Bool) (s : State) : Host.Outcome State Fault Refusal :=
  .next (if s.inQuarry then s.acceptIn engine accept else s)

/-- P_VOTE_TIMEOUT: 2P ashlars without every answer. -/
def execPVoteTimeout (s : State) : Host.Outcome State Fault Refusal :=
  .next (match s.quarry.proposal with
    | some (_, order, _, w) => if s.dieOn && !w.isEmpty then s.failP order else s
    | none => s)

/-- A commit: the engine carries the announced depth (R381). -/
def State.commitIn (s : State) (p ashlar : Nat) : State :=
  if s.isKeeper then s else s.onQuarry fun q => { q with nextP := p, nextAt := ashlar }

/-- P_COMMIT. -/
def execPCommit (p ashlar : Nat) (s : State) : Host.Outcome State Fault Refusal :=
  .next (if s.inQuarry then s.commitIn p ashlar else s)

/-- P_CHANGE_APPLY: the committed depth comes into force at its ashlar. -/
def execPChangeApply (s : State) : Host.Outcome State Fault Refusal :=
  .next (if !s.dieOn || s.quarry.nextAt == 0 then s else
    let s := s.carryTo (instantOf (8 * s.quarry.nextAt) (s.fs 0))
    let at' := s.quarry.nextAt
    let job := s.quarry.proposal.map (·.2.1)
    let s := s.onQuarry fun q => { q with p := q.nextP, nextAt := 0, proposal := none }
    let s := s.raise0 0x1304 (le 2 s.quarry.p ++ le 2 0 ++ le 8 at')
    match s.jobs.find? fun j => some j.order == job with
    | some j => s.done j 0
    | none => s)

/-! ## Topology reports (R381) -/

/-- TOPOLOGY_REPORT_SEND. -/
def execTopologyReportSend (s : State) : Host.Outcome State Fault Refusal := .next (if s.inQuarry then s.sendReport else s)

/-- A report at the keeper: P_min follows. -/
def State.reportIn (s : State) (e : Nat) (entries : List TopoEntry) : State :=
  if !s.isKeeper then s else
  (s.onQuarry fun q => { q with reports := (e, entries) :: q.reports.filter fun r => r.1 != e }).settleTree

/-- TOPOLOGY_REPORT. -/
def execTopologyReport (engine : Nat) (entries : List TopoEntry) (s : State) : Host.Outcome State Fault Refusal :=
  .next (if s.inQuarry then s.reportIn engine entries else s)

/-- Entries of a TYPE 3 body. -/
def reportOf : Nat → List Byte → List TopoEntry
  | 0, _ => []
  | n + 1, bs =>
    if bs.length < 12 then [] else
    { lane := fieldAt bs 0 1, state := fieldAt bs 1 1, peer := fieldAt bs 2 2, window := fieldAt bs 4 1, flags := fieldAt bs 5 1,
      delayPs := fieldAt bs 8 4 } :: reportOf n (bs.drop 12)

/-- The keeper's snapshot record: taken if it is held by the end of ashlar a - 2 and its bank is not pending (R520). -/
def State.quarrySnapshot (s : State) (bank a keeper keeperSeq : Nat) : State :=
  if bank ≤ 1 && s.now + 2 ≤ a && !(s.snap.busy bank) then s.takeSnapshot bank a 2 keeper keeperSeq else s

/-- A TYPE 4 record (R381, R520). -/
def State.settingIn (s : State) (src : Nat) (bs : List Byte) : State :=
  match fieldAt bs 0 1 with
  | 1 => s.proposeIn (fieldAt bs 2 2) src
  | 2 => s.acceptIn src true
  | 3 => s.acceptIn src false
  | 4 => s.commitIn (fieldAt bs 2 2) (fieldAt bs 8 8)
  | 5 => s.quarrySnapshot (fieldAt bs 1 1) (fieldAt bs 8 8) src (fieldAt bs 16 8)
  | _ => s

/-! ## Lane events (R369-R372, R379) -/

/-- A pair or triad shows its common identifier; a lane trains but stays down the line while it has none (R372). -/
def execLaneSignalDetect (lane : Nat) (s : State) : Host.Outcome State Fault Refusal :=
  .next (if s.dieOn && seamMode s lane && (s.lane lane).st == .down then
    (s.setLane lane Lane.train).laneTo lane .training else s)

/-- LANE_UP: three consecutive valid headers of another engine (R372). -/
def execLaneUp (lane : Nat) (s : State) : Host.Outcome State Fault Refusal :=
  let l := s.lane lane
  .next (if s.dieOn && l.st == .training && l.valid ≥ 3 && s.extId != 0 && l.peer != 0 && l.peer != s.extId then
    s.laneTo lane .up else s)

/-- LANE_ASH_TIMEOUT: no valid /ASH/ for two frame periods; the lane goes down and trains again (R372). -/
def execLaneAshTimeout (lane : Nat) (s : State) : Host.Outcome State Fault Refusal :=
  .next (if s.dieOn && (s.lane lane).isUp then
    ((s.laneTo lane .down).setLane lane Lane.train).laneTo lane .training else s)

/-- NAK_RECEIVED: a resend is owed of a position still held (R369). -/
def execNakReceived (lane pos frame : Nat) (chkOk : Bool) (s : State) : Host.Outcome State Fault Refusal :=
  .next (if !(s.dieOn && (s.lane lane).isUp) then s else
    match (if chkOk then (s.lane lane).resendable pos frame s.frame else none) with
    | some fr => (s.setLane lane fun x => { x with owed := x.owed ++ [(pos, fr)] }).fillFrame lane
    | none => s.addCtr (ctrLane lane 4) 1)

/-- RETRY_WINDOW_CLOSE: a segment without a good copy is lost (R370). -/
def execRetryWindowClose (lane seg ashlar : Nat) (s : State) : Host.Outcome State Fault Refusal :=
  .next (if s.dieOn && (s.lane lane).windows.any (fun w => w.seg == seg && w.ashlar == ashlar) then
    let s := s.setLane lane fun x => { x with windows := x.windows.filter (fun w => !(w.seg == seg && w.ashlar == ashlar)),
                                              held := (seg, ashlar) :: x.held }
    if seg ≥ 28 then s
    else ((s.addCtr (ctrLane lane 2) 1).dropForwards lane ashlar seg).laneFail lane true
  else s)

/-- CTRL_RECORD_EXPIRY: records that have waited 32 ashlars are dropped (R379). -/
def execCtrlRecordExpiry (lane : Nat) (s : State) : Host.Outcome State Fault Refusal :=
  let old := (s.lane lane).relays.filter fun r => r.since + 32 ≤ s.now
  .next (if s.dieOn && !old.isEmpty then
    (s.setLane lane fun x => { x with relays := x.relays.filter fun r => !(r.since + 32 ≤ s.now) }).addCtr (ctrLane lane 7) old.length
  else s)

/-- Ask for a position again (R366, R367). -/
def State.nak (s : State) (l pos frame : Nat) : State :=
  let s := s.setLane l fun x => { x with naks := assocSet (x.naks.filter fun n => n.1 + 2 ≥ s.frame) s.frame (assoc x.naks s.frame + 1) }
  (s.addCtr (ctrLane l 0) 1).emit (.nak l pos (frame % 256))

/-- The index nearest to `near` with the low `k` bits of `x` (R363). -/
def nearest (k x near : Nat) : Nat :=
  let n := 2 ^ k
  let base := near / n * n + x % n
  if base > near + n / 2 && base ≥ n then base - n
  else if base + n / 2 < near then base + n
  else base

/-- A segment arrives at a lane that carries frames. Answers the records of a good control segment with the state. -/
def State.segmentIn (s : State) (l pos : Nat) (g : Segment) : List CtrlRec × State :=
  let ln := s.lane l
  let a := nearest 16 g.ashlar s.now
  let seg := g.seg % 32
  let key := (seg, a)
  if !g.ok || (28 ≤ seg && seg != 31) then
    let first := !g.resend && !(ln.windows.any fun w => w.seg == seg && w.ashlar == a) && !(ln.held.contains key)
    let s := if first then
        (s.setLane l fun x => { x with windows := x.windows ++ [{ seg := seg, ashlar := a, failed := true }] }).laneFail l false
      else s
    ([], s.nak l pos ln.lastAsh)
  else if seg == 31 then
    let s := if ln.windows.any fun w => w.seg == 31 && w.ashlar == a then
        (s.setLane l fun x => { x with windows := x.windows.filter fun w => !(w.seg == 31 && w.ashlar == a) }).addCtr (ctrLane l 1) 1 else s
    (g.records, s)
  else if ln.held.contains key then ([], s)
  else
    let waited := ln.windows.any fun w => w.seg == seg && w.ashlar == a
    let s := if waited then s.addCtr (ctrLane l 1) 1 else s
    let s := s.setLane l fun x => { x with windows := x.windows.filter fun w => !(w.seg == seg && w.ashlar == a),
                                           held := x.held.filter fun h => h.2 + 64 ≥ a }
    let hold (s : State) : State := s.setLane l fun x => { x with held := key :: x.held }
    if ln.agree < 3 then ([], hold (s.addCtr (ctrLane l 6) 1))
    else ([], hold (s.releaseSeg l a seg g.payload))

/-- The values of a valid header are taken: peer, keeper, depth, claims, agreement (R363, R373, R376, R377). -/
def State.headerIn (s : State) (l : Nat) (h : SeamHdr) : State :=
  let a := nearest 48 h.ashlar s.now
  let set (x : Lane) : Lane :=
    { x with peer := h.engine, keeper := h.keeper, hops := h.hops, topo := h.topo, claim := h.claim, quality := h.quality,
             epoch := h.epoch, peerMult := h.mult, peerWindow := h.window, rxOffset := h.rxOffset, delayPs := h.delayPs,
             valid := x.valid + 1, invalid := 0, agree := if h.inTime then x.agree + 1 else 0, lastAsh := a,
             claims := ((a, h.claim) :: x.claims.filter fun c => c.1 != a).take 64 }
  let s := s.setLane l set
  if (s.lane l).isUp then s.settleTree else s

/-- A header that fails its checks: the last values stand and the header area is asked for again (R363). -/
def State.headerBad (s : State) (l : Nat) : State :=
  let s := s.setLane l fun x => { x with valid := 0, agree := 0, invalid := x.invalid + 1 }
  let s := if (s.lane l).invalid == 4 then s.loseSeam l else s
  if (s.lane l).isUp then s.nak l 128 ((s.lane l).lastAsh + 1) else s

/-- A record to relay: on every tree lane but the one it arrived on, its TTL lowered (R378, R379). -/
def State.relay (s : State) (l : Nat) (r : CtrlRec) : State :=
  (s.treeLanes.filter (· != l)).foldl (fun s i =>
    (s.setLane i fun x => { x with relays := x.relays ++ [{ since := s.now, body := { r with ttl := r.ttl - 1 } }] }).sendRelays i) s

end Sys2Proof.Machine
end

