-- ==== Sys2Proof/Machine/Eth.lean ====
section
/-! DEFINITION. Ethernet ports and PTP (R382-R388, R400, R403-R407): the `eth` commands, link changes, ARP, DHCP and the messages of
the PTP instance. -/
namespace Sys2Proof.Machine

/-! ## Ports -/

/-- The `eth.config` payload in force (R341). -/
def EthPort.bytes (e : EthPort) (p : Nat) : List Byte :=
  le 4 (portHandle (768 + p)) ++ le 4 e.addr ++ le 4 e.mask ++ le 4 e.gateway ++ le 2 e.vlan ++ le 1 (if e.mgmt then 1 else 0) ++
    le 1 (if e.dhcp then 1 else 0)

/-- SPEED as reports give it: 0 for a link that carries no traffic (R382). -/
def EthPort.speedByte (e : EthPort) : Nat := if e.carries then Config.speedCode e.speed else 0

def ethInfoBody : Body := fun s f => do
  let p ← ethPort s (u32 f 0) 0
  let e := s.ethAt p
  okResp s (e.bytes p ++ le 1 (if e.link then 1 else 0) ++ le 1 e.speedByte ++ le 2 0 ++ counters s (ctrEth p 0) 8)

def opEthInfo : RuziaOp := ⟨0x1400, .locl, false, len 4, ethInfoBody⟩

/-- `eth.info`. -/
def execEthInfo (f : CmdFrame) (s : State) : Host.Outcome State Fault Refusal :=
  ruzia opEthInfo f s

/-- A network mask: ones, then zeros (R388). -/
def contiguous (mask : Nat) : Bool := (List.range 33).any fun k => mask == 2 ^ 32 - 2 ^ k

/-- A port that carries a Stream or belongs to the PTP instance (R388). -/
def ethBusy (s : State) (p : Nat) : Bool := portBusy s (768 + p) || (s.ptp.on && s.ptp.ports.contains p)

/-- Journal line of a port's configuration (R388). -/
def EthPort.line (e : EthPort) (p : Nat) : List Nat :=
  [p, e.addr, e.mask, e.gateway, e.vlan, if e.mgmt then 1 else 0, if e.dhcp then 1 else 0]

def State.keepEth (s : State) (p : Nat) : State :=
  { s with journal := { s.journal with eth := (s.ethAt p).line p :: s.journal.eth.filter fun l => l.getD 0 99 != p } }

def ethConfigBody : Body := fun s f => do
  let p ← ethPort s (u32 f 0) 0
  let e := s.ethAt p
  need (contiguous (u32 f 8)) eRange 8
  need (u16 f 16 ≤ 4094) eRange 16
  need (u8 f 18 ≤ 1) eRange 18
  need (u8 f 19 ≤ 1) eRange 19
  let same := u32 f 4 == e.addr && u32 f 8 == e.mask && u32 f 12 == e.gateway && u16 f 16 == e.vlan && (u8 f 19 == 1) == e.dhcp
  need (same || !(ethBusy s p)) eState 0 (u32 f 0)
  let s := s.setEth p fun e => { e with addr := u32 f 4, mask := u32 f 8, gateway := u32 f 12, vlan := u16 f 16,
                                        mgmt := u8 f 18 == 1, dhcp := u8 f 19 == 1 }
  okResp (s.keepEth p)

def opEthConfig : RuziaOp := ⟨0x1401, .locl, true, len 20, ethConfigBody⟩

/-- `eth.config`: kept in the configuration journal. -/
def execEthConfig (f : CmdFrame) (s : State) : Host.Outcome State Fault Refusal :=
  ruzia opEthConfig f s

/-! ## Links and addresses -/

/-- The group memberships of a port are reported again (R386). -/
def State.reportGroups (s : State) (p : Nat) : State :=
  let h := portHandle (768 + p)
  s.streams.foldl (fun s x =>
    let st := x.2
    if st.tx then s
    else (if st.ethPort == h then s.joinGroup h st.addr st.source else s).joinGroup (if st.ethPort2 == h then h else 0) st.addr2 st.source) s

/-- ETH_LINK_CHANGE: the change is reported; Streams yield at a lower rate (R393, R400). -/
def execEthLinkChange (port : Nat) (up : Bool) (speed : Nat) (s : State) : Host.Outcome State Fault Refusal :=
  .next (if !(s.dieOn && (resolvePort s (portHandle (768 + port)) 0).toBool) then s else
    let s := s.setEth port fun e => { e with link := up, speed := if up then speed else 0 }
    let e := s.ethAt port
    let s := s.raiseObj e.owner 0x1401 (le 4 (portHandle (768 + port)) ++ le 1 (if up then 1 else 0) ++ le 1 e.speedByte ++ le 2 0)
    if e.carries then (let n := s.objs.length + 1
      let t := State.yieldStreams port n s
      -- a standby may make no break of its own (R462)
      (if s.red.role == .standby && t != s then State.yieldStreams port n s.goStale else t)).reportGroups port else s)

/-- An ARP entry in use: the gateway, or a unicast destination of a transmit Stream. -/
def arpUsed (s : State) (p ip : Nat) : Bool :=
  let h := portHandle (768 + p)
  ip == (s.ethAt p).gateway || s.streams.any fun x => x.2.tx &&
    ((x.2.ethPort == h && x.2.addr == ip) || (x.2.ethPort2 == h && x.2.addr2 == ip))

/-- Keep a resolved address: 1,024 entries, the oldest unused replaced (R386). -/
def State.arpLearn (s : State) (p ip mac : Nat) : State :=
  let old := (s.ethAt p).arp.filter fun a => a.1 != ip
  let kept := if old.length < 1024 then old else
    match old.reverse.find? fun a => !(arpUsed s p a.1) with
    | some d => old.filter (· != d)
    | none => old.take 1023
  s.setEth p fun e => { e with arp := (ip, mac) :: kept }

/-- ARP_REFRESH: an entry in use is asked for again (R386). -/
def execArpRefresh (port ip : Nat) (s : State) : Host.Outcome State Fault Refusal :=
  .next (if s.dieOn && (s.ethAt port).carries && (s.ethAt port).arp.any (fun a => a.1 == ip) && arpUsed s port ip then
    (s.emit (.ethSend port 1 [ip])).txFrame port (64 + tagOctets s port)
  else s)

/-- DHCP_LEASE_EVENT: a server assigns or renews the address of a DHCP port (R386). -/
def execDhcpLeaseEvent (port addr mask gateway : Nat) (s : State) : Host.Outcome State Fault Refusal :=
  let e := s.ethAt port
  .next (if !(s.serving && e.dhcp && e.carries) || (e.addr == addr && e.mask == mask && e.gateway == gateway) then s else
    let s := s.setEth port fun e => { e with addr := addr, mask := mask, gateway := gateway }
    s.raiseObj e.owner 0x1403 (le 4 (portHandle (768 + port)) ++ le 4 addr ++ le 4 mask ++ le 4 gateway))

/-! ## PTP -/

/-- Handles of the ports of `eth.ptp.config`. -/
def ptpPorts (s : State) (f : CmdFrame) : Except Err (List Nat) :=
  eachItem (fun i => do
    let p ← ethPort s (u32 f (8 + 4 * i)) (8 + 4 * i)
    need ((s.ethAt p).addr != 0) eState (8 + 4 * i) (u32 f (8 + 4 * i))
    .ok p) (u8 f 6) 0

def ptpBody : Body := fun s f => do
  let ports ← ptpPorts s f
  need (u8 f 0 ≤ 1) eRange 0
  need (u8 f 1 ≤ 127) eRange 1
  need (u8 f 2 ≤ 2) eRange 2
  need (1 ≤ u8 f 3 && u8 f 3 ≤ 2) eRange 3
  let n := u8 f 6
  need (if u8 f 2 == 2 then 2 ≤ n && n ≤ 8 else 1 ≤ n && n ≤ 2) eRange 6
  reserved f 7 1
  need (ports.eraseDups.length == n) eRange 8
  let was := s.ptp
  let s : State := { s with ptp := { Ptp.reset with
    on := true, profile := u8 f 0, domain := u8 f 1, role := u8 f 2, step := u8 f 3, priority1 := u8 f 4, priority2 := u8 f 5,
    ports := ports, utc := was.utc, leap := was.leap } }
  okResp (ports.foldl (fun s p =>
    s.raise [(s.ethAt p).owner, 0] 0x1402 (le 4 (portHandle (768 + p)) ++ le 1 ptpListening ++ le 3 0))
    { s with ptp := { s.ptp with states := ports.map fun _ => ptpListening } })

def opEthPtpConfig : RuziaOp := ⟨0x1402, .change, true, fun f => f.len ≥ 8 && f.len == 8 + 4 * u8 f 6, ptpBody⟩

/-- `eth.ptp.config`: the instance starts again with every port LISTENING (R404). -/
def execEthPtpConfig (f : CmdFrame) (s : State) : Host.Outcome State Fault Refusal :=
  ruzia opEthPtpConfig f s

/-- State of a port of the instance. -/
def ptpStateOf (s : State) (p : Nat) : Nat := s.ptp.states.getD (s.ptp.ports.findIdx (· == p)) 0

/-- Work the port states out; a port that leaves SLAVE loses its candidate (R435). -/
def State.ptpSettle (s : State) : State :=
  let was := s.ptp.states
  let s := s.ptpRefresh
  let gone := (List.range s.ptp.ports.length).filter fun i => was.getD i 0 == ptpSlave && s.ptp.states.getD i 0 != ptpSlave
  gone.foldl (fun s i => match ptpCand s i with
    | some c => if (s.cand c).valid || (s.cand c).present then s.loseCand c else s
    | none => s) s

/-- A general or event message leaves a port: PTP over UDP over IPv4 (R403). -/
def State.ptpOut (s : State) (p kind octets : Nat) (args : List Nat) : State :=
  ((s.emit (.ptpSend p kind args)).txFrame p (octets + 46 + tagOctets s p)).addCtr (ctrEth p 7) 1

def ptpSync : Nat := 0
def ptpDelayReq : Nat := 1
def ptpFollowUp : Nat := 8
def ptpDelayResp : Nat := 9
def ptpAnnounce : Nat := 11
def ptpManagement : Nat := 13

/-- A port that serves as master. -/
def ptpServes (s : State) (p : Nat) : Bool := s.ptp.on && s.ptp.ports.contains p && ptpStateOf s p == ptpMaster

/-- The dataset a master port announces: its own, or the foreign grandmaster's with one step more (R406, R407): class, accuracy,
variance, priorities, identity, steps, time source, UTC offset and its validity, leap flags. -/
def announceArgs (s : State) : List Nat :=
  let utc := [twos 16 (s.ptp.utc.getD 37), if s.ptp.utc.isSome then 1 else 0, s.ptp.leap]
  let slave := s.ptp.ports.zipIdx.find? fun x => s.ptp.states.getD x.2 0 == ptpSlave
  match slave with
  | some x =>
    match bestForeign s [x.1] with
    | some (_, d) => [d.getD 1 0, d.getD 2 0, 0xFFFF, d.getD 0 0, d.getD 3 0, d.getD 4 0, d.getD 5 0 + 1, 0xA0] ++ utc
    | none => []
  | none =>
    let locked := s.timing.st == .locked
    [(ptpClass s).1, (ptpClass s).2, if locked then 0x4E5D else 0xFFFF, s.ptp.priority1, s.ptp.priority2, clockIdentity, 0,
      if locked && s.ptp.role != 0 then 0x90 else 0xA0] ++ utc

/-- A measurement of the port's SLAVE side goes to the timing function as its candidate (R404, R436). -/
def State.ptpMeasure (s : State) (p : Nat) (e : Int) : State :=
  let i := s.ptp.ports.findIdx (· == p)
  let s : State := if ptpStateOf s p == ptpUncalibrated then s.ptpEnter (modAt s.ptp.states i fun _ => ptpSlave) else s
  let s := s.ptpRefresh
  match ptpCand s i, bestForeign s [p] with
  | some c, some (_, d) =>
    if ptpStateOf s p == ptpSlave then s.referenceIn c e (ptpQuality (d.getD 1 0) (d.getD 2 0)) else s
  | _, _ => s

/-- An Announce message: a foreign master is heard (R404, R406). -/
def State.announceIn (s : State) (p : Nat) (d : List Nat) (utc : Int) (leap : Nat) : State :=
  let id := d.getD 4 0
  let same (x : Nat × List Nat) : Bool := x.1 == p && x.2.getD 4 0 == id
  let n := ((s.ptp.foreign.find? same).map fun x => x.2.getD 6 0).getD 0
  let s : State := { s with ptp := { s.ptp with
    foreign := (p, d ++ [n + 1]) :: s.ptp.foreign.filter fun x => !(same x)
    silent := s.ptp.silent.filter (· != p) } }
  let s := s.ptpSettle
  if ptpStateOf s p == ptpSlave || ptpStateOf s p == ptpUncalibrated then
    { s with ptp := { s.ptp with utc := some utc, leap := leap } }
  else s

/-- PTP_MESSAGE_RECEIVED (R403-R407): Management, Pdelay and Signaling messages are ignored. -/
def execPtpMessageReceived (port : Nat) (m : PtpMsg) (s : State) : Host.Outcome State Fault Refusal :=
  .next (if !(s.dieOn && s.ptp.on && s.ptp.ports.contains port && (s.ethAt port).carries) then s else
    let s := s.addCtr (ctrEth port 6) 1
    match m with
    | .announce cls acc p1 p2 steps id utc leap => s.announceIn port [p1, cls, acc, p2, id, steps] utc leap
    | .sync e =>
      if ptpStateOf s port == ptpSlave || ptpStateOf s port == ptpUncalibrated then s.ptpMeasure port e else s
    | .delayReq unicast => if ptpServes s port then s.ptpOut port ptpDelayResp 54 [if unicast then 1 else 0] else s
    | .delayResp => s
    | .management => s
    | .discarded => s)

/-- PTP_MESSAGE_INTERVAL: a message of a kind is due on a port (R403, R405-R407). -/
def execPtpMessageInterval (port kind : Nat) (s : State) : Host.Outcome State Fault Refusal :=
  .next (if !(s.dieOn && (s.ethAt port).carries) then s else
    let s := s.ptpRefresh
    let slave := s.ptp.on && s.ptp.ports.contains port && (ptpStateOf s port == ptpSlave || ptpStateOf s port == ptpUncalibrated)
    if kind == ptpSync && ptpServes s port then
      let s := s.ptpOut port ptpSync 44 []
      if s.ptp.step == 2 then s.ptpOut port ptpFollowUp 44 [] else s
    else if kind == ptpAnnounce && ptpServes s port then s.ptpOut port ptpAnnounce 64 (announceArgs s)
    else if kind == ptpManagement && ptpServes s port && s.ptp.profile == 1 then
      let (n, s) := s.drawNat
      s.ptpOut port ptpManagement n []
    else if kind == ptpDelayReq && slave then s.ptpOut port ptpDelayReq 44 []
    else s)

/-- ANNOUNCE_RECEIPT_TIMEOUT: the port's masters are forgotten (R403, R404). -/
def execAnnounceReceiptTimeout (port : Nat) (s : State) : Host.Outcome State Fault Refusal :=
  .next (if !(s.dieOn && s.ptp.on && s.ptp.ports.contains port) then s else
    State.ptpSettle { s with ptp := { s.ptp with foreign := s.ptp.foreign.filter (fun x => x.1 != port),
                                                 silent := (port :: s.ptp.silent).eraseDups } })

/-! ## Frames (R385-R387) -/

/-- The frame passes its port's checks: FCS, VLAN and length. -/
def State.frameIn (s : State) (p : Nat) (f : EthFrame) : Bool × State :=
  let e := s.ethAt p
  if !f.fcsOk then (false, s.addCtr (ctrEth p 3) 1)
  else
    let s := (s.addCtr (ctrEth p 0) 1).addCtr (ctrEth p 4) f.length
    if f.length > (if f.tag.isSome then 1522 else 1518) then (false, s.addCtr (ctrEth p 2) 1)
    else (f.tag == (if e.vlan == 0 then none else some e.vlan), s)

/-- What the network protocols do with a frame that is neither Ruzia nor a stream (R386, R387). -/
def State.netIn (s : State) (p : Nat) (f : EthFrame) : State :=
  let e := s.ethAt p
  match f.body with
  | .arpRequest target =>
    if e.addr != 0 && target == e.addr then (s.emit (.ethSend p 0 [target])).txFrame p (64 + tagOctets s p) else s
  | .arpReply ip mac => s.arpLearn p ip mac
  | .igmpQuery => s.reportGroups p
  | .icmpEcho => if e.mgmt && e.addr != 0 then (s.emit (.ethSend p 3 [])).txFrame p f.length else s
  | .unsupported => s.addCtr (ctrEth p 2) 1
  | .rtp r => s.rtpIn p r
  | .ptp => s
  | .ruzia _ => s

end Sys2Proof.Machine
end

