-- ==== Sys2Proof/Machine/FieldIo.lean ====
section
/-! DEFINITION. Field inputs and outputs in operation (R425-R433): sampling, acceptance and functions of the GPIs, and the GPOs at
each tick boundary. -/
namespace Sys2Proof.Machine

/-! ## Inputs -/

def State.gpiAt (s : State) (g : Nat) : Gpi := s.gpi.getD g Gpi.reset

def State.setGpi (s : State) (g : Nat) (f : Gpi → Gpi) : State := { s with gpi := modAt s.gpi g f }

def gpiHandle (g : Nat) : Nat := portHandle (1024 + g)

/-- The reading of a level in mV; between the thresholds the last one holds (R425). -/
def readLevel (mv : Int) (last : Bool) : Bool := if mv > 2400 then true else if mv < 800 then false else last

/-- A level function's flag at an object: the OR of the GPIs bound to it (R431). -/
def fieldFlag (s : State) (fn h : Nat) : Bool := s.gpi.any fun g => g.function == fn && g.target == h && g.level

/-- The selected edge of an edge function. -/
def Gpi.hits (g : Gpi) (level : Bool) : Bool := g.edge == (if level then 0 else 1)

/-- A GPI freezes a Capture at an index of its domain; in another state than ROLLING it is ignored and reported (R278). -/
def State.fieldFreeze (s : State) (h f : Nat) : State :=
  match s.obj h with
  | none => s
  | some o =>
    match o.capture? with
    | none => s
    | some c =>
      if c.st == .rolling && c.release.isNone && !o.freeing then s.upd h fun x => x.freezeAt f
      else
        let code : Nat := match c.st with
          | .rolling => 0
          | .freezing => 1
          | .frozen => 2
          | .playing => 3
        s.raiseObj o.desk 0x1202 (le 4 h ++ le 1 code ++ le 3 0)

/-- SCENE_GO of a Scene: a recall at the next tick issued by its owning desk, its SEQUENCE open (R432, log entry 2). -/
def State.fieldRecall (s : State) (h : Nat) : State :=
  match s.obj h with
  | none => s
  | some o =>
    let (n, s) := s.drawNat
    let ones := List.replicate 4 (0xFF : Byte)
    let payload := le 4 h ++ ones ++ List.replicate 16 0 ++ (List.replicate 22 (0xFF : Byte)) ++ le 2 0
    let f : CmdFrame := { via := .pcie, desk := o.desk, seq := n % 2 ^ 32, flags := 0, res := 0, len := 48, payload := payload }
    match sceneRecallBody s f with
    | .ok (s', _) => s'
    | .error _ => s

/-- GPI_EDGE, at most 100 a second (R426). -/
def State.gpiEvent (s : State) (g : Nat) (level : Bool) (index : Nat) : State :=
  let x := s.gpiAt g
  if x.config.isEmpty then s else
  let sec := s.q / secondQ
  let n := if x.second == sec then x.inSecond else 0
  if n ≥ 100 then s.addCtr (ctrGpi g 1) 1
  else
    (s.setGpi g fun y => { y with second := sec, inSecond := n + 1 }).raiseObj x.owner 0x0907
      (le 4 (gpiHandle g) ++ le 1 (if level then 1 else 0) ++ le 1 x.function ++ le 2 0 ++ le 8 index)

/-- An accepted level comes into force: level functions follow it, SCENE_GO acts on its edge (R431, R432). -/
def State.applyGpi (s : State) (g : Nat) (level : Bool) : State :=
  let x := s.gpiAt g
  let s := s.setGpi g fun y => { y with level := level }
  if x.function == 6 && x.hits level then
    if hType x.target == tScene && (s.obj x.target).isSome then s.fieldRecall x.target
    else if s.isKeeper then s.release' x.target else s
  else s

/-- A change is accepted at the present instant (R425, R426, R433). -/
def State.acceptGpi (s : State) (g : Nat) : State :=
  let x := s.gpiAt g
  let level := x.reading
  let s := (s.setGpi g fun y => { y with accepted := level }).addCtr (ctrGpi g 0) 1
  if !s.decides then s else
  let s := s.gpiEvent g level (firstAt s.q (s.fs 0))
  let s := if x.function == 5 && x.hits level then
      match s.obj x.target with
      | some o =>
        let f := firstAt s.q (s.fs o.dom)
        (s.fieldFreeze x.target f).decision 7 x.target f 0
      | none => s
    else s
  s.decide 5 (gpiHandle g) (if level then 1 else 0) fun s => s.applyGpi g level

/-- One sample of one input. -/
def State.sampleGpi (s : State) (g : Nat) (mv : Int) : State :=
  let x := s.gpiAt g
  let r := readLevel mv x.reading
  let s := if r == x.reading && x.seen then s else s.setGpi g fun y => { y with reading := r, since := s.q, seen := true }
  let y := s.gpiAt g
  if y.reading == y.accepted then s
  else if !x.seen || y.debounce == 0 || y.since + y.debounce * (secondQ / 1000) ≤ s.q then s.acceptGpi g
  else s

/-- GPI_SAMPLE: every 50 us while the engine is RUNNING. -/
def execGpiSample (millivolts : List Int) (s : State) : Host.Outcome State Fault Refusal :=
  .next (if s.serving then (millivolts.take 32).zipIdx.foldl (fun s m => s.sampleGpi m.2 m.1) s else s)

/-- GPI_CHANGE_ACCEPTED: a new reading has held for DEBOUNCE ms. -/
def execGpiChangeAccepted (gpi : Nat) (s : State) : Host.Outcome State Fault Refusal :=
  let x := s.gpiAt gpi
  .next (if s.serving && gpi < 32 && x.seen && x.reading != x.accepted then
    (s.carryTo (x.since + x.debounce * (secondQ / 1000))).acceptGpi gpi
  else s)

/-! ## Outputs (R427, R428, R431) -/

/-- FADER_START: LEVEL above −∞, MUTE 0 and no cough, by the Strip's targets. -/
def faderOpen (s : State) (h : Nat) : Bool :=
  match s.obj h with
  | some o => match o.chan? with
    | some c =>
      let to_ (id : Nat) : Nat := match chanSpec c (s.mult o.dom) id with
        | some p => (valOf c.vals id p.dflt p.mode).written
        | none => 0
      to_ 0x0203 != minusInf && to_ 0x0204 == 0 && !(fieldFlag s 3 h)
    | none => false
  | none => false

/-- The state a GPO is commanded to. -/
def Gpo.target (g : Gpo) (s : State) : Bool :=
  match g.function with
  | 0 => g.want
  | 4 => faderOpen s g.source
  | n => fieldFlag s n g.source

/-- A GPO takes its commanded state at a tick boundary; an on-command after a retry that was not made counts as the retry. -/
def Gpo.tick (g : Gpo) (want : Bool) (q : Nat) : Gpo :=
  let g := { g with commanded := want }
  if !want || g.latched then
    { g with on := false, stuckTold := if g.on then false else g.stuckTold }
  else if g.trip == 1 then g
  else if g.trip == 3 then { g with on := true, trip := 2, retryAt := q }
  else { g with on := true }

/-- Every GPO at a domain A tick boundary. -/
def State.gpoTick (s : State) : State :=
  { s with gpo := s.gpo.map fun g => g.tick (g.target s) s.q }

end Sys2Proof.Machine
end

