-- ==== Sys2Proof/Machine/Opcodes.lean ====
section
/-! DEFINITION. The opcode table (R310, chapter 11): from an opcode to its command, family by family, and the outcome of deferred
commands once their bulk data has arrived (R298, R300). -/
namespace Sys2Proof.Machine

def commands01 : List RuziaOp :=
  [opSysInfo, opSysSnapshot, opSysRestart, opSysImageWrite]

def commands02 : List RuziaOp :=
  [opDeskInfo, opDeskOpen, opDeskClose, opDeskPing, opDeskAttach, opDeskKeySet, opDeskQuotaSet, opDeskDefaultsSet,
   opDeskEventReplay]

def commands03 : List RuziaOp :=
  [opStripInfo, opStripAlloc, opStripFree, opStripParamSet, opStripParamGet]

def commands04 : List RuziaOp :=
  [opBusInfo, opBusAlloc, opBusFree, opBusParamSet, opBusParamGet, opBusAttrSet, opBusLayout]

def commands05 : List RuziaOp :=
  [opNodeTilesInfo, opNodeTilesAlloc, opNodeTilesFree, opNodeTilesDefault, opNodeSet, opNodeBulk, opNodeGet]

def commands06 : List RuziaOp :=
  [opGroupInfo, opGroupAlloc, opGroupFree, opGroupSet, opGroupMemberSet]

def commands07 : List RuziaOp :=
  [opRingInfo, opRingAlloc, opRingFree, opRingDeep]

def commands08 : List RuziaOp :=
  [opRouteInfo, opRouteCreate, opRouteDelete, opRouteCut, opRouteKerf, opRouteSet, opRoutePolicy]

def commands09 : List RuziaOp :=
  [opPortInfo, opPortAssign, opPortTdmConfig, opPortSlotBind, opPortDitherSet, opPortQuadMode, opPortGpiBind, opPortGpoBind,
   opPortGpoSet, opPortGpoClear]

def commands0A : List RuziaOp :=
  [opStreamInfo, opStreamRxCreate, opStreamTxCreate, opStreamDelete, opStreamSdpGet, opStreamSdpSet, opSceneInfo,
   opSceneStore, opSceneDelete, opSceneRecall, opSceneCancel, opSceneArm, opSceneGo, opSceneSafeSet, opSceneNumberSet,
   opScenePlanGet, opDomainInfo, opDomainConfig, opDomainStart, opDomainStop, opDomainRateSet, opDomainBridgeAlloc,
   opDomainBridgeFree, opDomainBridgeInfo]

def commands0B : List RuziaOp :=
  [opTimingInfo, opTimingNow, opTimingRefConfig, opTimingPllSet, opTimingHoldoverSet, opTimingOffsetSet, opTimingSpliceSet,
   opTimingStickyClear, opTimingSelect]

def commands0C : List RuziaOp :=
  [opMeterInfo, opMeterAlloc, opMeterFree, opMeterTap, opMeterParamSet, opMeterLoudCtl]

def commands0D : List RuziaOp :=
  [opSvcInfo, opSvcAlloc, opSvcFree, opSvcParamSet, opSvcParamGet, opSvcTalk, opSvcSoloSet]

def commands0E : List RuziaOp :=
  [opRedInfo, opRedConfig, opRedSwitch, opRedRejoin]

def commands0F : List RuziaOp :=
  [opFaultLogGet, opFaultClear]

def commands10 : List RuziaOp :=
  [opSpareInfo, opSpareTest]

def commands11 : List RuziaOp :=
  [opBlockInfo, opBlockCeilingSet, opBlockPkgLoad, opBlockPkgUnload, opBlockPkgList, opBlockKeyslotProgram,
   opBlockKeyslotRevoke, opBlockCreate, opBlockFree, opBlockParamSet, opBlockParamGet]

def commands12 : List RuziaOp :=
  [opCaptureInfo, opCaptureAlloc, opCaptureFree, opCaptureFreeze, opCapturePlay, opCaptureStop, opCaptureRelease,
   opCaptureRead, opCaptureParamSet]

def commands13 : List RuziaOp :=
  [opSeamInfo, opSeamConfig, opSeamLand, opSeamFwdSet, opSeamFwdGet, opSeamIdSet, opSeamPSet, opSeamTest]

def commands14 : List RuziaOp :=
  [opEthInfo, opEthConfig, opEthPtpConfig]

/-- Every command of the table. -/
def commands : List RuziaOp :=
  commands01 ++ commands02 ++ commands03 ++ commands04 ++ commands05 ++ commands06 ++ commands07 ++ commands08 ++
  commands09 ++ commands0A ++ commands0B ++ commands0C ++ commands0D ++ commands0E ++ commands0F ++ commands10 ++ commands11 ++ commands12 ++ commands13 ++ commands14

/-- An opcode that is not known (R309 step 4). -/
def unknownOpcode (op : Nat) (f : CmdFrame) (s : State) : State :=
  if !takeable s f then s else
  match frameCheck f with
  | .error e => s.turnAway op f e
  | .ok _ =>
    match repeated s op f with
    | some s' => s'
    | none => if attached (s.desk f.desk) f.via then s.refusedWith op f { status := eOpcode } else s.turnAway op f { status := eOpcode }

/-- The row of an opcode. -/
def rowOf (op : Nat) : Option RuziaOp := commands.find? fun o => o.op == op

/-- Run the command of an opcode. -/
def runOpcode (op : Nat) (f : CmdFrame) (s : State) : State :=
  match rowOf op with
  | some o => if op == 0x0E02 then redSwitchState f s else ruziaState o f s
  | none => unknownOpcode op f s

/-! ## Bulk data -/

/-- The parameter writes that take bulk records: their opcode and their writer. -/
def bulkWriters : List (Nat × ParamWrite) :=
  [(0x0303, chanWrite), (0x0403, chanWrite), (0x0C04, meterWrite), (0x0D03, svcWrite), (0x1109, blockWrite), (0x1208, captureWrite)]

/-- Offset of the descriptor in a command's payload. -/
def bulkOffset (op : Nat) : Nat :=
  match op with
  | 0x0505 => 28
  | 0x1102 => 0
  | 0x0103 => 4
  | 0x0A05 => 0
  | 0x1303 => 24
  | _ => 32

/-- Bytes a job's data must have. -/
def Job.bulkLen (j : Job) : Nat := u32 j.frame (bulkOffset j.op + 4)

/-- The records of a parameter write arrive: written, or refused by the completion event (R309, R317). -/
def State.bulkParams (s : State) (j : Job) (write : ParamWrite) (data : List Byte) : State :=
  let recs := bulkRecords (data.length / 8 + 1) data
  let t := s.closeJob j
  match t.obj j.handle with
  | none => t.done j eHandle
  | some o =>
    match write t j.frame o recs with
    | .error e => t.done j e.status
    | .ok (_, t') => if t'.jobs.length > t.jobs.length then t' else t'.done j 0

/-- A job with its data. -/
def State.keepData (s : State) (j : Job) (data : List Byte) (stage : Nat) : State :=
  { s with jobs := s.jobs.map fun k => if k.order == j.order then { k with data := data, stage := stage } else k }

/-- A deferred command ends before its data is complete: its own completion event carries the status. -/
def State.endBulk (s : State) (j : Job) (status : Nat) : State :=
  match j.op with
  | 0x0505 => s.nodeStaged j status
  | 0x1102 => s.complete j 0x1102 status (le 4 0)
  | _ => s.done j status

/-- The data and then the command that has waited for it travel to the standbys (R467, R480). -/
def State.bulkDelta (s : State) (j : Job) (data : List Byte) : State :=
  match rowOf j.op with
  | some o =>
    if o.acc != .change then s else
    let s := { s with epoch := s.epoch + 1 }
    if s.red.role == .active then
      let resp := (((s.desk j.desk).kept.find? fun k => k.frame == j.frame).map (·.response)).getD []
      let d := [TetherRec.bulk j.seq j.desk 0 data, TetherRec.command s.epoch j.order j.op j.frame resp]
      s.onRed fun r => { r with sendDelta := r.sendDelta ++ d }
    else s
  | none => s

/-- All data of a command has arrived. Images, packages and node lists wait on for their own events. -/
def State.runBulk (s : State) (j : Job) (data : List Byte) : State :=
  if data.length != j.bulkLen then s.endBulk j eLength
  else
    let s := s.bulkDelta j data
    match bulkWriters.find? fun w => w.1 == j.op with
    | some w => s.bulkParams j w.2 data
    | none =>
      if j.op == 0x0A05 then s.sdpArrived { j with data := data }
      else if j.op == 0x1303 then s.fwdArrived j data
      else s.keepData j data 1

end Sys2Proof.Machine
end

