-- ==== Sys2Proof/Machine/Carriers.lean ====
section
/-! DEFINITION. The carriers of Ruzia frames: mailboxes (R286-R290), UDP datagrams (R291, R292), the Seam control channel (R294, R378,
R379), fragments and bulk transfers (R298-R300); and the arrival of Seam headers, segments and Ethernet frames, which carry them. -/
namespace Sys2Proof.Machine

/-- Count a protocol error of a desk (R287, R293). -/
def State.protoError (s : State) (d : Nat) : State :=
  (s.addCtr (ctrDesk d 0) 1).setDesk d fun k => { k with protoErrCount := min (k.protoErrCount + 1) 0xFFFFFFFF }

/-! ## Fragments (R299, R300) -/

/-- The job a desk's open collection gathers for. -/
def State.collectJob (s : State) (d : Nat) : Option (Collection × Job) :=
  match (s.desk d).collecting with
  | some c => (s.jobs.find? fun j => j.desk == d && j.seq == c.seq && j.stage == 0).map fun j => (c, j)
  | none => none

def State.closeCollection (s : State) (d : Nat) : State := s.setDesk d fun k => { k with collecting := none }

/-- Bytes a fragment of a collection has. -/
def fragmentLen (total i : Nat) : Nat := min 240 (total - 240 * i)

/-- A fragment arrives. -/
def State.fragmentIn (s : State) (f : Fragment) : State :=
  match s.collectJob f.desk with
  | none => s.protoError f.desk
  | some (c, j) =>
    if c.seq != f.seq || f.res != 0 || !(attached (s.desk f.desk) f.via) then s.protoError f.desk
    else match c.have_.find? fun p => p.1 == f.index with
      | some p => if p.2 == f.data then s else (s.closeCollection f.desk).endBulk j eLength
      | none =>
        if 240 * f.index ≥ c.total || f.len != f.data.length || f.data.length != fragmentLen c.total f.index then
          (s.closeCollection f.desk).endBulk j eLength
        else
          let c' := { c with have_ := (f.index, f.data) :: c.have_ }
          if c'.have_.length < ceilDiv c.total 240 then s.setDesk f.desk fun k => { k with collecting := some c' }
          else
            let data := (List.range c'.have_.length).flatMap fun i => ((c'.have_.find? fun p => p.1 == i).map (·.2)).getD []
            (s.closeCollection f.desk).runBulk j data

/-- FRAGMENT_RECEIVED. -/
def execFragmentReceived (f : Fragment) (s : State) : Host.Outcome State Fault Refusal :=
  .next (if s.serving && f.desk ≤ 16 then s.fragmentIn f else s)

/-- FRAGMENT_TIMEOUT: 1,000 ms without every fragment (R300). -/
def execFragmentTimeout (desk : Nat) (s : State) : Host.Outcome State Fault Refusal :=
  .next (if !s.serving then s else
    match s.collectJob desk with
    | some (_, j) => ((s.closeCollection desk).endBulk j eLength).mailboxFault desk 3
    | none => s)

/-- BULK_TRANSFER_DONE: the data of a MODE 1 command has come or its transfer failed; a command that sends data has sent it (R298). -/
def execBulkTransferDone (desk seq : Nat) (ok : Bool) (data : List Byte) (s : State) : Host.Outcome State Fault Refusal :=
  .next (if !s.serving then s else
    match s.jobs.find? fun j => j.desk == desk && j.seq == seq && (j.stage == 2 || (j.stage == 0 && (s.collectJob desk).all fun c => c.2.order != j.order)) with
    | none => s
    | some j =>
      if !ok then (s.endBulk j eRange).mailboxFault desk 4
      else if j.stage == 2 then (s.sendBulk j.frame j.num j.data).done j 0
      else s.runBulk j data)

/-! ## Frames -/

/-- A command frame read from bytes: opcode, frame. -/
def frameOf (via : Via) (bs : List Byte) : Nat × CmdFrame :=
  let n := fieldAt bs 2 2
  (fieldAt bs 0 2, { via := via, desk := fieldAt bs 8 2, seq := fieldAt bs 4 4, flags := fieldAt bs 10 2, res := fieldAt bs 12 4,
                     len := n, payload := (bs.drop 16).take n })

/-- A fragment frame read from bytes (R299). -/
def fragmentOf (via : Via) (bs : List Byte) : Fragment :=
  let n := fieldAt bs 2 2
  { via := via, desk := fieldAt bs 8 2, seq := fieldAt bs 4 4, len := n, index := fieldAt bs 12 4, res := fieldAt bs 10 2,
    data := (bs.drop 16).take n }

/-- A frame of either kind on a transport. -/
def State.frameBytes (s : State) (via : Via) (bs : List Byte) : State :=
  if fieldAt bs 0 2 == 0 then s.fragmentIn (fragmentOf via bs)
  else
    let (op, f) := frameOf via bs
    runOpcode op f s

/-! ## Mailboxes (R286-R290) -/

/-- Take the slot at CMD_HEAD of a PCIe ring, if one waits and an answer has room. -/
def State.takeSlot (s : State) (d : Nat) : State :=
  let k := s.desk d
  if !s.serving || ringHeld k.cmdTail k.cmdHead == 0 || !(rspFree s d) then s else
  let bs := s.read (slotAddr d 0 256 (k.cmdHead % 8)) 256
  let s := s.setDesk d fun k => { k with cmdHead := (k.cmdHead + 1) % 65536 }
  if fieldAt bs 8 2 != d then
    -- the slot cannot be a command of this ring: answered with the fields it holds (R289)
    let s := ((s.protoError d).addCtr (ctrDesk d 4) 1).mailboxFault d 2
    let op := fieldAt bs 0 2
    let e : Err := { status := eDenied }
    s.writeResponse d (le 2 op ++ le 2 e.bytes.length ++ le 4 (fieldAt bs 4 4) ++ le 2 (fieldAt bs 8 2) ++ le 2 eDenied ++
      le 4 (s.now % 2 ^ 32) ++ e.bytes)
  else s.frameBytes .pcie bs

/-- Up to eight slots of one ring. -/
def State.takeSlots (s : State) (d : Nat) : State := (List.range 8).foldl (fun s _ => s.takeSlot d) s

/-- A host counter write that R289 discards. -/
def State.pointerError (s : State) (d : Nat) : State :=
  ((s.protoError d).setDesk d fun k => { k with protoErr := true }).mailboxFault d 1

/-- `CMD_TAIL_WRITE`. -/
def execCmdTailWrite (desk value : Nat) (s : State) : Host.Outcome State Fault Refusal :=
  let k := s.desk desk
  .next (if !s.dieOn || desk > 16 then s
    else if ringHeld value k.cmdHead ≤ 8 && ringHeld value k.cmdHead ≥ ringHeld k.cmdTail k.cmdHead then
      s.setDesk desk fun k => { k with cmdTail := value % 65536 }
    else s.pointerError desk)

/-- `RSP_HEAD_WRITE`. -/
def execRspHeadWrite (desk value : Nat) (s : State) : Host.Outcome State Fault Refusal :=
  let k := s.desk desk
  .next (if !s.dieOn || desk > 16 then s
    else if ringHeld k.rspTail value ≤ ringHeld k.rspTail k.rspHead then s.setDesk desk fun k => { k with rspHead := value % 65536 }
    else s.pointerError desk)

/-- `EVT_HEAD_WRITE`. -/
def execEvtHeadWrite (desk value : Nat) (s : State) : Host.Outcome State Fault Refusal :=
  let k := s.desk desk
  .next (if !s.dieOn || desk > 16 then s
    else if ringHeld k.evtTail value ≤ ringHeld k.evtTail k.evtHead then s.setDesk desk fun k => { k with evtHead := value % 65536 }
    else s.pointerError desk)

/-- `RING_CMD`: the doorbell; the waiting slots are taken in ring order (R288, R290). -/
def execRingCmd (desk : Nat) (s : State) : Host.Outcome State Fault Refusal :=
  .next (if desk ≤ 16 then s.takeSlots desk else s)

/-- `RING_RSP`: freed response slots let waiting commands be taken. -/
def execRingRsp (desk : Nat) (s : State) : Host.Outcome State Fault Refusal :=
  .next (if desk ≤ 16 then s.takeSlots desk else s)

/-- `RING_EVT`: freed event slots let events be delivered. -/
def execRingEvt (desk : Nat) (s : State) : Host.Outcome State Fault Refusal :=
  .next (if s.serving && desk ≤ 16 then s.deliver desk else s)

/-- `CMD_TAIL_POLL`: once per domain A ashlar; rounds of one command of each desk in ascending order (R288, R301). -/
def execCmdTailPoll (s : State) : Host.Outcome State Fault Refusal :=
  .next ((List.range 8).foldl (fun s _ => (List.range 17).foldl (fun s d => s.takeSlot d) s) s)

/-- `MAILBOX_FLAGS_CLEAR`: EVT_LOST and PROTO_ERR are W1C. -/
def execMailboxFlagsClear (desk mask : Nat) (s : State) : Host.Outcome State Fault Refusal :=
  .next (if s.dieOn && desk ≤ 16 then
    s.setDesk desk fun k => { k with evtLost := k.evtLost && !(bit mask 2), protoErr := k.protoErr && !(bit mask 3) } else s)

/-- `PROTO_ERR_COUNT_READ`: a read clears the count. -/
def execProtoErrCountRead (desk : Nat) (s : State) : Host.Outcome State Fault Refusal :=
  .next (if s.dieOn && desk ≤ 16 then
    (s.emit (.readData 1 (0x10020000 + 0x40 * desk + 0x24) (le 4 (s.desk desk).protoErrCount))).setDesk desk fun k => { k with protoErrCount := 0 }
  else s)

/-! ## UDP (R291, R292) -/

/-- AUTH_FAILED to desk 0, at most once a second for each source address. -/
def State.authFailed (s : State) (d : Datagram) : State :=
  let s := s.addCtr (ctrDesk d.desk 1) 1
  let recent := (s.desk d.desk).authWarned.filter fun w => s.q < w.2 + secondQ
  if recent.any fun w => w.1 == d.addr then s
  else
    let s := s.setDesk d.desk fun k => { k with authWarned := (d.addr, s.q) :: recent }
    s.raise0 0x0204 (le 2 d.desk ++ le 2 0 ++ le 4 d.addr ++ le 2 d.srcPort ++ le 2 0 ++ le 4 (s.ctr (ctrDesk d.desk 1)))

/-- The checks a datagram passes before its frame is read. -/
def datagramOk (s : State) (d : Datagram) : Bool :=
  d.magicOk && d.version == 0x32 && (d.kind == 1 || d.kind == 4) && 16 ≤ d.frameLen && d.frameLen ≤ 256 &&
  d.bytes.length == d.frameLen && !(s.desk d.desk).key.isEmpty && d.macOk

/-- A datagram on a port of the management VLAN. -/
def State.datagramIn (s : State) (d : Datagram) : State :=
  if !s.serving || d.desk > 16 || !(s.ethAt d.port).mgmt || !(s.ethAt d.port).carries then s
  else if !(datagramOk s d) then s.authFailed d
  else
    let via := Via.udp d.addr d.srcPort
    let (op, f) := frameOf via d.bytes
    if d.kind == 4 then (if f.desk == d.desk then s.fragmentIn (fragmentOf via d.bytes) else s)
    else if f.desk != d.desk then
      let bs := responseBytes op f eDenied s.now (Err.bytes { status := eDenied })
      (s.addCtr (ctrDesk d.desk 4) 1).emit (.datagram d.addr d.srcPort 2 d.desk bs)
    else runOpcode op f s

/-- `UDP_DATAGRAM_RECEIVED`. -/
def execUdpDatagramReceived (d : Datagram) (s : State) : Host.Outcome State Fault Refusal := .next (s.datagramIn d)

/-- `ETH_FRAME_RECEIVED` (R385-R387). -/
def execEthFrameReceived (port : Nat) (f : EthFrame) (s : State) : Host.Outcome State Fault Refusal :=
  .next (if !(s.dieOn && (s.ethAt port).carries) then s else
    let (ok, s) := s.frameIn port f
    if !ok then s else
    match f.body with
    | .ruzia d => s.datagramIn { d with port := port }
    | _ => s.netIn port f)

/-! ## The Seam control channel (R378, R379) -/

/-- A record addressed to this engine, or to every engine. -/
def State.consume (s : State) (r : CtrlRec) : State :=
  match r.typ with
  | 1 => if s.serving then s.frameBytes (.seam r.src) r.body else s
  | 2 => s.quarryRecord r.src r.body
  | 3 => s.reportIn r.src (reportOf (r.body.length / 12) r.body)
  | 4 => s.settingIn r.src r.body
  | _ => s

/-- An engine heard of through its records. -/
def State.hear (s : State) (e : Nat) : State :=
  if s.isKeeper || e == s.extId || s.quarry.engines.contains e then s else s.onQuarry fun q => { q with engines := q.engines ++ [e] }

/-- One record arrives: consumed, relayed, or both; one that arrives with TTL 0 is dropped. -/
def State.recordIn (s : State) (l : Nat) (r : CtrlRec) : State :=
  if s.extId == 0 || r.ttl == 0 then s
  else
    let s := s.hear r.src
    if r.dst == s.extId then s.consume r
    else if r.dst == 0xFFFF then (s.relay l r).consume r
    else s.relay l r

/-- The records of a field: TYPE 0 ends the sequence. -/
def State.recordsIn (s : State) (l : Nat) : List CtrlRec → State
  | [] => s
  | r :: rs => if r.typ == 0 then s else State.recordsIn (s.recordIn l r) l rs

/-- `SEAM_CONTROL_RECORD`. -/
def execSeamControlRecord (lane : Nat) (r : CtrlRec) (s : State) : Host.Outcome State Fault Refusal :=
  .next (if s.dieOn && (s.lane lane).isUp && r.typ != 0 then s.recordIn lane r else s)

/-- A lane that takes in frames: its quad in Seam mode, training, up or degraded. -/
def hears (s : State) (l : Nat) : Bool := s.dieOn && seamMode s l && ((s.lane l).isUp || (s.lane l).st == .training)

/-- Far-end loopback: the peer asks for its characters back while this lane trains (R374). -/
def loopsBack (s : State) (l : Nat) : Bool := (s.lane l).st == .training && bit (s.lane l).topo 4

/-- `SEAM_HEADER_RECEIVED` (R363, R373, R376, R377). -/
def execSeamHeaderReceived (lane : Nat) (h : SeamHdr) (s : State) : Host.Outcome State Fault Refusal :=
  .next (if !(hears s lane) then s
    else if !(h.ok && h.ashOk) then s.headerBad lane
    else
      let s := s.headerIn lane h
      let s := if loopsBack s lane then s.emit (.seamFrame lane h) else s
      if (s.lane lane).isUp then s.recordsIn lane h.records else s)

/-- `SEGMENT_RECEIVED` (R363, R366, R370, R373). -/
def execSegmentReceived (lane position : Nat) (g : Segment) (s : State) : Host.Outcome State Fault Refusal :=
  .next (if !(hears s lane) then s
    else if loopsBack s lane then s.emit (.seamData lane position g.ashlar g.seg g.payload)
    else if !(s.lane lane).isUp then s
    else
      let (rs, s) := s.segmentIn lane position g
      s.recordsIn lane rs)

end Sys2Proof.Machine
end

