-- ==== Sys2Proof/Machine/Tether.lean ====
section
/-! DEFINITION. Tether (R463-R485): what a received frame does, the delta records and their application on a standby, the configuration
and state images of a rejoin, the sweep comparison and the vote, and the frame a member sends. -/
namespace Sys2Proof.Machine

/-! ## Delta records on a standby (R461, R467) -/

/-- The clock as it stood in the ashlar two before the one a delta applies in, where its command was accepted. -/
def State.backTo (s : State) (a : Nat) : State :=
  { s with clk := { s.clk with raw := rawFor s.clk (instantOf (8 * a) (s.fs 0)) } }

/-- The handles of a response, one of each type in order of the payload: what the command's objects take (R483). -/
def wantedHandles (resp : List Byte) : List (Nat × Nat × Nat) :=
  let n := fieldAt resp 2 2
  ((List.range (n / 4)).map fun k => fieldAt resp (16 + 4 * k) 4).filterMap fun h =>
    if 1 ≤ hType h && hType h ≤ 14 then some (hType h, hIdx h, hGen h) else none

def State.wantHandles (s : State) (resp : List Byte) : State :=
  let hs := wantedHandles resp
  { s with tabs := s.tabs.zipIdx.map fun t =>
      { t.1 with want := (hs.filter fun h => h.1 == t.2 && t.1.freed.contains h.2.1 || h.1 == t.2 && t.1.gens.all (fun p => p.1 != h.2.1)).map
                           fun h => (h.2.1, h.2.2) } }

def State.wantNothing (s : State) : State := { s with tabs := s.tabs.map fun t => { t with want := [] } }

/-- A COMMAND record: its body runs as it ran on the active, at ashlar `a`; the response is kept and not sent (R308, R463). A command
this member cannot apply makes it STALE (R462). -/
def State.applyCommand (s : State) (a e op : Nat) (f : CmdFrame) (resp : List Byte) : State :=
  match rowOf op with
  | none => s.goStale
  | some o =>
    let raw := s.clk.raw
    match o.body ((s.backTo a).wantHandles resp) f with
    | .error _ => s.goStale
    | .ok (t, r) =>
      let bs := if resp.isEmpty then responseBytes op f r.status t.now (okPayload f r) else resp
      let t := (t.setDesk f.desk fun k => { (k.keep op f bs) with collecting := none }).wantNothing
      let t : State := { t with clk := { t.clk with raw := raw }, epoch := e }
      match t.red.bulks.find? fun b => b.1 == f.seq && b.2.1 == f.desk, t.jobs.find? fun j => j.desk == f.desk && j.seq == f.seq && j.stage == 0 with
      | some b, some j =>
        let t := t.onRed fun x => { x with bulks := x.bulks.filter (· != b) }
        { t.runBulk j b.2.2.2 with epoch := e }
      | _, _ => t

/-- A guarantee break of the active's (R353, R357). -/
def State.applyBreak (s : State) (h : Nat) (value : Int) : State :=
  let v := twos 64 value
  let keeper := s.obj (v / 2 ^ 32)
  match s.obj h with
  | none => s
  | some o =>
    match o.kind, keeper with
    | .stream _, k => s.stopStream k o
    | .tiles _, some k =>
      (s.upd o.handle fun x => x.onTiles fun t =>
        { t with pend := [], nodes := t.nodes.map (fun n => n.aim minusInf n.pan 480), release := some (s.ash o.dom + 61) }).guaranteeBroken 4 5
          (some k) (some o)
    | .block _, some k => s.yieldItem k o
    | .meter _, some k => s.yieldItem k o
    | _, k => s.guaranteeBroken 2 (v % 256) k (some o)

/-- A DECISION record (R461, R467). -/
def State.applyDecision (s : State) (kind h i : Nat) (value : Int) : State :=
  let p := hIdx h
  match kind with
  | 1 => s.setPort p fun t => t.takeSlip i value.toNat
  | 2 => s.setPort p fun t => { t with paired := false }
  | 3 => if value == 1 then s.clockLost p else s.clockBack p
  | 4 => s.suspectSlot p (value.toNat % 256) (value.toNat / 256 % 256)
  | 5 =>
    let g := p - 1024
    let s := if s.decides then s else
      let (n, s) := s.drawNat
      s.gpiEvent g (value == 1) n
    s.applyGpi g (value == 1)
  | 6 =>
    let g := p - 1056
    let s := if value == 2 then s.setGpo g fun x => { x with on := false, latched := true, trip := 0 } else s
    s.gpoTrip g value.toNat
  | 7 => s.fieldFreeze h i
  | 8 =>
    let sel := selCode s.timing.selected
    s.onTiming fun t => { t with stepDue := some (value, i, sel, sel) }
  | 9 => (s.startTimeSet 0 0 0 value.toNat).stick 3
  | 10 => { s.applyBreak h value with epoch := s.epoch + 1 }
  | _ => s

/-- The state of one item arrives, its words open (R483, log entry 2). -/
def State.applyItem (s : State) (h sub : Nat) : State :=
  let (ws, s) := s.drawN 4
  s.upd h fun o => match o.kind with
    | .chan c =>
      if sub < 0x100 then o else
      { o with kind := .chan { c with chans := modAt c.chans (sub - 0x100) fun x =>
          { x with x1 := ws.getD 0 0, y1 := ws.getD 1 0, sx1 := ws.getD 2 0, sy1 := ws.getD 3 0 } } }
    | .bridge b => { o with kind := .bridge { b with hist := b.hist.map fun l => l.map fun _ => ws.getD 0 0 } }
    | _ => o

/-- One record at the boundary it applies at; the active's own decisions come round to it too. -/
def State.applyRecord (s : State) (r : TetherRec) (a : Nat) : State :=
  match r with
  | .command e _ op f resp => s.applyCommand a e op f resp
  | .bulk q d o data => s.onRed fun x => { x with bulks := x.bulks ++ [(q, d, o, data)] }
  | .decision k o i v => s.applyDecision k o i v
  | .delivered d e n => s.setDesk d fun k => { k with reported := some e, newest := n }
  | .item h sub => s.applyItem h sub
  | .stateEnd => s.onRed fun x => if x.rejoin == 2 then { x with rejoin := 3, rejoinFrom := s.q } else x
  | .imageEnd => s
  | .switch _ _ => s

/-- The records due at the boundary of a domain A slot. -/
def State.applyDeltas (s : State) (slot : Nat) : State :=
  let due := s.red.deltas.filter fun d => d.1 ≤ slot
  let s := s.onRed fun r => { r with deltas := r.deltas.filter fun d => !(d.1 ≤ slot) }
  due.foldl (fun s d => s.applyRecord d.2 (slot - 2)) s

/-! ## Frames received (R465-R468) -/

/-- A SWITCH record: the boundary is known, and a `red.switch` this member relayed is answered (R485). -/
def State.switchRecord (s : State) (t b : Nat) : State :=
  let s := s.onRed fun r => { r with switchDue := some (t, b) }
  match s.red.relay with
  | some f =>
    if t != s.engineId then s else
    let bs := responseBytes 0x0E02 f 0 s.now (if bit f.flags 0 then [] else le 8 b)
    let s := s.onRed fun r => { r with relay := none }
    (((s.addCtr (ctrDesk f.desk 3) 1).setDesk f.desk fun k => k.keep 0x0E02 f bs)).respond f bs
  | none => s

/-- A `red.switch` relayed by its TARGET to the active. -/
def State.relayedSwitch (s : State) (f : CmdFrame) : State :=
  match redSwitchBody s f with
  | .ok (s', _) => s'
  | .error _ => s

/-- One record of a frame for ashlar `a`: it waits for its boundary, but for what acts as it comes. -/
def State.takeRecord (s : State) (a : Nat) (r : TetherRec) : State :=
  match r with
  | .switch t b => s.switchRecord t b
  | .command _ _ op f _ =>
    if s.red.role == .active then (if op == 0x0E02 then s.relayedSwitch f else s)
    else s.onRed fun x => { x with deltas := x.deltas ++ [(a + 2, r)] }
  | _ => if s.red.role == .active then s else s.onRed fun x => { x with deltas := x.deltas ++ [(a + 2, r)] }

/-- The configuration image is applied as it comes; its end lets the deltas in (R483 step 1). -/
def State.takeConfig (s : State) (r : TetherRec) : State :=
  if s.red.rejoin != 1 then s else
  match r with
  | .imageEnd => s.onRed fun x => { x with rejoin := 2 }
  | .command _ _ _ _ _ => s.applyRecord r s.now
  | .bulk _ _ _ _ => s.applyRecord r s.now
  | _ => s

/-- A standby-ready member has missed a frame of the active's, or a frame came past its boundary (R462). -/
def tetherGap (s : State) (p : Peer) (f : TetherFrame) : Bool :=
  s.red.role == .standby && p.hdr.role == 1 && f.hdr.role == 1 && p.seen && !p.lost &&
    (f.hdr.ashlar > p.hdr.ashlar + 1 || (f.hdr.ashlar + 2 < s.now && !f.records.isEmpty))

/-- A valid header: the heartbeat, acknowledgements, and the end of a fence against a member that reports READY (R463, R468, R478). -/
def State.heardHeader (s : State) (i : Nat) (f : TetherFrame) : State :=
  let h := f.hdr
  let s := s.setPeer i fun p =>
    { p with seen := true, lost := p.lost && h.ready, hdr := h, acked := h.ackEpoch,
             digest := (match f.digest with | some d => some (h.ashlar, d.toNat) | none => p.digest),
             votes := if f.digest.isSome then f.votes else p.votes,
             sending := p.sending && h.rejoin }
  let s := if s.red.fenceOut && s.red.against == h.member && h.ready then s.onRed fun r => { r with fenceOut := false, against := 0 } else s
  let s := if h.role == 1 && s.red.switchDue.any (fun d => d.1 == h.member) then s.onRed fun r => { r with switchDue := none } else s
  s.releaseHeld

/-- A Tether frame from a peer. -/
def State.tetherIn (s : State) (i : Nat) (f : TetherFrame) : State :=
  match s.peer i with
  | none => s
  | some p =>
    let gap := tetherGap s p f
    let s := (s.heardHeader i f).form
    let s := if gap then s.goStale else s
    -- two members that both report ACTIVE (R479)
    let s := if s.red.role == .active && f.hdr.role == 1 && f.hdr.claim > s.red.claimNow then s.goStale else s
    let s := if f.hdr.role == 1 then f.config.foldl (fun s r => s.takeConfig r) s else s
    let takes := s.red.role == .standby || s.red.rejoin ≥ 2 || s.red.role == .active
    let s := if takes then f.records.foldl (fun s r => s.takeRecord f.hdr.ashlar r) s else s
    if f.hdr.role == 1 && s.red.rejoin ≥ 2 then f.state.foldl (fun s r => s.takeRecord f.hdr.ashlar r) s else s

/-- TETHER_FRAME_RECEIVED. -/
def execTetherFrameReceived (peer : Nat) (f : TetherFrame) (s : State) : Host.Outcome State Fault Refusal :=
  .next (if s.dieOn && s.red.mode != 0 then s.tetherIn peer f else s)

/-! ## Sweep and vote (R469-R472) -/

/-- The items of a member's DSP state by key (R469). -/
def sweepItems (s : State) : List (Nat × Nat) :=
  (s.objs.flatMap fun o => match o.kind with
    | .block _ => [(o.handle, 0)]
    | .chan c => if c.role == 0 then (List.range c.width).map fun k => (o.handle, 0x100 + k) else []
    | .tiles t => (List.range t.tiles.length).map fun k => (o.handle, k)
    | .bridge _ => [(o.handle, 0)]
    | _ => []).inOrder fun a b => a.1 < b.1 || (a.1 == b.1 && a.2 ≤ b.2)

/-- The slice of an item. -/
def sliceOf (k : Nat × Nat) : Nat := (hIdx k.1 + k.2) % 128

/-- RED_SWEEP_MISMATCH, counted. -/
def State.sweepMismatch (s : State) (a : Nat) : State :=
  let s := s.addCtr ctrSweep 1
  let s := s.raise0 0x0E03 (le 2 s.engineId ++ le 2 0 ++ le 4 (a % 128) ++ le 8 (s.ctr ctrSweep))
  if s.red.role == .standby then s.goStale
  else s.onRed fun r => if r.rejoin == 3 then { r with rejoinFrom := s.q } else r

/-- In a pair each member compares the digests of ashlar `a` (R471); a standby or a member in the last step of its rejoin with the
active, and the active with a standby-ready peer. -/
def State.comparePair (s : State) (a : Nat) : State :=
  match s.red.mine.find? fun m => m.1 == a, s.red.peers.head? with
  | some m, some p =>
    let both := (p.hdr.role == 1 && (s.red.role == .standby || s.red.rejoin == 3)) || (s.red.role == .active && p.awaited)
    if both && p.digest.any fun d => d.1 == a && d.2 != m.2.1 then s.sweepMismatch a else s
  | _, _ => s

/-- The members of a triad that stand alone in entry `k` of three sets: 0 this one, 1 and 2 its peers; `none` where all three differ. -/
def oddOne (x y z : Option Nat) : List (Option Nat) :=
  if x == y && y == z then [] else if x == y then [some 2] else if x == z then [some 1] else if y == z then [some 0] else [none]

/-- A member is voted out: reported, and fenced by the two others (R472, R478). -/
def State.voteOut (s : State) (i a ports : Nat) : State :=
  match s.peer i with
  | none => s
  | some p =>
    let s := s.raise0 0x0E06 (le 2 p.id ++ le 2 ports ++ le 8 a)
    let s := s.onRed fun r => { r with fenceOut := true, against := p.id }
    (s.setPeer i fun p => { p with hdr := { p.hdr with ready := false, role := 3, claim := 0 } }).peerLostEvent p.id 3

/-- The vote of a triad over ashlar `a`, by a member that holds all three sets. -/
def State.compareTriad (s : State) (a : Nat) : State :=
  match s.red.mine.find? fun m => m.1 == a, s.red.peers with
  | some m, [p, q] =>
    match p.digest, q.digest with
    | some dp, some dq =>
      if dp.1 != a || dq.1 != a || p.lost || q.lost then s else
      let look (l : List (Nat × Nat)) (k : Nat) : Option Nat := (l.find? fun v => v.1 == k).map (·.2)
      let keys := ((m.2.2 ++ p.votes ++ q.votes).map (·.1)).eraseDups
      let ports := keys.map fun k => oddOne (look m.2.2 k) (look p.votes k) (look q.votes k)
      let odd := (oddOne (some m.2.1) (some dp.2) (some dq.2) ++ ports.flatten).eraseDups
      let n := (ports.filter fun x => !x.isEmpty).length
      match odd with
      | [] => s
      | [some 0] => s
      | [some k] => s.voteOut (k - 1) a n
      | _ =>
        let s := s.addCtr ctrSweep 1
        s.raise0 0x0E03 (le 2 s.engineId ++ le 2 0 ++ le 4 (a % 128) ++ le 8 (s.ctr ctrSweep))
    | _, _ => s
  | _, _ => s

/-- Compare ashlar `a` at its boundary. A member that is forming or takes no part compares nothing. -/
def State.compareSets (s : State) (a : Nat) : State :=
  if s.red.role == .forming || s.red.role == .single then s
  else if s.red.mode == 1 then s.comparePair a
  else if s.red.mode == 2 && (s.red.role == .active || s.red.role == .standby) then s.compareTriad a
  else if s.red.rejoin == 3 then s.comparePair a
  else s

/-- Own digest, open, and votes of an ashlar are kept until they have been compared (log entry 2). -/
def State.keepVotes (s : State) (a : Nat) (votes : List (Nat × Nat)) : State :=
  if s.red.mode == 0 then s else
  let (d, s) := s.drawNat
  s.onRed fun r => { r with mine := ((a, d % 2 ^ 64, if r.mode == 2 then votes else []) :: r.mine).take 4 }

/-! ## The member's own frame and the end of a rejoin -/

/-- Longest time any history in DRAM takes to fill, in quarry time units (R483 step 4). -/
def refillTime (s : State) : Nat :=
  (s.objs.map fun o =>
    let d := if o.dom ≤ 2 then o.dom else 0
    let n : Nat := match o.kind with
      | .chan c => if delayTake c (s.mult d) > 0 then c.delayMax (s.mult d) else 0
      | .ring r => if r.depth > 128 then 8 * r.depth else 0
      | .capture c => c.length
      | _ => 0
    instantOf n (s.fs d)).foldl max 0

/-- A rejoin is complete: histories refilled and one whole sweep without a mismatch (R483). -/
def State.rejoinStep (s : State) : State :=
  if s.red.rejoin != 3 || s.q < s.red.rejoinFrom + refillTime s + instantOf 1024 (s.fs 0) then s else
  let s := s.raise0 0x0E05 (le 8 s.epoch)
  let s := (s.onRed fun r => { r with rejoin := 0, ready := true }).setRole .standby
  s.redDone 0x0E03 0

/-- A switch whose boundary has come: the old active gives up its outputs and stays standby-ready (R485); and a member leaves the set
at the boundary after the loss that makes it (R462). -/
def State.boundaryRoles (s : State) (slot : Nat) : State :=
  let s := if s.red.leaving then (s.onRed fun r => { r with leaving := false }).goStale else s
  match s.red.switchDue with
  | some (t, b) =>
    if s.red.role == .active && slot ≥ b && t != s.engineId then
      (s.onRed fun r => { r with ownOut := false, settle := false, ready := true, switchDue := none }).setRole .standby
    else s
  | none => s

/-- The Tether header of a member (R465). -/
def State.tetherHeader (s : State) (a : Nat) : TetherHdr :=
  let r := s.red
  { ashlar := a, member := s.engineId, setId := s.extId, mode := r.mode, role := r.role.code, claim := r.claimNow, own := r.ownOut,
    fence := r.fenceOut, ready := r.ready, rejoin := r.rejoin == 1, epoch := s.epoch, ackEpoch := s.epoch,
    peers := r.peers.map (·.id) }

/-- What the active sends a member that has asked for its image: the marker of an image (its records are the firmware's choice), the
items of R469, and their end. -/
def State.imageFor (s : State) (p : Peer) : List TetherRec × List TetherRec :=
  if s.red.role == .active && p.hdr.rejoin && !p.sending then
    ([.imageEnd], (sweepItems s).map (fun k => .item k.1 k.2) ++ [.stateEnd])
  else ([], [])

/-- One frame on each Tether lane for ashlar `a` (R465, R466). -/
def State.sendTether (s : State) (a : Nat) : State :=
  if s.red.mode == 0 then s else
  let own := s.red.mine.find? fun m => m.1 == a
  let h := s.tetherHeader a
  let s := s.red.peers.zipIdx.foldl (fun s p =>
    let image := s.imageFor p.1
    let f : TetherFrame := { hdr := h, records := s.red.sendDelta, config := image.1, state := image.2, slice := a % 128,
                             digest := own.map (fun m => BitVec.ofNat 64 m.2.1), votes := (own.map (·.2.2)).getD [] }
    let s := s.setPeer p.2 fun x => if image.1.isEmpty then x else { x with sending := true }
    s.emit (.tether p.2 f)) s
  s.onRed fun r => { r with sendDelta := [] }

/-- Everything of a set that a domain A slot boundary brings, before the slot's audio. -/
def State.redBoundary (s : State) (slot : Nat) : State :=
  if s.red.mode == 0 then s else
  (((s.applyDeltas slot).boundaryRoles slot).compareSets (slot - 2)).rejoinStep

end Sys2Proof.Machine
end

