-- ==== Sys2Proof/Machine/Registers.lean ====
section
/-! DEFINITION. The host interface (chapter 20): the registers of BAR0, the counter copies of BAR2, the internal address map and its
protection, misfits and violations, and the mailbox window. A host access to BAR0 offset o is an access of master M1 to internal
address 0x00_1000_0000 + o, the mailbox window included (log entry 64). -/
namespace Sys2Proof.Machine

def barBase : Nat := 0x10000000

def lo32 (n : Nat) : Nat := n % 2 ^ 32

def hi32 (n : Nat) : Nat := n / 2 ^ 32 % 2 ^ 32

/-! ## Registers, by BAR0 offset -/

/-- R524. -/
def identReg (s : State) (o : Nat) : Nat :=
  match o with
  | 0x00 => 0x43454096
  | 0x04 => 0x00B0
  | 0x08 => if s.sv.st == .running then 0x0302 else 0
  | 0x0C => s.host.image
  | 0x10 => s.host.imageSlot + 16 * s.host.strap
  | 0x14 => s.engineId
  | 0x18 => lo32 Config.macBase.toNat
  | 0x1C => hi32 Config.macBase.toNat
  | 0x20 => lo32 Config.serial.toNat
  | 0x24 => hi32 Config.serial.toNat
  | 0x28 => (if s.sv.st == .running then 4 else 3) + flagAt s.halted 8
  | _ => 0

/-- R525. -/
def statusReg (s : State) (o : Nat) : Nat :=
  let h := s.host
  match o with
  | 0x00 => h.misfitCount
  | 0x04 => lo32 h.misfit.addr
  | 0x08 => hi32 h.misfit.addr % 256 + 256 * h.misfit.master + flagAt h.misfit.write 11 + 65536 * (if h.misfit.bytes ≥ 256 then 0 else h.misfit.bytes)
  | 0x0C => h.rvCount
  | 0x10 => lo32 h.rv.addr
  | 0x14 => hi32 h.rv.addr % 256 + 256 * h.rv.master + flagAt h.rv.write 11
  | 0x18 => flagAt h.snapIrqEn 0 + flagAt h.meterIrqEn 1 + flagAt h.haltIrqEn 2 + flagAt h.violIrqEn 3
  | 0x1C => h.irqStatus
  | _ => 0

/-- R527. -/
def captureReg (s : State) (o : Nat) : Nat :=
  let h := s.host
  let sec := h.capQ / secondQ
  match o with
  | 0x04 => h.capSeq
  | 0x08 => lo32 sec
  | 0x0C => hi32 sec % 65536
  | 0x10 => h.capQ % secondQ / 65536
  | 0x14 => h.capQ % 65536
  | 0x18 => lo32 h.capRaw
  | 0x1C => hi32 h.capRaw
  | 0x20 => lo32 (h.capIdx.getD 0 0)
  | 0x24 => hi32 (h.capIdx.getD 0 0)
  | 0x28 => lo32 (h.capIdx.getD 1 0)
  | 0x2C => hi32 (h.capIdx.getD 1 0)
  | 0x30 => lo32 (h.capIdx.getD 2 0)
  | 0x34 => hi32 (h.capIdx.getD 2 0)
  | _ => 0

def maskOf (l : List Bool) : Nat := sumNat (l.zipIdx.map fun p => flagAt p.1 p.2)

/-- Port status as it stands, without the words that are zero (R528). -/
def portStatus (s : State) : List (Nat × Nat) :=
  let ports := (List.range 128).flatMap fun p =>
    let t := s.port p
    [(0x2100 + 8 * p, sumNat (t.suspect.eraseDups.map fun k => 2 ^ k)), (0x2104 + 8 * p, sumNat (t.muted.eraseDups.map fun k => 2 ^ k))]
  let links := (List.range 4).map fun w =>
    (0x2610 + 4 * w, maskOf ((List.range 32).map fun b => tdmLink s (s.port (32 * w + b))))
  let io := [(0x2600, maskOf (s.gpi.map (·.level))), (0x2604, maskOf (s.gpo.map (·.on))), (0x2608, maskOf (s.gpo.map (·.latched)))]
  (ports ++ io ++ links).filter fun p => p.2 != 0

/-- R528. -/
def portReg (s : State) (o : Nat) : Nat :=
  if o == 0x2000 then sumNat (s.host.bankVio.zipIdx.map fun p => p.1 % 4 * 4 ^ p.2) else assoc s.host.status o

/-- A signed value limited to 32 bits. -/
def sat32 (e : Int) : Nat := twos 32 (max (-(2 ^ 31)) (min (2 ^ 31 - 1) e))

/-- R454. -/
def timingReg (s : State) (o : Nat) : Nat :=
  let t := s.timing
  match o with
  | 0x00 => t.st.code + flagAt t.expired 3 + flagAt t.forced.isSome 4 + 256 * selCode t.selected + 65536 * s.qualityOut + 2 ^ 24 * t.bandwidth
  | 0x04 => twos 32 t.steer
  | 0x08 => lo32 s.clk.rate
  | 0x0C => hi32 s.clk.rate % 65536
  | 0x10 => match t.selected with
    | some c => sat32 (t.cands.getD c Cand.reset).e
    | none => 0
  | 0x14 => t.sticky
  | 0x18 => t.stickyIrqEn
  | 0x1C => holdRemain s
  | 0x20 => lo32 (twos 64 t.lastStep)
  | 0x24 => hi32 (twos 64 t.lastStep)
  | 0x28 => t.clkoutNext.getD t.clkoutCfg
  | _ => 0

/-- R519. -/
def snapReg (s : State) (o : Nat) : Nat :=
  let n := s.snap
  match o with
  | 0x00 => 2 * n.bankSel + flagAt (n.busy 0) 8 + flagAt (n.busy 1) 9 + flagAt n.refused 10
  | 0x04 => lo32 n.lastSeq
  | 0x08 => hi32 n.lastSeq
  | 0x0C => n.lastBank
  | _ => 0

def State.master (s : State) (m : Nat) : Master := s.host.masters.getD m (Master.reset false)

/-- R543. -/
def matrixReg (s : State) (o : Nat) : Nat :=
  if o == 0 then flagAt s.host.cpRemap 0 + flagAt Config.debugFuse 1
  else if 0x40 ≤ o && o < 0x60 then sumNat ((s.master ((o - 0x40) / 4)).prio.zipIdx.map fun p => p.1 % 8 * 16 ^ p.2)
  else if 0x80 ≤ o && o < 0xC0 then
    let g := (s.master ((o - 0x80) / 8)).granules
    if o % 8 == 0 then lo32 g else hi32 g % 2 ^ 24
  else if 0x400 ≤ o && o < 0xC00 then
    match (s.master ((o - 0x400) / 0x100)).regions[o % 0x100 / 16]? with
    | none => 0
    | some r =>
      match o % 16 / 4 with
      | 0 => flagAt r.en 0 + flagAt r.r 1 + flagAt r.w 2 + r.base % 2 ^ 20 * 4096
      | 1 => r.base / 2 ^ 20 % 256
      | 2 => r.limit % 2 ^ 20 * 4096
      | _ => r.limit / 2 ^ 20 % 256
  else 0

/-- R526. -/
def msixReg (s : State) (o : Nat) : Nat :=
  if o < 0x400 then (s.host.msixTable.getD (o / 4) 0).toNat
  else if o == 0x800 then lo32 s.host.msixPba.toNat
  else if o == 0x804 then hi32 s.host.msixPba.toNat
  else 0

/-- R287. -/
def mailReg (s : State) (d o : Nat) : Nat :=
  let k := s.desk d
  match o with
  | 0x00 => k.cmdTail
  | 0x04 => k.cmdHead
  | 0x08 => k.rspTail
  | 0x0C => k.rspHead
  | 0x10 => k.evtTail
  | 0x14 => k.evtHead
  | 0x1C => flagAt k.rspIrqEn 0 + flagAt k.evtIrqEn 1
  | 0x20 => flagAt (k.transport == .pcie) 0 + flagAt k.isOpen 1 + flagAt k.evtLost 2 + flagAt k.protoErr 3
  | 0x24 => k.protoErrCount
  | _ => 0

/-- What a register holds (R523); a reserved offset reads 0. -/
def regLive (s : State) (o : Nat) : Nat :=
  if o < 0x100 then identReg s o
  else if o < 0x200 then statusReg s (o - 0x100)
  else if 0x1000 ≤ o && o < 0x1100 then captureReg s (o - 0x1000)
  else if 0x2000 ≤ o && o < 0x2700 then portReg s o
  else if 0x3000 ≤ o && o < 0x3040 then timingReg s (o - 0x3000)
  else if 0x3400 ≤ o && o < 0x3410 then snapReg s (o - 0x3400)
  else if 0x4000 ≤ o && o < 0x4C00 then matrixReg s (o - 0x4000)
  else if 0x10000 ≤ o && o < 0x10808 then msixReg s (o - 0x10000)
  else if 0x20000 ≤ o && o < 0x20440 then mailReg s ((o - 0x20000) / 0x40) ((o - 0x20000) % 0x40)
  else 0

/-- Low words of the 64-bit pairs (R14). -/
def pairLows : List Nat := [0x20, 0x1008, 0x1018, 0x1020, 0x1028, 0x1030, 0x3008, 0x3020, 0x3404]

/-- The latches of a reader: the control processor's own, and the host's (R533). -/
def State.latches (s : State) (cp : Bool) : List (Nat × Nat) := if cp then s.host.cpLatch else s.host.hostLatch

def State.setLatches (s : State) (cp : Bool) (l : List (Nat × Nat)) : State :=
  s.onHost fun h => if cp then { h with cpLatch := l } else { h with hostLatch := l }

/-- Read the word at `o`, of a pair if `low` says it is one's low word or high word (R14). -/
def State.readPaired (s : State) (cp isLow isHigh : Bool) (o : Nat) (live high : Nat) : Nat × State :=
  let l := s.latches cp
  if isLow then (live, s.setLatches cp ((o + 4, high) :: l.filter fun p => p.1 != o + 4))
  else if isHigh then
    match l.find? fun p => p.1 == o with
    | some p => (p.2, s.setLatches cp (l.filter fun q => q.1 != o))
    | none => (live, s)
  else (live, s)

def State.clearMisfits (s : State) : State := s.onHost fun h => { h with misfitCount := 0 }

def State.clearViolations (s : State) : State := s.onHost fun h => { h with rvCount := 0 }

/-- A 4-byte register read with its effects (R13, R14). -/
def State.regRead (s : State) (cp : Bool) (o : Nat) : Nat × State :=
  let v := regLive s o
  if o == 0x100 then (v, s.clearMisfits)
  else if o == 0x10C then (v, s.clearViolations)
  else if 0x20000 ≤ o && o < 0x20440 && o % 0x40 == 0x24 then
    (v, s.setDesk ((o - 0x20000) / 0x40) fun k => { k with protoErrCount := 0 })
  else s.readPaired cp (pairLows.contains o) (o ≥ 4 && pairLows.contains (o - 4)) o v (regLive s (o + 4))

/-! ## Register writes -/

/-- The state a command leaves. -/
def stateAfter (o : Host.Outcome State Fault Refusal) (s : State) : State :=
  match o with
  | .next t => t
  | _ => s

/-- One TIME cycle of quarry time, RAW and the indices is latched (R527). -/
def State.captureTime (s : State) : State :=
  let ix (d : Nat) : Nat := match (s.dom d).st with
    | .stopped => if d == 0 then s.idx d else 2 ^ 64 - 1
    | .halted => if d == 0 then s.idx d else 2 ^ 64 - 1
    | _ => s.idx d
  s.onHost fun h => { h with capSeq := (h.capSeq + 1) % 2 ^ 32, capQ := s.q, capRaw := s.clk.raw % 2 ^ 64, capIdx := [ix 0, ix 1, ix 2] }

/-- TAKE: a snapshot of the next ashlar, or REFUSED (R516, R519). -/
def State.snapTake (s : State) (bank : Nat) : State :=
  let s : State := { s with snap := { s.snap with bankSel := bank } }
  if s.snap.busy bank then { s with snap := { s.snap with refused := true } }
  else s.takeSnapshot bank (s.now + 1) 0 0 0

def State.snapCtrl (s : State) (v : Nat) : State :=
  let s : State := if bit v 10 then { s with snap := { s.snap with refused := false } } else s
  let b := bits v 1 1
  if bit v 0 then s.snapTake b else { s with snap := { s.snap with bankSel := b } }

/-- CP_REMAP never returns to 0 (R542). -/
def State.remap (s : State) (v : Nat) : State := if bit v 0 then s.onHost fun h => { h with cpRemap := true } else s

def State.setMaster (s : State) (m : Nat) (f : Master → Master) : State :=
  s.onHost fun h => { h with masters := modAt h.masters m f }

/-- Write of a region register's word. -/
def Region.put (r : Region) (w v : Nat) : Region :=
  match w with
  | 0 => { r with en := bit v 0, r := bit v 1, w := bit v 2, base := r.base / 2 ^ 20 * 2 ^ 20 + v / 4096 % 2 ^ 20 }
  | 1 => { r with base := v % 256 * 2 ^ 20 + r.base % 2 ^ 20 }
  | 2 => { r with limit := r.limit / 2 ^ 20 * 2 ^ 20 + v / 4096 % 2 ^ 20 }
  | _ => { r with limit := v % 256 * 2 ^ 20 + r.limit % 2 ^ 20 }

/-- Matrix registers, written by M0 alone (R543). -/
def State.matrixWrite (s : State) (o v : Nat) : State :=
  if o == 0 then s.remap v
  else if 0x40 ≤ o && o < 0x60 then s.setMaster ((o - 0x40) / 4) fun m => { m with prio := (List.range 8).map fun t => v / 16 ^ t % 8 }
  else if 0x80 ≤ o && o < 0xC0 then
    s.setMaster ((o - 0x80) / 8) fun m =>
      { m with granules := if o % 8 == 0 then m.granules / 2 ^ 32 * 2 ^ 32 + lo32 v else v % 2 ^ 24 * 2 ^ 32 + lo32 m.granules }
  else if 0x400 ≤ o && o < 0xC00 then
    s.setMaster ((o - 0x400) / 0x100) fun m => { m with regions := modAt m.regions (o % 0x100 / 16) fun r => r.put (o % 16 / 4) v }
  else s

/-- A word of the MSI-X table; an unmasked vector that waits is sent (R526). -/
def State.msixWrite (s : State) (o v : Nat) : State :=
  if o ≥ 0x400 then s else
  let w := match o % 16 / 4 with
    | 0 => v / 4 * 4
    | 3 => v % 2
    | _ => v
  let s := s.onHost fun h => { h with msixTable := modAt h.msixTable (o / 4) fun _ => BitVec.ofNat 32 w }
  let n := o / 16
  if o % 16 == 12 && v % 2 == 0 && s.host.msixPba.toNat.testBit n then
    (s.onHost fun h => { h with msixPba := h.msixPba &&& ~~~(BitVec.ofNat 64 (2 ^ n)) }).emit (.msix n)
  else s

/-- Mailbox registers (R287). -/
def State.mailWrite (s : State) (d o v : Nat) : State :=
  match o with
  | 0x00 => stateAfter (execCmdTailWrite d (v % 65536) s) s
  | 0x0C => stateAfter (execRspHeadWrite d (v % 65536) s) s
  | 0x14 => stateAfter (execEvtHeadWrite d (v % 65536) s) s
  | 0x18 =>
    let s := if bit v 0 then stateAfter (execRingCmd d s) s else s
    let s := if bit v 1 then stateAfter (execRingRsp d s) s else s
    if bit v 2 then stateAfter (execRingEvt d s) s else s
  | 0x1C => s.setDesk d fun k => { k with rspIrqEn := bit v 0, evtIrqEn := bit v 1 }
  | 0x20 => stateAfter (execMailboxFlagsClear d v s) s
  | _ => s

/-- A 4-byte register write (R13); `m` is the master. -/
def State.regWrite (s : State) (m o v : Nat) : State :=
  if o == 0x118 then s.onHost fun h =>
    { h with snapIrqEn := bit v 0, meterIrqEn := bit v 1, haltIrqEn := bit v 2, violIrqEn := bit v 3 }
  else if o == 0x11C then s.onHost fun h => { h with irqStatus := w1c h.irqStatus v }
  else if o == 0x1000 then (if bit v 0 then s.captureTime else s)
  else if o == 0x3014 then s.onTiming fun t => { t with sticky := w1c t.sticky v }
  else if o == 0x3018 then s.onTiming fun t => { t with stickyIrqEn := v }
  else if o == 0x3028 then s.onTiming fun t => { t with clkoutNext := some (v % 2 ^ 21) }
  else if o == 0x3400 then s.snapCtrl v
  else if 0x4000 ≤ o && o < 0x4C00 then (if m == 0 then s.matrixWrite (o - 0x4000) v else s)
  else if 0x10000 ≤ o && o < 0x10800 then s.msixWrite (o - 0x10000) v
  else if 0x20000 ≤ o && o < 0x20440 then s.mailWrite ((o - 0x20000) / 0x40) ((o - 0x20000) % 0x40) v
  else s

/-! ## Addresses (R535) -/

def dramBase : Nat := 0x400000000

def granuleBytes : Nat := 0x10000000

/-- The DRAM area that BAR2 shows (R529), in the granule of the telemetry area. -/
def telemetryBase : Nat := dramBase + Config.granuleOf 0 % 56 * granuleBytes

/-- Loudness bank, meter bank and counter copy addresses. -/
def meterBankAt (b : Nat) : Nat := telemetryBase + 0x100000 * b

def loudBankAt (b : Nat) : Nat := telemetryBase + 0x200000 + 0x10000 * b

/-- Code of the target that holds an address; `none` where no target does. -/
def targetAt (remapped : Bool) (a : Nat) : Option Nat :=
  if a < 0x2000000 then
    let high := a ≥ 0x1000000
    if high == remapped then (if a % 0x1000000 < 0x10000 then some 2 else none)
    else if a % 0x1000000 < 0x400000 then some 1 else none
  else if a < 0x2020000 then some 6
  else if 0x8000000 ≤ a && a < 0x10000000 then some 3
  else if 0x10000000 ≤ a && a < 0x20000000 then some 7
  else if 0x20000000 ≤ a && a < 0x22000000 then some 4
  else if 0x30000000 ≤ a && a < 0x34000000 then some 5
  else if dramBase ≤ a && a < dramBase + 56 * granuleBytes then some 0
  else none

/-- Whether a T4 or T5 address names a row, a tag or an array. -/
def unitAddr (a : Nat) : Bool :=
  (0x20000000 ≤ a && a < 0x20000000 + 68 * 0x40000) || (0x21200000 ≤ a && a < 0x21200000 + 68 * 0x10000) ||
  (0x30000000 ≤ a && a < 0x30000000 + 18 * 0x200000)

/-- Where a byte of CP SRAM stands in the model's memory, whichever window shows it. -/
def sramKey (a : Nat) : Nat := 0x1000000 + a % 0x1000000

/-! ## The counter area (R509, R512, R514) -/

/-- The header of a written bank. -/
def bankHeader (s : State) (b : Bank) (bank : Nat) : List Byte :=
  le 4 b.seq ++ le 4 (flagAt b.gap 0) ++ le 8 b.snapSeq ++ le 8 b.ashlar ++ qBytes b.qtime ++ le 1 b.origin ++ le 1 bank ++ le 2 b.keeperId ++
    le 8 b.keeperSeq ++ le 4 s.journal.runId ++ le 12 0

def liveHeader (s : State) : List Byte :=
  le 4 0 ++ le 4 2 ++ le 8 0 ++ le 8 s.snap.liveAshlar ++ qBytes (instantOf (8 * (s.snap.liveAshlar + 1)) (s.fs 0)) ++ le 1 0xFF ++ le 1 0xFF ++
    le 2 0 ++ le 8 0 ++ le 4 s.journal.runId ++ le 12 0

/-- A byte of copy `c`: 0 live, 1 and 2 the banks. -/
def counterByte (s : State) (c o : Nat) : Byte :=
  let b := s.snap.banks.getD (c - 1) Bank.reset
  if o < 64 then
    (if c == 0 then (liveHeader s).getD o 0 else if b.seq == 0 then 0 else (bankHeader s b (c - 1)).getD o 0)
  else
    let n := assoc (if c == 0 then s.snap.live else b.ctrs) (o / 8 * 8)
    BitVec.ofNat 8 (n / 256 ^ (o % 8))

/-- A byte of DRAM; the counter copies are formed as they are read. -/
def dramByte (s : State) (a : Nat) : Byte :=
  if telemetryBase + 0x1000000 ≤ a && a < telemetryBase + 0x4000000 then
    let o := a - telemetryBase
    counterByte s (o / 0x1000000 - 1) (o % 0x1000000)
  else memRead s.mem a

/-! ## Mailbox SRAM (R286, R563) -/

/-- The mailbox directory, valid from RUNNING until a control halt clears its MAGIC. -/
def directory (s : State) : List Byte :=
  if s.sv.st != .running then List.replicate 64 0 else
  (if s.halted then le 4 0 else [0x52, 0x5A, 0x49, 0x41]) ++ le 2 0x0302 ++ le 2 17 ++ le 4 s.host.image ++
    le 4 (maskOf (s.desks.map fun k => k.transport == .pcie)) ++ List.replicate 48 0

/-- The engine waits for a host-loaded image. -/
def State.loading (s : State) : Bool := s.sv.st == .boot && s.sv.ldWait && s.host.pcieUp

/-- MAGIC and STATE of the boot load block; the rest is the host's. -/
def bootBlock (s : State) : List Byte := [0x42, 0x4F, 0x4F, 0x54] ++ le 4 s.sv.ldState

/-- A byte of the mailbox window. -/
def mailByte (s : State) (o : Nat) : Byte :=
  if 0x19800 ≤ o && o < 0x19840 then (directory s).getD (o - 0x19800) 0
  else if o ≥ 0x19840 then
    (if !s.loading then 0 else if o < 0x19848 then (bootBlock s).getD (o - 0x19840) 0
     else if o < 0x19854 then memRead s.mem (mailboxBase + o) else 0)
  else memRead s.mem (mailboxBase + o)

/-- Where a host write to the window lands: command slots, and in a host load the chunk and the host's fields of the block. -/
def windowWritable (s : State) (o : Nat) : Bool :=
  if s.loading then o < 0x10000 || (0x19848 ≤ o && o < 0x19854) else o < 0x19800 && o % 0x1800 < 0x800

/-! ## Misfits and violations (R530, R539) -/

/-- Vector 21, at most once in a domain A tick. -/
def State.violIrq (s : State) : State :=
  let s := s.onHost fun h => { h with irqStatus := h.irqStatus ||| 8 }
  let k := s.tickOf 0
  if s.host.violIrqEn && s.host.violTick != some k then (s.onHost fun h => { h with violTick := some k }).irq 21 else s

/-- Count and latch a misfit. -/
def State.misfit (s : State) (master addr bytes : Nat) (write : Bool) : State :=
  ((s.addCtr ctrMisfit 1).onHost fun h => { h with
    misfitCount := min (h.misfitCount + 1) 0xFFFFFFFF
    misfit := { addr := addr, master := master, write := write, bytes := bytes } }).violIrq

/-- Count and latch a region violation. -/
def State.violation (s : State) (master addr bytes : Nat) (write : Bool) : State :=
  ((s.addCtr ctrRegion 1).onHost fun h => { h with
    rvCount := min (h.rvCount + 1) 0xFFFFFFFF
    rv := { addr := addr, master := master, write := write, bytes := bytes } }).violIrq

/-- A region grants a page in a direction. -/
def Region.grants (r : Region) (page : Nat) (write : Bool) : Bool :=
  r.en && (if write then r.w else r.r) && r.base ≤ page && page ≤ r.limit

/-- One byte of an access is permitted (R539, R540). -/
def permits (s : State) (m : Nat) (write : Bool) (a : Nat) : Bool :=
  match targetAt s.host.cpRemap a with
  | none => false
  | some 0 => bit (s.master m).granules ((a - dramBase) / granuleBytes)
  | some _ => (s.master m).regions.any fun r => r.grants (a / 4096) write

/-- Bytes an access enables. -/
def enabled (a : Access) : Nat := ((List.range a.bytes).filter fun i => a.enables.getD i true).length

/-- A whole word aligned to 4. -/
def wordFit (a : Access) : Bool := a.bytes == 4 && a.addr % 4 == 0 && enabled a == 4

/-- Answer a read. -/
def State.answerRead (s : State) (a : Access) (bs : List Byte) : State := if a.write then s else s.emit (.readData a.master a.addr bs)

def zeros (a : Access) : List Byte := List.replicate a.bytes 0

def State.accessMisfit (s : State) (a : Access) : State :=
  (s.misfit a.master a.addr (enabled a) a.write).answerRead a (zeros a)

/-- Write the enabled bytes through a map of addresses. -/
def State.writeEnabled (s : State) (a : Access) (key : Nat → Nat) : State :=
  (List.range a.bytes).foldl (fun s i =>
    if a.enables.getD i true then s.write (key (a.addr + i)) [a.data.getD i 0] else s) s

/-- The host's view of the telemetry area (R513, R529, R531). -/
def State.barTwo (s : State) (a : Access) : State :=
  let o := a.addr - telemetryBase
  let bytes := (List.range a.bytes).map fun i => dramByte s (a.addr + i)
  if a.write then s.accessMisfit a
  else if o < 0x220000 then
    if a.addr % 4 == 0 && a.bytes % 4 == 0 && enabled a == a.bytes then s.answerRead a bytes else s.accessMisfit a
  else if o < 0x1000000 then s.answerRead a (zeros a)
  else if a.bytes == 8 && a.addr % 8 == 0 && enabled a == 8 then s.answerRead a bytes
  else if wordFit a then
    let high := leNat ((List.range 4).map fun i => dramByte s (a.addr + 4 + i))
    let r := s.readPaired false (o % 8 == 0) (o % 8 == 4) (2 ^ 32 + o) (leNat bytes) high
    r.2.answerRead a (le 4 r.1)
  else s.accessMisfit a

/-- DRAM (T0): any byte enables. -/
def State.dramAccess (s : State) (a : Access) : State :=
  if a.master == 1 && telemetryBase ≤ a.addr && a.addr < telemetryBase + 0x4000000 then s.barTwo a
  else if a.write then s.writeEnabled a id
  else s.answerRead a ((List.range a.bytes).map fun i => dramByte s (a.addr + i))

/-- Peripheral registers (T7); beyond BAR0's range a register of no stated content (log entry 2). -/
def State.busAccess (s : State) (a : Access) : State :=
  if !wordFit a then s.accessMisfit a
  else
    let o := a.addr - barBase
    if a.write then s.regWrite a.master o (leNat a.data % 2 ^ 32)
    else if o ≥ 0x40000 then
      let (w, s) := s.draw
      s.answerRead a (leWord w)
    else
      let r := s.regRead (a.master == 0) o
      r.2.answerRead a (le 4 r.1)

/-- A permitted access at its target (R544). -/
def State.targetAccess (s : State) (a : Access) : State :=
  match targetAt s.host.cpRemap a.addr with
  | some 0 => s.dramAccess a
  | some 1 => if a.write then s.writeEnabled a sramKey else s.answerRead a ((List.range a.bytes).map fun i => memRead s.mem (sramKey (a.addr + i)))
  | some 2 => if a.write then s.accessMisfit a
    else s.answerRead a ((List.range a.bytes).map fun i => Config.bootRom ((a.addr + i) % 0x10000))
  | some 3 => if a.write then s.accessMisfit a else
    let (ws, s) := State.drawN a.bytes s
    s.answerRead a (ws.map fun w => w.setWidth 8)
  | some 6 => if a.write then s.writeEnabled a id
    else s.answerRead a ((List.range a.bytes).map fun i => mailByte s (a.addr + i - mailboxBase))
  | some 7 => s.busAccess a
  | some _ =>
    if !wordFit a then s.accessMisfit a
    else if a.write then (if unitAddr a.addr then s.writeEnabled a id else s)
    else s.answerRead a (s.read a.addr 4)
  | none => s

/-- The words of a window access, each with its offset and whether all its bytes are enabled. -/
def windowWords (a : Access) : List (Nat × Nat × Bool) :=
  (List.range (a.bytes / 4)).map fun k =>
    (k, a.addr - barBase - 0x40000 + 4 * k, (List.range 4).all fun i => a.enables.getD (4 * k + i) true)

/-- A host access to the mailbox window (R286, R531): served word by word; a write to an area of the engine's is discarded and counted
under R289, for desk 0 where the area is no desk's (log entry 64). -/
def State.windowAccess (s : State) (a : Access) : State :=
  if a.addr % 4 != 0 || a.bytes % 4 != 0 then s.accessMisfit a else
  let ws := windowWords a
  let s := (ws.filter fun w => !w.2.2).foldl (fun s w =>
    s.misfit a.master (a.addr + 4 * w.1) ((List.range 4).filter fun i => a.enables.getD (4 * w.1 + i) true).length a.write) s
  if !a.write then
    s.answerRead a (ws.flatMap fun w => if w.2.2 then (List.range 4).map fun i => mailByte s (w.2.1 + i) else [0, 0, 0, 0])
  else
    let good := ws.filter fun w => w.2.2
    let s := (good.filter fun w => windowWritable s w.2.1).foldl (fun s w => s.write (mailboxBase + w.2.1) (slice a.data (4 * w.1) 4)) s
    match good.find? fun w => !(windowWritable s w.2.1) with
    | some w => if s.sv.st == .running then s.pointerError (if w.2.1 < 0x19800 then w.2.1 / 0x1800 else 0) else s
    | none => s

/-- A transaction: region check first, then fit, then the target (R539, R544). -/
def State.matrix (s : State) (a : Access) : State :=
  if !s.dieOn || a.bytes == 0 || a.bytes > 512 || a.master > 7 then s
  else if a.master == 1 && barBase + 0x40000 ≤ a.addr && a.addr + a.bytes ≤ barBase + 0x60000 then s.windowAccess a
  else if (List.range a.bytes).all fun i => permits s a.master a.write (a.addr + i) then s.targetAccess a
  else (s.violation a.master a.addr (enabled a) a.write).answerRead a (zeros a)

/-! ## The commands -/

/-- `MATRIX_ACCESS`. Grants are in the order the accesses come; arbitration among masters is timing (log entry 65). -/
def execMatrixAccess (a : Access) (s : State) : Host.Outcome State Fault Refusal := .next (s.matrix a)

/-- `MISFIT_COUNT_READ`. -/
def execMisfitCountRead (s : State) : Host.Outcome State Fault Refusal :=
  .next (if s.dieOn then (s.emit (.readData 1 (barBase + 0x100) (le 4 s.host.misfitCount))).clearMisfits else s)

/-- `RV_COUNT_READ`. -/
def execRvCountRead (s : State) : Host.Outcome State Fault Refusal :=
  .next (if s.dieOn then (s.emit (.readData 1 (barBase + 0x10C) (le 4 s.host.rvCount))).clearViolations else s)

/-- `IRQ_STATUS_CLEAR`. -/
def execIrqStatusClear (mask : Nat) (s : State) : Host.Outcome State Fault Refusal :=
  .next (if s.dieOn then s.onHost fun h => { h with irqStatus := w1c h.irqStatus mask } else s)

/-- `STICKY_WRITE`: W1C bits of R444. -/
def execStickyWrite (mask : Nat) (s : State) : Host.Outcome State Fault Refusal :=
  .next (if s.dieOn then s.onTiming fun t => { t with sticky := w1c t.sticky mask } else s)

/-- `QUARRY_TIME_CAPTURE`. -/
def execQuarryTimeCapture (s : State) : Host.Outcome State Fault Refusal :=
  .next (if s.dieOn then s.captureTime else s)

/-- `SNAPSHOT_TAKE`. -/
def execSnapshotTake (bank : Nat) (s : State) : Host.Outcome State Fault Refusal :=
  .next (if s.dieOn then s.snapTake (bank % 2) else s)

/-- `SNAP_REFUSED_CLEAR`. -/
def execSnapRefusedClear (mask : Nat) (s : State) : Host.Outcome State Fault Refusal :=
  .next (if s.dieOn && bit mask 10 then { s with snap := { s.snap with refused := false } } else s)

/-- `CP_REMAP_WRITE` by M0. -/
def execCpRemapWrite (value : Nat) (s : State) : Host.Outcome State Fault Refusal :=
  .next (if s.dieOn then s.remap value else s)

/-- `REGISTER_PAIR_LOW_READ`: the control processor's latches are its own. -/
def execRegisterPairLowRead (cp : Bool) (offset : Nat) (s : State) : Host.Outcome State Fault Refusal :=
  .next (if s.dieOn then
    (let r := s.regRead cp offset
     r.2.emit (.readData (if cp then 0 else 1) (barBase + offset) (le 4 r.1)))
  else s)

/-- `REGISTER_WRITE` by the host. -/
def execRegisterWrite (offset : Nat) (value : Word) (s : State) : Host.Outcome State Fault Refusal :=
  .next (if s.dieOn && offset % 4 == 0 then s.regWrite 1 offset value.toNat else s)

/-- Bulk transfers over PCIe that are in progress: mode 1 data awaited, or data being sent. -/
def pcieBulk (s : State) : List Job :=
  s.jobs.filter fun j => (j.stage == 2 && j.num == 1) || (j.stage == 0 && (s.collectJob j.desk).all fun c => c.2.order != j.order)

/-- `ENDPOINT_RESET`: the endpoint alone; bulk transfers in progress end (R298, R522). -/
def execEndpointReset (s : State) : Host.Outcome State Fault Refusal :=
  .next (if !s.dieOn then s else
    (pcieBulk s).foldl (fun s j => (s.endBulk j eRange).mailboxFault j.desk 4) (s.onHost fun h => { h with pcieUp := false }))

/-- `PCIE_LINK_UP`. -/
def execPcieLinkUp (s : State) : Host.Outcome State Fault Refusal :=
  .next (if s.dieOn then s.onHost fun h => { h with pcieUp := true } else s)

end Sys2Proof.Machine
end

