-- ==== Sys2Proof/Machine/Audio.lean ====
section
/-! DEFINITION. The sample computation of Strips and Buses (R123-R162): sinks, the chain with its crossfades, pick-off points, taps
and sends. Audio whose arithmetic the manual does not fix is a free value (log entry 2). -/
namespace Sys2Proof.Machine

/-! ## Sinks (R62, R63, R76) -/

/-- What a route delivers at route index `j`. -/
def State.routeValue (s : State) (r : Route) (j : Nat) : Word :=
  let r := r.at j
  let new := s.readRoute (r.source, r.offset) j
  match r.kerf with
  | some k => if k.s ≤ j then blend k.law (j - k.s) k.t (s.readRoute (k.oldSrc, k.oldOff) j) new else new
  | none => new

/-- What a sink receives at route index `j`; one without a route receives 0.0. -/
def State.sinkWord (s : State) (kind sub h j : Nat) : Word :=
  match s.routeTo kind sub h with
  | some p => s.routeValue p.2 j
  | none => 0#32

/-- The readings a route makes at route index `j`. -/
def Route.readings (r : Route) (j : Nat) : List (Nat × Nat) :=
  let r := r.at j
  ((r.source, r.offset) :: (match r.kerf with | some k => if k.s ≤ j then [(k.oldSrc, k.oldOff)] else [] | none => [])).filter
    fun p => p.1 != 0

/-! ## Values and twins at a sample (R133, R200) -/

/-- The crossfade of a TWIN at sample `j`. -/
def Twin.mix (t : Twin) (j : Nat) (old new : Word) : Word :=
  if j < t.s then old else if j ≥ t.after then new else blend t.law (j - t.s) t.t old new

/-- TWINs whose crossfade has ended by sample `j`, in order of launch. -/
def endedTwins (ts : List Twin) (j : Nat) : List Twin := twinsInOrder (ts.filter fun t => t.s ≤ j && t.after ≤ j)

/-- The TWIN of a page that warms or crossfades at sample `j`. -/
def liveTwin (ts : List Twin) (page j : Nat) : Option Twin :=
  (twinsInOrder (ts.filter fun t => t.page == page && t.first ≤ j && j < t.after)).head?

/-- A value as a list of TWINs leaves it. -/
def overVal (ts : List Twin) (id v : Nat) : Nat :=
  ts.foldl (fun v t => ((t.vals.find? fun p => p.1 == id).map (·.2)).getD v) v

/-- The value in force of a Strip's or Bus's parameter. -/
def Chan.use (c : Chan) (m id : Nat) : Nat :=
  match chanSpec c m id with
  | some p => (valOf c.vals id p.dflt p.mode).use
  | none => 0

/-- The factor in force of a ramped parameter. -/
def Chan.gain (c : Chan) (m id : Nat) : Word :=
  match chanSpec c m id with
  | some p => (valOf c.vals id p.dflt p.mode).factor
  | none => oneW

/-- The value a list of TWINs gives a parameter. -/
def Chan.useAt (c : Chan) (m : Nat) (ts : List Twin) (id : Nat) : Nat := overVal ts id (c.use m id)

/-- An ENABLE bit as a list of TWINs leaves it. -/
def Chan.onAt (c : Chan) (ts : List Twin) (b : Nat) : Bool := overVal ts (enableId b) (if bit c.enableUse b then 1 else 0) == 1

/-! ## The chain (R127) -/

/-- A place of the chain: a library block with its ENABLE bit and the point after it, or the packages of a position. -/
inductive Place where
  | sieve
  | head
  | block (page bit point : Nat)
  | packages (position : Nat)
  | tail
  deriving DecidableEq, Repr

/-- The order of R127 for positions of Delay and Insert and EQ_FIRST. -/
def chainOrder (strip : Bool) (delayPos insertPos eqFirst : Nat) : List Place :=
  let pos (k : Nat) : List Place :=
    (if delayPos == k then [.block 8 5 8] else []) ++ (if insertPos == k then [.block 9 6 10] else []) ++ [.packages k]
  (if strip then [.sieve] else []) ++ [.head] ++ pos 0 ++ [.block 3 0 3] ++ pos 1 ++
    (if eqFirst == 1 then [.block 5 2 4, .block 4 1 5] else [.block 4 1 5, .block 5 2 4]) ++ [.block 6 3 6] ++ pos 2 ++ [.block 7 4 7] ++
    pos 3 ++ [.tail]

/-- The lookahead of the limiter (R149). -/
def lookahead (code : Nat) : Nat := (if rate44 code then 88 else 96) * rateMult code

/-- Coefficient word of the DC blocker: 1 - 4 pi / fs (R139). -/
def dcWord (fs : Nat) : Word := ziv (fun n => (0, 2 ^ n - 4 * piFix n / fs)) 4 96

/-- One channel under way through the chain: the signal, the points, the lines of its Delay, limiter and Insert, the DC blocker's
sets, the free value counter, and the package instances whose output needed the replacement of R162. -/
structure Run where
  x : Word
  points : List Word
  line : List Word
  look : List Word
  dry : List Word
  x1 : Word
  y1 : Word
  sx1 : Word
  sy1 : Word
  free : Nat
  nans : List Nat
  deriving DecidableEq, Repr

def Run.draw (r : Run) : Word × Run := (Config.freeWord r.free, { r with free := r.free + 1 })

def Run.point (r : Run) (p : Nat) : Run := { r with points := modAt r.points p fun _ => r.x }

/-- What the chain of one channel needs to know: sample, multiplier, rate, coefficient, the Insert's return, the factors of head and
tail, the package instances by position, the instances passed over, and those coming back from 0.0. -/
structure ChainEnv where
  j : Nat
  m : Nat
  lam : Nat
  dc : Word
  ret : Word
  factors : List Word
  cough : Word
  packages : List (Nat × Block)
  handles : List (Nat × Nat)
  skip : List Nat
  revive : List (Nat × Nat)
  deriving DecidableEq, Repr

/-- The factor of an instance that comes back from 0.0 over 480 samples (R121, R193). -/
def reviveAt (l : List (Nat × Nat)) (h j : Nat) (x : Word) : Word :=
  match l.find? fun p => p.1 == h && p.2 ≤ j && j < p.2 + 480 with
  | some p => fMul x (weights 0 (j - p.2) 480).2
  | none => x

/-- One set of the Sieve: the DC blocker, then the high-pass, whose samples are open (R139-R141). -/
def sieveSet (e : ChainEnv) (order dcOn : Nat) (x x1 y1 : Word) (r : Run) : Word × Word × Word × Run :=
  let y := if dcOn == 1 then fAdd (fSub x x1) (fMul e.dc y1) else x
  let (x1, y1) := if dcOn == 1 then (x, y) else (x1, y1)
  if order == 0 then (y, x1, y1, r)
  else
    let (w, r) := r.draw
    (w, x1, y1, r)

/-- The Sieve with its standby set (R140). -/
def sieveStep (e : ChainEnv) (c : Chan) (ended : List Twin) (r : Run) : Run :=
  let live := liveTwin c.twins 1 e.j
  let r := match live with
    | some t => if t.w == 0 && t.s == e.j then { r with sx1 := r.x1, sy1 := r.y1 } else r
    | none => r
  let (a, x1, y1, r') := sieveSet e (c.useAt e.m ended 0x0100) (c.useAt e.m ended 0x0102) r.x r.x1 r.y1 r
  let r' := { r' with x1 := x1, y1 := y1 }
  match live with
  | none =>
    -- after the crossfade the standby set alone is heard, until the sets swap at the end of the slot
    match ended.filter (fun t => t.page == 1) with
    | [] => { r' with x := a }
    | _ =>
      let (b, sx1, sy1, r'') := sieveSet e (c.useAt e.m ended 0x0100) (c.useAt e.m ended 0x0102) r.x r.sx1 r.sy1 r'
      { r'' with x := b, sx1 := sx1, sy1 := sy1 }
  | some t =>
    let ts := ended ++ [t]
    let (b, sx1, sy1, r'') := sieveSet e (c.useAt e.m ts 0x0100) (c.useAt e.m ts 0x0102) r.x r.sx1 r.sy1 r'
    { r'' with x := t.mix e.j a b, sx1 := sx1, sy1 := sy1 }

/-- The Input block's crossfade of a LINK change (R142): both instances form the same product. -/
def inputMix (e : ChainEnv) (c : Chan) (y : Word) : Word :=
  match liveTwin c.twins 2 e.j with
  | some t => t.mix e.j y y
  | none => y

/-- The output of an enabled block for the values of a list of TWINs. -/
def blockOut (e : ChainEnv) (c : Chan) (ts : List Twin) (page : Nat) (r : Run) : Word × Run :=
  match page with
  | 7 => if c.useAt e.m ts 0x0700 == 1 then r.draw else (r.look.getD e.lam 0#32, r)
  | 8 => (r.line.getD (c.useAt e.m ts 0x0800) 0#32, r)
  | 9 => (if c.useAt e.m ts 0x0900 == 1 then e.ret else r.dry.getD (c.useAt e.m ts 0x0903) 0#32, r)
  | _ => r.draw

/-- Push the block's input into the line it keeps; a block that does not exist keeps none. -/
def pushLines (e : ChainEnv) (c : Chan) (page : Nat) (exists_ : Bool) (r : Run) : Run :=
  match page with
  | 7 => { r with look := if exists_ then (r.x :: r.look).take (e.lam + 1) else [] }
  | 8 => { r with line := if exists_ then (r.x :: r.line).take (c.delayMax e.m + 1) else [] }
  | 9 => { r with dry := if exists_ then (r.x :: r.dry).take 4097 else [] }
  | _ => r

/-- One library block with its TWIN and its crossfade to or from bypass (R133, R159, R200). -/
def blockStep (e : ChainEnv) (c : Chan) (ended : List Twin) (page b : Nat) (r : Run) : Run :=
  let h := ((e.handles.find? fun p => p.1 == page).map (·.2)).getD 0
  let live := liveTwin c.twins page e.j
  let on := c.onAt ended b
  let on2 : Bool := match live with
    | some t => c.onAt (ended ++ [t]) b
    | none => on
  if !on && !on2 then pushLines e c page false r else
  let r := pushLines e c page true r
  let x := r.x
  if e.skip.contains h then r else
  let (a, r) := if on then blockOut e c ended page r else (x, r)
  let a := reviveAt e.revive h e.j a
  match live with
  | none => { r with x := a }
  | some t =>
    if e.j < t.s then { r with x := a } else
    let (y, r) := if on2 then blockOut e c (ended ++ [t]) page r else (x, r)
    { r with x := t.mix e.j a y }

/-- A package instance's output sample is finite, or replaced (R162). -/
def finite (r : Run) (idx : Nat) (w : Word) : Word × Run :=
  if fSpecial w then (0#32, { r with nans := idx :: r.nans }) else (w, r)

/-- The crossfade of a removed package block to bypass, or of a standalone one to 0.0, over 480 samples (R354). -/
def retireMix (b : Block) (j : Nat) (y bypass : Word) : Word :=
  match b.retire with
  | some a =>
    let k := 8 * a - 480
    if j < k then y else if j ≥ 8 * a then bypass else blend 0 (j - k) 480 y bypass
  | none => if b.removed then bypass else y

/-- The package instances of a position, in handle order (R107). -/
def packageStep (e : ChainEnv) : List (Nat × Block) → Run → Run
  | [], r => r
  | (h, b) :: bs, r =>
    if b.bypass || e.skip.contains h || (b.removed && b.retire.isNone) then packageStep e bs r
    else
      let (w, r) := r.draw
      let (w, r) := finite r (hIdx h) w
      packageStep e bs { r with x := retireMix b e.j (reviveAt e.revive h e.j w) r.x }

/-- One place of the chain. -/
def placeStep (e : ChainEnv) (c : Chan) (ended : List Twin) (r : Run) : Place → Run
  | .sieve => (sieveStep e c ended r).point 1
  | .head =>
    ({ r with x := inputMix e c (fMul (fMul r.x (e.factors.getD 0 oneW)) (e.factors.getD 1 oneW)) } : Run).point 2
  | .block page b point =>
    let r := if page == 9 then r.point 9 else r
    (blockStep e c ended page b r).point point
  | .packages k => packageStep e (e.packages.filter fun p => p.2.position == k) r
  | .tail =>
    let r := r.point 11
    ({ r with x := inputMix e c (fMul (fMul (fMul r.x (e.factors.getD 2 oneW)) (e.factors.getD 3 oneW)) e.cough) } : Run).point 12

/-- The chain for the order a list of TWINs gives. -/
def chainRun (e : ChainEnv) (c : Chan) (ended order : List Twin) (r : Run) : Run :=
  let v (id : Nat) : Nat := c.useAt e.m order id
  (chainOrder (c.role == 0) (v 1) (v 2) (v 3)).foldl (placeStep e c ended) r

/-- The run of one channel at one sample: the chain, and the Object TWIN's second instance beside it (R133). -/
def chanRun (e : ChainEnv) (c : Chan) (st : ChState) (x : Word) (free : Nat) : ChState × List Word × Nat × List Nat :=
  let ended := endedTwins c.twins e.j
  let r0 : Run := { x := x, points := List.replicate 13 x, line := st.line, look := st.look, dry := st.dry, x1 := st.x1, y1 := st.y1,
                    sx1 := st.sx1, sy1 := st.sy1, free := free, nans := [] }
  let r := chainRun e c ended ended r0
  let st1 := { st with line := r.line, look := r.look, dry := r.dry, x1 := r.x1, y1 := r.y1, sx1 := r.sx1, sy1 := r.sy1 }
  match (liveTwin c.twins 0 e.j).orElse fun _ => (ended.filter fun t => t.page == 0).getLast? with
  | none => (st1, r.points, r.free, r.nans)
  | some t =>
    -- the second instance starts from the live one's state
    let fresh := t.w == 0 && t.s == e.j
    let r2 := chainRun e c ended (ended ++ [t])
      { r0 with line := if fresh then st.line else st.line2, look := if fresh then st.look else st.look2,
                dry := if fresh then st.dry else st.dry2, free := r.free }
    ({ st1 with line2 := r2.line, look2 := r2.look, dry2 := r2.dry },
     (r.points.zip r2.points).map fun p => t.mix e.j p.1 p.2, r2.free, r.nans ++ r2.nans)

/-! ## The outputs of an object -/

/-- A direct-output tap at a sample (R159): the pick-off, LEVEL, and the fade from or to 0.0. -/
def tapOut (c : Chan) (m j t : Nat) (points : List Word) : Word :=
  let ended := endedTwins c.twins j
  let live := liveTwin c.twins 11 j
  let id := 0x0B00 + 16 * t
  let at' (ts : List Twin) : Word := points.getD (c.useAt m ts id) 0#32
  let on := c.onAt ended (8 + t)
  let level := c.gain m (id + 1)
  match live with
  | none => if on then fMul (at' ended) level else 0#32
  | some w =>
    let ts := ended ++ [w]
    let on2 := c.onAt ts (8 + t)
    let moved := w.vals.any fun v => v.1 == id
    if on && on2 then fMul (if moved then w.mix j (at' ended) (at' ts) else at' ended) level
    else if on2 then w.mix j 0#32 (fMul (at' ts) level)
    else if on then w.mix j (fMul (at' ended) level) 0#32
    else 0#32

/-- The Insert's send at a sample: its signal times SEND_GAIN while the block exists (R153). -/
def sendOut (c : Chan) (m j : Nat) (points : List Word) : Word :=
  let ended := endedTwins c.twins j
  let on := c.onAt ended 6 || (match liveTwin c.twins 9 j with | some t => c.onAt (ended ++ [t]) 6 | none => false)
  if on then fMul (points.getD 9 0#32) (c.gain m 0x0901) else 0#32

/-- Samples of one index, by the ring they go to. -/
abbrev Samples := List (Nat × Word)

/-- Package instances of a host with their handles, in handle order, less those that never ran. -/
def hostPackages (s : State) (h : Nat) : List (Nat × Block) :=
  (s.objs.filterMap fun o => match o.block? with
    | some b => if b.host == h && b.package != 0 then some (o.handle, b) else none
    | none => none).inOrder fun a b => a.1 ≤ b.1

/-- The Block of a page inside a host; one that is being retired comes first (R125). -/
def hostBlock (s : State) (h page : Nat) : Option Nat :=
  let bs := s.objs.filter fun o => match o.block? with
    | some b => b.host == h && b.page == page && b.package == 0
    | none => false
  match bs.find? (·.freeing) with
  | some o => some o.handle
  | none => bs.head?.map Obj.handle

/-- Instances whose present ashlar passes the input through (R108). -/
def skipped (s : State) (slot : Nat) : List Nat := (s.faults.skip.filter fun p => p.2 == slot).map (·.1)

/-- The input of an object's channel at sample `j` (R124, R129). -/
def chanInput (s : State) (o : Obj) (c : Chan) (k j : Nat) : Word :=
  if c.role == 0 then s.sinkWord 4 k o.handle (j - 8)
  else
    let kind := if c.role == 1 then 7 else 8
    fAdd (s.sinkWord kind (2 * k) o.handle (j - 8)) (s.sinkWord kind (2 * k + 1) o.handle (j - 8))

/-- Head and tail factors of a channel: trim, polarity, level, mute (R142). -/
def chanFactors (c : Chan) (m k : Nat) : List Word :=
  [c.gain m 0x0200, (valOf c.vals (signId k) 0 .sign).factor, c.gain m 0x0203, c.gain m 0x0204]

/-- One channel of an object at sample `j`. -/
def State.chanSample (s : State) (o : Obj) (c : Chan) (j k : Nat) : State × Samples :=
  let m := s.mult o.dom
  let step := s.maxMult o.dom
  let h := o.handle
  let ret := match hostBlock s h 9 with
    | some b => fMul (s.sinkWord 9 k b (j - 8)) (c.gain m 0x0902)
    | none => 0#32
  let handles := [3, 4, 5, 6, 7, 8, 9].filterMap fun p => (hostBlock s h p).map fun b => (p, b)
  let e : ChainEnv := { j := j, m := m, lam := lookahead (s.dom o.dom).rate, dc := dcWord (s.fs o.dom), ret := ret,
                        factors := chanFactors c m k, cough := c.cough.value, packages := hostPackages s h, handles := handles,
                        skip := skipped s (j / 8), revive := s.faults.revive }
  let st := c.chans.getD k { x1 := 0, y1 := 0, sx1 := 0, sy1 := 0, line := [], look := [], dry := [], line2 := [], look2 := [], dry2 := [], points := [] }
  let (st, points, free, nans) := chanRun e c st (chanInput s o c k j) s.freeCtr
  let kept := if j % 8 == 0 then points.map fun w => [w] else (st.points.zip points).map fun p => p.1 ++ [p.2]
  let s := s.upd h fun x => x.onChan fun c => { c with chans := modAt c.chans k fun _ => { st with points := kept } }
  let s := nans.foldl (fun s i => s.addCtr (ctrBlock i 1) 1) { s with freeCtr := free }
  let taps := c.tapRings.filterMap fun t =>
    if t.1 == 100 then some (t.2 + step * k, sendOut c m j points)
    else if t.1 ≥ 8 then some (t.2 + step * k, tapOut c m j (t.1 - 8) points)
    else none
  (s, (c.outRing + step * k, points.getD 12 0#32) :: taps)

/-- Every channel of an object at sample `j`. -/
def State.chanSamples (s : State) (h j : Nat) : Nat → Nat → State × Samples
  | 0, _ => (s, [])
  | n + 1, k =>
    match (s.obj h).bind fun o => o.chan?.map fun c => (o, c) with
    | none => (s, [])
    | some (o, c) =>
      let (s, a) := s.chanSample o c j k
      let (s, b) := s.chanSamples h j n (k + 1)
      (s, a ++ b)

end Sys2Proof.Machine
end

