-- ==== Sys2Proof/Machine/Splice.lean ====
section
/-! DEFINITION. A phase step in a domain (R40, R449-R451): the ashlars skipped, launches renumbered (R450), and the joins at TDM ports
and Bridges (R202-R204, R252). -/
namespace Sys2Proof.Machine

/-! ## Joins (R202, R204) -/

/-- One frame of `n` samples as an edge delivers it under its joins: `v` is what now follows, `hist` what was delivered, newest first. -/
def joinFrame (n : Nat) (hist : List (List Word)) (v : List Word) : List Joint → List Word × List Joint
  | [] => (v, [])
  | j :: js =>
    let u := if j.u.isEmpty && !j.live then hist else j.u
    let y := (List.range n).map fun k => blend 1 j.t j.l ((u.getD j.t []).getD k 0#32) (v.getD k 0#32)
    let u := if j.live then u ++ [v] else u
    if j.t + 1 ≥ j.l then (y, js) else (y, { j with t := j.t + 1, u := u } :: js)

/-- A crossfade of length `l` from the frames given; none at length 0 (R203). -/
def joinOf (l : Nat) (u : List (List Word)) : List Joint :=
  if l == 0 then [] else [{ skip := 0, t := 0, l := l, live := false, u := u }]

/-- The words of one output frame of a port, its joins applied and what it delivers kept. -/
def State.egressFrame (s : State) (p : Nat) (x : List Word) : List Word × State :=
  let t := s.port p
  let (y, js) := joinFrame t.slots t.hist x t.joints
  let s := s.setPort p fun t => { t with hist := (y :: t.hist).take 256, joints := js }
  (List.range t.slots).foldl (fun acc k =>
    let (w, s') := acc.2.portWord p k (y.getD k 0#32)
    (acc.1 ++ [w], s')) ([], s)

/-- Frames of samples from index `n` as output words. -/
def State.egressFrames (s : State) (p n : Nat) : List (List Word) → State × List (Nat × List Word)
  | [] => (s, [])
  | x :: xs =>
    let (ws, s) := s.egressFrame p x
    let (s, rest) := s.egressFrames p (n + 1) xs
    (s, (n, ws) :: rest)

/-! ## TDM ports (R451) -/

/-- The indices of samples and ages in the new numbering. -/
def Tdm.relabel (t : Tdm) (k : Int) : Tdm :=
  let g (i : Nat) : Nat := ((i : Int) + k).toNat
  { t with out := t.out.map fun o => (g o.1, o.2), tails := t.tails.map fun x => (x.1, g x.2), ages := t.ages.map fun a => (g a.1, a.2) }

/-- Samples that fill an output while its domain waits: the mirror of what it delivered, or a fade to 0.0 where that is too short. -/
def fillFrames (t : Tdm) (n l : Nat) (gap : Bool) : List (List Word) :=
  (List.range n).map fun i =>
    let u := t.hist.getD i []
    if gap then (List.range t.slots).map fun k => if i < l then fMul (weights 1 i l).1 (u.getD k 0#32) else 0#32 else u

/-- An output port at a step: `wait` sample periods filled, then the crossfade of R202; index `from_` comes first. -/
def State.stepOut (s : State) (d p wait from_ l : Nat) (k : Int) : State :=
  let s := s.setPort p fun t => { t.relabel k with dither := ditherSet t.dither t.ditherNext, ditherNext := none }
  let t := s.port p
  let gap : Bool := k < 0 && wait + l > 256
  let u := if gap then [[]] else if t.joints.isEmpty then t.hist.drop wait ++ [[]] else []
  let (s, ws) := s.egressFrames p from_ (fillFrames t wait l gap)
  let s := (s.setPort p fun t => { t with out := t.out ++ ws, joints := t.joints ++ joinOf l u }).addCtr (ctrTdm p 9) 1
  if gap then
    ((s.raiseObj t.owner 0x0B05 (le 1 d ++ le 3 0 ++ le 4 (portHandle p) ++ le 4 wait)).addCtr (ctrDom d 2) 1).stick 9
  else s

/-- An input port at a step: the frames that arrive while the domain waits are discarded, on a step back with a join. -/
def State.stepIn (s : State) (p wait l : Nat) (k : Int) : State :=
  let s := s.setPort p fun t =>
    { t.relabel k with joints := t.joints ++ (if wait == 0 then [] else [{ skip := wait, t := 0, l := if k < 0 then l else 0, live := true, u := [] }]) }
  if k < 0 then s.addCtr (ctrTdm p 9) 1 else s

/-- Discard the frames the joins of an input port name, and keep them as what the edge would have delivered. -/
def discardFrames : List Joint → List (Nat × List Word) → List Joint × List (Nat × List Word)
  | [], q => ([], q)
  | j :: js, q =>
    let (js', q') := discardFrames js (q.drop j.skip)
    let j' := { j with skip := 0, u := j.u ++ (q.take j.skip).map (·.2) }
    (if j'.l == 0 then js' else j' :: js', q')

/-- Ports of a domain, by direction. -/
def domPorts (s : State) (d dir : Nat) : List Nat :=
  (List.range 128).filter fun p => (s.port p).configured && (s.port p).dom == d && (s.port p).dir == dir

/-! ## Bridges (R252) -/

/-- The Bridges that splice when a domain steps, each once per step: those into it, and those out of it whose other domain neither
waits for the step nor is joining it. -/
def stepBridges (s : State) (d : Nat) : List (Obj × Bridge) :=
  s.bridges.filter fun p => p.2.to_ == d || (p.2.from_ == d && (s.dom p.2.to_).runs && (s.dom p.2.to_).step.isNone && p.2.joints.isEmpty)

/-- A Bridge joins its output from its next ashlar on, with the L of its output domain. -/
def State.stepBridge (s : State) (p : Obj × Bridge) : State :=
  let l := (s.dom p.2.to_).spliceL
  let u := if p.2.joints.isEmpty then p.2.hist ++ [[]] else []
  (s.upd p.1.handle fun o => o.onBridge fun b => { b with joints := b.joints ++ joinOf l u }).addCtr (ctrBridge p.1.idx) 1

/-! ## Launches (R450) -/

/-- An object's waiting changes of index `b` or more moved by `j`, and with them what runs across the skip. -/
def Obj.stepOver (d b j : Nat) (o : Obj) : Obj :=
  let o := o.mapIndices (fun i => if i ≥ b then i + j else i) d
  if o.dom != d then o else
  let p := o.params
  let o := o.setParams { p with twins := p.twins.map fun t => if t.s < b && t.after > b then { t with s := t.s + j } else t }
  match o.kind with
  | .route r => { o with kind := .route { r with kerf := r.kerf.map fun k => if k.s < b && b < k.s + k.t then { k with s := k.s + j } else k } }
  | .svc v => { o with kind := .svc { v with switch := v.switch.map fun w => (w.1 + j, w.2) } }
  | _ => o

/-- A recall's launch, plan point and waves in domain A's new numbering. -/
def Recall.stepOver (r : Recall) (s : State) (b j : Nat) : Recall :=
  let g (i : Nat) : Nat := if i ≥ b then i + j else i
  let i := r.ask s
  let r := if i ≥ b then { r with num := i + j, den := s.fs 0 } else r
  { r with plan := if r.plan != noPlan && 8 * r.plan ≥ b then r.plan + j / 8 else r.plan
           waves := r.waves.map fun w => { w with launch := g w.launch }
           last := if 8 * r.last ≥ b then r.last + j / 8 else r.last }

/-- Move every waiting change of a domain past the indices skipped. -/
def State.stepLaunches (s : State) (d b j : Nat) : State :=
  let s : State := { s with
    objs := s.objs.map (Obj.stepOver d b j)
    recalls := if d == 0 then s.recalls.map fun r => r.stepOver s b j else s.recalls
    tdm := s.tdm.map fun t => if t.dom == d then { t with slipDue := t.slipDue.map fun x => (if 8 * x.1 ≥ b then x.1 + j / 8 else x.1, x.2) } else t }
  let fading := (s.dom d).st == .fadingOut || (s.dom d).st == .fadingIn
  s.setDom d fun x =>
    let seq := x.seq.map fun q => if fading && q.restart == x.fadeFrom then { q with restart := q.restart + j }
      else if q.s ≥ b then { q with s := q.s + j } else q
    { x with seq := seq, fadeFrom := if fading then x.fadeFrom + j else x.fadeFrom }

/-! ## The step -/

/-- A domain takes its step once every ashlar before it has been processed (R40). -/
def State.takeStep (s : State) (d : Nat) : State :=
  match (s.dom d).step with
  | none => s
  | some (k, b0) =>
    if !((s.dom d).runs) then s.setDom d fun x => { x with step := none }
    else if 8 * (s.dom d).next < b0 then s
    else
      let b := 8 * (s.dom d).next
      let next := max (b / 8) (ceilDiv ((b : Int) + k).toNat 8)
      let l := (s.dom d).spliceL
      let j := 8 * next - b
      let wait := ((8 * next : Nat) - ((b : Int) + k)).toNat
      let s := s.setDom d fun x => { x with step := none, next := next }
      let s := if d == 0 then s.gapSnaps fun p => b / 8 ≤ p.ashlar && p.ashlar < next && p.counts.isNone else s
      let s := if j > 0 then s.stepLaunches d b j else s
      let outs := domPorts s d 1
      let ins := domPorts s d 0
      let bs := stepBridges s d
      let s := outs.foldl (fun s p => s.stepOut d p wait (8 * next - wait) l k) s
      let s := ins.foldl (fun s p => s.stepIn p wait l k) s
      let s := bs.foldl State.stepBridge s
      let edges := outs.length + (if k < 0 then ins.length else 0) + (bs.filter fun x => x.2.to_ == d).length
      let s := (s.addCtr (ctrDom d 0) 1).addCtr (ctrDom d 1) (j / 8)
      s.raise0 0x0B04 (le 1 d ++ le 1 0 ++ le 2 l ++ le 4 (twos 32 k) ++ le 4 edges ++ le 4 0 ++ le 8 next)

/-- OFFSET takes the step at its boundary, the frames waiting at the ports keep their age, and each running domain is given it. -/
def State.phaseStep (s : State) (e : Int) (i a b : Nat) : State :=
  let q := instantOf i (s.fs 0)
  let s := s.carryTo q
  let s := (List.range 3).foldl (fun s d => s.domStep d q e) s
  let s := s.setOffset ((s.clk.offset : Int) + e)
  let s : State := { s with tdm := s.tdm.map fun t => { t with queue := t.queue.map fun x => (((x.1 : Int) + e).toNat, x.2) } }
  let s := ((s.onTiming fun t => { t with lastStep := e }).stick 2).refSwitched a b e
  (List.range 3).foldl State.takeStep s

/-- PHASE_STEP_APPLY: the step decided is made at its tick boundary. -/
def execPhaseStepApply (s : State) : Host.Outcome State Fault Refusal :=
  .next (match s.timing.stepDue with
    | none => s
    | some (e, i, a, b) =>
      if !s.dieOn then s else
      let s := s.onTiming fun t => { t with stepDue := none }
      if s.setting then s else s.phaseStep e i a b)

end Sys2Proof.Machine
end

