-- ==== Sys2Proof/Machine/ServiceAudio.lean ====
section
/-! DEFINITION. The samples of Services (R270-R276), Captures (R277-R279), Meters (R264), Bridges (R248, R252), Bench columns (R175) and
standalone package blocks. Each step gives one index of an object: its new state and the samples of its output rings. -/
namespace Sys2Proof.Machine

/-! ## Ramps going on to their next sample -/

/-- Every ramp of an object at its next sample. -/
def Obj.tick (o : Obj) : Obj :=
  let p := o.params
  let o := if p.vals.isEmpty then o else o.setParams { p with vals := p.vals.map PVal.tick }
  match o.kind with
  | .chan c => { o with kind := .chan { c with cough := c.cough.tick } }
  | .tiles t => { o with kind := .tiles t.tickAll }
  | .svc v => { o with kind := .svc { v with
      keyRamps := v.keyRamps.map GainRec.tick, dim := v.dim.tick, solos := v.solos.map fun x => { x with fade := x.fade.tick } } }
  | _ => o

/-! ## Taps (R160, R262) -/

/-- The sample a tap gives: what the tapped object computed in the slot before, in `s0`. -/
def tapSample (s0 : State) (obj chan point k : Nat) : Word :=
  match (s0.obj obj).bind Obj.chan? with
  | some c => ((((c.chans[chan]?).map (·.points)).getD []).getD point []).getD k 0#32
  | none => 0#32

/-! ## Mix-minus (R190, R270) -/

/-- Running sums of a list, each before its own element is added. -/
def sumsBefore (acc : Word) : List Word → List Word
  | [] => []
  | y :: ys => acc :: sumsBefore (fAdd acc y) ys

/-- Every sum but one's own. -/
def mixMinus (ys : List Word) : List Word :=
  ((sumsBefore 0#32 ys).zip (sumsBefore 0#32 ys.reverse).reverse).map fun p => fAdd p.1 p.2

/-! ## Automixer (R271) -/

/-- The estimate of one channel after a sample. -/
def estimate (e x : Word) (tau : Nat) : Word := fAdd e (fDiv (fSub (fMul x x) e) (fInt tau))

/-- A channel's gain at sample `k` of an ashlar. -/
def mixGain (old new : Word) (k : Nat) : Word := fAdd old (fDiv (fMul (fSub new old) (fInt (k + 1))) (fInt 8))

def fMax2 (a b : Word) : Word := if fLt a b then b else a

/-- The gains the next ashlar reaches; a sum of 0.0 leaves the shares open. -/
def Svc.nextGains (v : Svc) (s : State) : List Word × State :=
  let mode (i : Nat) : Nat := (v.val (0x3340 + i)).use
  let auto := (List.range v.size).filter fun i => mode i == 0
  let fl := v.floorPow
  let e (i : Nat) : Word := v.est.getD i 0#32
  let hold := (v.val 0x3382).use == 1 && auto.all fun i => !(fLt fl (e i))
  let share (i : Nat) : Word := fMul (fRat (v.val (0x3300 + i)).use 65536) (fMax2 (e i) fl)
  let sum := auto.foldl (fun a i => fAdd a (share i)) 0#32
  (List.range v.size).foldl (fun acc i =>
    let (gs, s) := acc
    match mode i with
    | 0 =>
      if hold then (gs ++ [v.gOld.getD i 0#32], s)
      else if fIsZero sum then let (w, s) := s.draw; (gs ++ [w], s)
      else (gs ++ [fDiv (share i) sum], s)
    | 1 => (gs ++ [oneW], s)
    | _ => (gs ++ [0#32], s)) ([], s)

/-! ## Oscillator (R275) -/

/-- Mutes of an identification pattern: (first sample, length) in a cycle, at multiplier `m`. -/
def identMutes (wave ch m : Nat) : List (Nat × Nat) :=
  if wave == 3 then (if ch == 0 then [(0, 12000 * m)] else [])
  else if wave == 4 then (List.range (ch + 1)).map fun i => (9600 * m * i, 4800 * m)
  else []

/-- Factor of an identification pattern at sample `j`: each edge ramps over 48 base-rate samples from the edge on. -/
def identFactor (wave ch m j : Nat) : Word :=
  let p := j % ((if wave == 3 then 144000 else 192000) * m)
  match (identMutes wave ch m).find? fun x => x.1 ≤ p && p < x.1 + x.2 + 48 * m with
  | some (a, n) => if p < a + n then rampAt false a (48 * m) p else rampAt true (a + n) (48 * m) p
  | none => oneW

/-- The waveform of a channel for the values a list of TWINs gives; noise is open. -/
def Svc.wave (v : Svc) (s : State) (fs m j ch : Nat) (ts : List Twin) : Word × State :=
  let wave := overVal ts 0x3700 (v.val 0x3700).use
  let f := min (overVal ts 0x3701 (v.val 0x3701).use) (450 * fs)
  if wave == 1 || wave == 2 then s.draw
  else
    let x := fSinTurn (f * j % (1000 * fs)) (1000 * fs)
    (if wave == 0 then x else fMul x (identFactor wave ch m j), s)

/-- One channel of an oscillator. -/
def Svc.osc (v : Svc) (s : State) (fs m j ch : Nat) : Word × State :=
  let ended := endedTwins v.twins j
  let (a, s) := v.wave s fs m j ch ended
  let level := (v.val 0x3702).factor
  let mute := (valOf v.vals (signId ch) 0 .mute).factor
  let out (x : Word) : Word := fMul (fMul x level) mute
  match liveTwin v.twins 0 j with
  | none => (out a, s)
  | some t =>
    let (b, s) := v.wave s fs m j ch (ended ++ [t])
    (t.mix j (out a) (out b), s)

/-! ## Solo bus (R276) -/

/-- The solo sum of output `out` at sample `k` of the slot. -/
def Svc.soloSum (v : Svc) (s0 : State) (k out : Nat) : Word :=
  let xs := v.solos.inOrder fun a b => a.obj < b.obj || (a.obj == b.obj && (a.chan < b.chan || (a.chan == b.chan && a.mode ≤ b.mode)))
  xs.foldl (fun acc x =>
    let width := (((s0.obj x.obj).bind Obj.chan?).map (·.width)).getD 0
    let y := tapSample s0 x.obj x.chan (if x.mode == 0 then 11 else 12) k
    if width == 1 then fAdd acc (fMul (fMul y (fGainInt (-301))) x.fade.value)
    else if x.chan == out then fAdd acc (fMul y x.fade.value)
    else acc) 0#32

/-- Output `out` of a solo bus. -/
def Svc.solo (v : Svc) (s0 : State) (monitor : Word) (j out : Nat) : Word :=
  let on := fAdd (fMul (v.soloSum s0 (j % 8) out) (v.val 0x3800).factor) (fMul (v.val 0x3801).factor monitor)
  let (old, new) := if v.active then (monitor, on) else (on, monitor)
  match v.switch with
  | some (a, t) => if j < a + t then blend 1 (j - a) t old new else new
  | none => new

/-! ## A Service at a sample -/

/-- Samples of a Service at index `j`; `tau` is an automixer's TAU at the ashlar's first sample, `s0` the state before the slot. -/
def State.svcSample (s s0 : State) (o : Obj) (v : Svc) (tau j : Nat) : State × Samples :=
  let h := o.handle
  let step := s.maxMult o.dom
  let m := s.mult o.dom
  let x (i : Nat) : Word := s.sinkWord 11 i h (j - 8)
  let rings (ws : List Word) : Samples := (List.range ws.length).map fun i => (v.firstRing + step * i, ws.getD i 0#32)
  match v.kind with
  | 1 =>
    let outs := mixMinus ((List.range v.size).map x)
    (s, rings ((List.range v.size).map fun i => fMul (outs.getD i 0#32) (v.val (0x3200 + i)).factor))
  | 2 =>
    let xs := (List.range v.size).map x
    let est := (List.range v.size).map fun i => estimate (v.est.getD i 0#32) (xs.getD i 0#32) (tau * m)
    let outs := (List.range v.size).map fun i => fMul (xs.getD i 0#32) (mixGain (v.gOld.getD i 0#32) (v.gNew.getD i 0#32) (j % 8))
    let v : Svc := { v with est := est }
    let (v, s) : Svc × State :=
      if j % 8 == 7 then
        let v : Svc := { v with gOld := v.gNew }
        let (g, s) := v.nextGains s
        ({ v with gNew := g }, s)
      else (v, s)
    (s.upd h fun y => y.onSvc fun _ => v,
     rings (outs ++ List.replicate (64 - v.size) 0#32 ++ [outs.foldl fAdd 0#32]))
  | 3 =>
    let prog := fMul (x 0) (v.val 0x3600).factor
    let talk := (List.range 4).foldl (fun acc k =>
      fAdd acc (fMul (x (k + 1)) (fMul ((v.keyRamps.getD k (GainRec.rest 0#32)).value) (v.val (0x3602 + k)).factor))) 0#32
    (s, rings (if v.mode == 0 then [fAdd (fMul prog v.dim.factor) talk] else [prog, talk]))
  | 4 =>
    let (ws, s) := (List.range v.size).foldl (fun acc ch =>
      let (w, s') := v.osc acc.2 (s.fs o.dom) m j ch
      (acc.1 ++ [w], s')) ([], s)
    (s, rings ws)
  | _ => (s, rings [v.solo s0 (x 0) j 0, v.solo s0 (x 1) j 1])

/-! ## Captures (R277-R279) -/

/-- Record route index `i`. -/
def Capture.take (c : Capture) (i : Nat) (ws : List Word) : Capture :=
  let on : Bool := match c.st with
    | .rolling => true
    | .freezing => i < c.f + c.post
    | _ => false
  if on then { c with record := (i, ws) :: c.record.filter fun r => i < r.1 + c.length } else c

/-- The playback sample of a channel at index `j`. -/
def Capture.playSample (c : Capture) (level : Word) (j ch : Nat) : Word :=
  match c.play with
  | none => 0#32
  | some p =>
    if j < p.s || j ≥ p.after c.tPlay then 0#32 else
    let k := j - p.s
    let x := fMul (c.at (c.start + p.start + k) ch) level
    let x := if k < c.tPlay then fMul x (rampAt true p.s c.tPlay j) else x
    let x := if k + c.tPlay ≥ p.count then fMul x (rampAt false (p.s + p.count - c.tPlay) c.tPlay j) else x
    match p.stop with
    | some i => if i ≤ j then fMul x (rampAt false i c.tPlay j) else x
    | none => x

/-- A Capture at index `j`. -/
def State.captureSample (s : State) (o : Obj) (c : Capture) (j : Nat) : State × Samples :=
  let h := o.handle
  let level := (valOf c.vals 0x3901 0 .db).factor
  let ws := (List.range c.channels).map fun ch => s.sinkWord 12 ch h (j - 8)
  let s := if j < 8 then s else s.upd h fun x => x.onCapture fun c => c.take (j - 8) ws
  (s, (List.range c.channels).map fun ch => (c.firstRing + s.maxMult o.dom * ch, c.playSample level j ch))

/-! ## Meters (R264, R265) -/

/-- What a point measures at index `j`: its tap, or its route; none without either. -/
def pointSample (s s0 : State) (h : Nat) (m : Meter) (i j : Nat) : Option Word :=
  match m.taps.find? fun t => t.point == i with
  | some t => some (tapSample s0 t.obj t.chan t.pick (j % 8))
  | none => (s.routeTo 11 i h).map fun r => s.routeValue r.2 (j - 8)

/-- The values of a point at the end of a tick: peak, true peak, PPM, VU, correlation, overs; those beside the peak are open, and a
point without a source measures 0.0. -/
def endPoint (s : State) (m : Meter) (i : Nat) (p : MPoint) (bound : Bool) : List Word × State :=
  if !bound then (List.replicate 6 0#32, s)
  else
    let (ws, s) := State.drawN 5 s
    let corr := if m.paired && i % 2 == 0 then ws.getD 3 0#32 else 0#32
    (p.peak :: (ws.take 3 ++ [corr, BitVec.ofNat 32 ((ws.getD 4 0#32).toNat % 65536)]), s)

/-- A Meter of points at index `j`. -/
def State.meterSample (s s0 : State) (o : Obj) (m : Meter) (j : Nat) : State :=
  if m.loud then s else
  let h := o.handle
  let on := j / 8 % 2 ^ m.refresh == 0
  let ended := (j + 1) % s.tickLen o.dom == 0
  if !on && !ended then s else
  let xs := (List.range m.points).map fun i => pointSample s s0 h m i j
  let (st, s) := (List.range m.points).foldl (fun acc i =>
    let (st, s) := acc
    let p := m.state.getD i { peak := 0, done := [], doneTick := 0 }
    let x := xs.getD i none
    let p := if on then { p with peak := fMaxAbs p.peak (x.getD 0#32) } else p
    if ended then
      let (ws, s) := endPoint s m i p x.isSome
      (st ++ [({ peak := 0, done := ws, doneTick := j / s.tickLen o.dom } : MPoint)], s)
    else (st ++ [p], s)) ([], s)
  s.upd h fun x => x.onMeter fun m => { m with state := st }

/-! ## Bridges (R247, R248, R252) -/

/-- What a Bridge's input reads at index `i` of its input domain: 0.0 where that domain processes nothing, faded at its edge. -/
def bridgeInput (s : State) (h : Nat) (b : Bridge) (ch i : Nat) : Word :=
  if (s.dom b.from_).runs then s.edge b.from_ i (s.sinkWord 10 ch h i) else 0#32

/-- A Bridge at index `j`: COPY passes samples, the filters of the other types are open. -/
def State.bridgeSample (s : State) (o : Obj) (b : Bridge) (j : Nat) : State × Samples :=
  let h := o.handle
  let (v, s) : List Word × State :=
    if j < b.start then (List.replicate b.channels 0#32, s)
    else if b.typ == 0 then ((List.range b.channels).map fun ch => bridgeInput s h b ch (j - 8), s)
    else State.drawN b.channels s
  let (y, js) := joinFrame b.channels b.hist v b.joints
  (s.upd h fun x => x.onBridge fun b => { b with hist := (y :: b.hist).take 256, joints := js },
   (List.range b.channels).map fun ch => (b.firstRing + s.maxMult o.dom * ch, y.getD ch 0#32))

/-! ## The Bench (R175-R177) -/

/-- A tile set at index `j`: its columns, and a BENCH_CLIP for each that was limited. -/
def State.tilesSample (s : State) (o : Obj) (t : Tiles) (j : Nat) : State × Samples :=
  let x (row : Nat) : Word := s.sinkWord (if t.tier == 1 then 5 else 6) row o.handle (j - 8)
  let outs := (List.range t.cols).map fun col => colSum t x col
  ((outs.filter (·.2)).foldl (fun s _ => s.clip o) s,
   (List.range t.cols).map fun col => (t.firstRing + s.maxMult o.dom * col, (outs.getD col (0#32, false)).1))

/-! ## Standalone package blocks (R107, R108, R162) -/

/-- A package block that stands alone at index `j`. -/
def State.blockSample (s : State) (o : Obj) (b : Block) (j : Nat) : State × Samples :=
  let h := o.handle
  let step := s.maxMult o.dom
  let pass := b.bypass || (skipped s (j / 8)).contains h
  (List.range b.chOut).foldl (fun acc k =>
    let (s, ws) := acc
    let input := if b.chIn == b.chOut then s.sinkWord 9 k h (j - 8) else 0#32
    let (w, s) : Word × State :=
      if pass then (input, s)
      else if b.removed && b.retire.isNone then (0#32, s)
      else
        let (w, s) := s.draw
        let (w, s) : Word × State := if fSpecial w then (0#32, s.addCtr (ctrBlock o.idx 1) 1) else (w, s)
        (retireMix b j (reviveAt s.faults.revive h j w) 0#32, s)
    (s, ws ++ [(b.firstRing + step * k, w)])) (s, [])

/-! ## Any object at a sample -/

/-- One object at index `j`. -/
def State.objSample (s s0 : State) (h tau j : Nat) : State × Samples :=
  match s.obj h with
  | none => (s, [])
  | some o =>
    match o.kind with
    | .chan c => s.chanSamples h j c.width 0
    | .tiles t => s.tilesSample o t j
    | .svc v => s.svcSample s0 o v tau j
    | .capture c => s.captureSample o c j
    | .meter m => (s.meterSample s0 o m j, [])
    | .bridge b => s.bridgeSample o b j
    | .block b => if b.host == 0 && b.package != 0 then s.blockSample o b j else (s, [])
    | _ => (s, [])

end Sys2Proof.Machine
end

