-- ==== Sys2Proof/Machine/Slot.lean ====
section
/-! DEFINITION. One slot of a domain (R43): its boundary, the ingress and egress of its ports, the samples of its objects, its routes'
underruns and checks, and in domain A the Seam frame, the vote and the Tether frame of the ashlar before. -/
namespace Sys2Proof.Machine

/-! ## Reads of the slot (R65, R66, R496) -/

/-- Every reading that the routes of a domain make in slot `a`, with its route index. -/
def slotReads (s : State) (d a : Nat) : List ((Nat × Nat) × Nat) :=
  if a == 0 then [] else
  (s.routes.filter fun r => r.1.dom == d).flatMap fun r =>
    (List.range 8).flatMap fun k => (r.2.readings (8 * a - 8 + k)).map fun p => (p, 8 * a - 8 + k)

/-- The ring ashlars that readings in slot `a` touch in the Ring Store, each once. -/
def slotAshlars (s : State) (a : Nat) (ps : List (Nat × Nat)) : List (Nat × Nat) :=
  (ps.flatMap fun p => match (s.obj p.1).bind Obj.ring? with
    | some r => if r.deep && p.2 > r.head - 16 then [] else (touched s r p.2 a).map fun x => (hIdx p.1, x)
    | none => []).eraseDups

/-- Verify the check of one ring ashlar (R496). -/
def State.verify (s : State) (i x : Nat) : State :=
  match s.ringAt i with
  | none => s
  | some (_, r) =>
    let (row, pos) := r.place x
    match r.rows[row]? with
    | none => s
    | some p => if s.checkFails r x then s.checkFailed i p.1 (256 * p.2 + 32 * pos) else s

/-- The underruns and the checks of a slot's reads. -/
def State.countSlot (s : State) (d a : Nat) : State :=
  let rs := slotReads s d a
  let ps := (rs.map (·.1)).eraseDups
  let s := ps.foldl (fun s p => s.countReads p ((rs.filter fun r => r.1 == p).map (·.2)).eraseDups) s
  (slotAshlars s a ps).foldl (fun s x => s.verify x.1 x.2) s

/-! ## Samples of the objects -/

/-- The cough factor of each Strip follows its flag over 240 base-rate samples (R431). -/
def State.coughs (s : State) (d : Nat) : State :=
  { s with objs := s.objs.map fun o =>
      if o.dom != d then o else o.onChan fun c =>
        let to_ : Word := if fieldFlag s 3 o.handle then 0#32 else oneW
        if c.role != 0 || c.cough.gainEnd == to_ then c else { c with cough := GainRec.start to_ c.cough.value (240 * s.mult d) } }

/-- What takes effect at index `j` of a domain, and every ramp at its next sample. -/
def State.launchSample (s : State) (d j : Nat) : State :=
  let tick := j % s.tickLen d == 0
  let s := s.launchAll d j tick
  let s := if tick then s.groupTick d j false else s
  let s := s.launchRoutes d (j - 8)
  { s with objs := s.objs.map fun o => if o.dom == d then o.tick else o }

/-- TAU of every automixer. -/
def tausOf (s : State) : List (Nat × Nat) := (s.svcs 2).map fun p => (p.1.handle, (p.2.val 0x3380).use)

/-- Index `j` of some objects, in order. -/
def State.sampleObjs (s0 : State) (taus : List (Nat × Nat)) (j : Nat) : List Nat → State → State × Samples
  | [], s => (s, [])
  | h :: hs, s =>
    let (s, a) := s.objSample s0 h (assoc taus h) j
    let (s, b) := State.sampleObjs s0 taus j hs s
    (s, a ++ b)

/-- The last `n` samples of slot `a`, in order. -/
def State.slotSamples (s0 : State) (d a : Nat) : Nat → List (Nat × Nat) → State → State × List Samples
  | 0, _, s => (s, [])
  | n + 1, taus, s =>
    let j := 8 * a + 7 - n
    let s := s.launchSample d j
    let taus := if j % 8 == 0 then tausOf s else taus
    let hs := (s.objs.filter fun o => o.dom == d).map Obj.handle
    let (s, x) := State.sampleObjs s0 taus j hs s
    let (s, xs) := State.slotSamples s0 d a n taus s
    (s, x :: xs)

/-- Write every ring that a slot's objects feed (R59). -/
def State.writeRings (s : State) (a : Nat) (xs : List Samples) : State :=
  let word (l : Samples) (i : Nat) : Word := ((l.find? fun p => p.1 == i).map (·.2)).getD 0#32
  ((xs.flatMap fun l => l.map (·.1)).eraseDups).foldl (fun s i => s.writeAshlar i a (xs.map fun l => word l i)) s

/-! ## Ports (R44, R412, R415) -/

/-- Frames of a port as its edge delivers them, from index `n`: joined, kept, and faded. -/
def State.edgeFrames (s : State) (p d n : Nat) : List (List Word) → State × List (List Word)
  | [] => (s, [])
  | x :: xs =>
    let t := s.port p
    let (y, js) := joinFrame t.slots t.hist x t.joints
    let s := s.setPort p fun t => { t with hist := (y :: t.hist).take 256, joints := js }
    let z := y.map fun w => s.edge d n w
    let (s, zs) := s.edgeFrames p d (n + 1) xs
    (s, z :: zs)

/-- Ingress of an input port in slot `a`: the periods of the ashlar before become ring ashlar `a`. -/
def State.ingress (s : State) (d a p : Nat) : State :=
  let t := s.port p
  let (js, q) := discardFrames t.joints t.queue
  let (frames, nans, t) := Tdm.deliverAll (s.fs d) 8 (8 * a - 8) { t with joints := js, queue := q }
  let s := (s.setPort p fun _ => t).addCtr (ctrTdm p 6) nans
  let (s, out) := s.edgeFrames p d (8 * a) frames
  t.binds.foldl (fun s b => s.writeAshlar b.2 a (out.map fun f => f.getD b.1 0#32)) s

/-- Remember the latest vote of an egress port (R472). -/
def State.vote (s : State) (h : Nat) (bs : List Byte) : State :=
  if s.red.mode != 2 then s else s.onRed fun r => { r with voting := assocSet r.voting h (crc64 bs).toNat }

/-- Egress of an output port in slot `a` (R44). -/
def State.egressSlot (s : State) (d a p : Nat) : State :=
  let h := portHandle p
  let s := s.setPort p (Tdm.takeDither a)
  let t := s.port p
  let frames := (List.range 8).map fun i => (List.range t.slots).map fun k => s.edge d (8 * a + i) (s.sinkWord 1 k h (8 * a - 8 + i))
  let (s, ws) := s.egressFrames p (8 * a) frames
  let s := if (ownedSlots s p).isEmpty then s else s.vote h (ws.flatMap fun w => wordBytes w.2)
  s.setPort p fun t => t.queueOut a ws

/-- The sample frames a transmit Stream gains in slot `a` (R391). -/
def State.streamSlot (s : State) (d a : Nat) (o : Obj) (st : Stream) : State :=
  let frames := (List.range 8).map fun i => (8 * a + i, (List.range st.channels).map fun k =>
    s.edge d (8 * a + i) (st.faded (s.sinkWord 2 k o.handle (8 * a - 8 + i)) (8 * a + i)))
  let s := s.upd o.handle fun x => x.onStream fun t => { t with pend := t.pend ++ frames }
  if s.red.mode != 2 then s else
  let (bs, s) := frames.foldl (fun (acc : List Byte × State) f =>
    let (b, s) := st.frameBytes f.1 f.2 (List.range st.channels) acc.2
    (acc.1 ++ b, s)) ([], s)
  s.vote o.handle bs

/-- All egress of a slot. -/
def State.egressAll (s : State) (d a : Nat) : State :=
  let s := (domPorts s d 1).foldl (fun s p => s.egressSlot d a p) s
  (s.streams.filter fun x => x.1.dom == d && x.2.tx).foldl (fun s x => s.streamSlot d a x.1 x.2) s

/-! ## The Seam frame (R361-R365) -/

/-- A lane that sends frames: carrying or training, and not returning its peer's characters (R372, R374). -/
def sendsFrames (s : State) (l : Nat) : Bool := seamMode s l && ((s.lane l).isUp || (s.lane l).st == .training) && !(loopsBack s l)

/-- The header of the frame for ashlar `f`; the measured RX_OFFSET is open (log entry 2). -/
def State.seamHeader (s : State) (l f : Nat) (records : List CtrlRec) : SeamHdr × State :=
  let (rx, s) := s.drawInt
  let q := s.quarry
  ({ ok := true, ashOk := true, ashlar := f, engine := s.extId, keeper := q.keeper, hops := q.hops, topo := topoBits s l,
     claim := if s.red.ownOut then s.red.claimNow else 0, quality := s.qualityOut, epoch := s.epoch, mult := (s.lane l).mult,
     window := (s.lane l).window, p := q.p, nextP := if q.nextAt == 0 then q.p else q.nextP, nextPAshlar := q.nextAt, rxOffset := rx,
     inTime := true, delayPs := 0, records := records }, s)

/-- Own-rate words of a send route for ashlar `f` of domain A: 0.0 where the domain of that rate does not run. -/
def sendWords (s : State) (m f : Nat) (r : Route) : List Word :=
  let d := seamDom s m
  (List.range (8 * m)).map fun k =>
    if (s.dom d).runs && s.mult d == m then s.edge d (8 * m * f + k) (s.routeValue r (8 * m * f + k)) else 0#32

/-- Send routes of a lane and of its ring mate. -/
def laneSends (s : State) (l : Nat) : List (Obj × Route) :=
  let ls := l :: (ringMate s l).toList
  s.routes.filter fun r => r.2.kind == 3 && ls.any fun i => r.2.sink == laneHandle i

/-- The frame for ashlar `f` is opened on a lane: forwarding entries come into force, segments left over are counted, the header goes
out and the 28 segments wait with their send slots. -/
def State.openFrame (s : State) (l f : Nat) : State :=
  let overs := ((s.lane l).ready.filter fun e => e.1 + 1 == f).length
  let s := (s.setLane l fun x => { x.applyFwd f with ready := x.ready.filter fun e => f ≤ e.1 + 64 }).addCtr (ctrLane l 5) overs
  let (now, rest) := fitting 1024 (s.lane l).origin
  let (h, s) := s.seamHeader l f now
  let s := (s.setLane l fun x => { x with origin := rest }).emit (.seamFrame l h)
  let ln := s.lane l
  let sends := (laneSends s l).map fun r => (r.2.sub, sendWords s ln.mult f r.2)
  let segs := (List.range 28).foldl (fun r k => if r.any fun e => e.1 == f && e.2.1 == k then r else r ++ [(f, k, [])]) ln.ready
  s.setLane l fun x => { x with ready := sends.foldl (fun r e => addReady ln.perSeg f e.1 e.2 r) segs }

/-- The bytes a lane's vote covers: its 28 data segments of ashlar `f`. -/
def laneBytes (ln : Lane) (f : Nat) : List Byte :=
  (List.range 28).flatMap fun k =>
    wordBytes (segWords ln.mult k (((ln.ready.find? fun e => e.1 == f && e.2.1 == k).map (·.2.2)).getD []))

/-- One lane's part of the frame for ashlar `f`. -/
def State.sendSeam (s : State) (f l : Nat) : State :=
  if !(sendsFrames s l) then s else
  let s := s.openFrame l f
  let s := s.vote (laneHandle l) (if s.red.mode == 2 then laneBytes (s.lane l) f else [])
  State.sendReady l 32 ((State.sendOwed l 32 s).sendRelays l)

/-- A handle names an egress port (R472). -/
def votes (s : State) (h : Nat) : Bool :=
  if hType h == tStream then ((s.obj h).bind Obj.stream?).any (·.tx)
  else if hIdx h < 128 then !(ownedSlots s (hIdx h)).isEmpty
  else seamMode s (hIdx h - 256)

/-- What domain A's slot sends for the ashlar before: Seam frames, then the vote and the Tether frame. `old` is the votes before this
slot, those of TDM ports and Streams among them. -/
def State.sendFrames (s : State) (a : Nat) (old : List (Nat × Nat)) : State :=
  let s := (((List.range 32).foldl (fun s l => s.sendSeam (a - 1) l) s).launchSends a).finishFrees
  if s.halted then s else
  let lane (v : Nat × Nat) : Bool := hType v.1 == tPort && hIdx v.1 ≥ 128
  let vs := ((old.filter fun v => !(lane v)) ++ s.red.voting.filter lane).filter fun v => votes s v.1
  (s.keepVotes (a - 1) (vs.inOrder fun x y => x.1 ≤ y.1)).sendTether (a - 1)

/-! ## Boundaries -/

/-- Ports of a bank that has left the class it had at start are released (R578). -/
def State.sensedBanks (s : State) (vio : List Nat) : State :=
  let now := (List.range 8).map fun k => vio.getD k 0 % 4
  let s := s.onHost fun h => { h with bankVio := now }
  let used (k : Nat) : Bool := (List.range 16).any fun i => (s.port (16 * k + i)).configured
  let gone := (List.range 8).filter fun k => used k && now.getD k 0 != s.host.bankStart.getD k 0 && !(s.host.bankLost.contains k)
  let s := s.onHost fun h => { h with bankLost := h.bankLost ++ gone }
  gone.foldl (fun s k => (List.range 16).foldl (fun s i =>
    if (s.port (16 * k + i)).configured then s.clockLost (16 * k + i) else s) s) s

/-- The end of domain A's ashlar before slot `a`: counters published and latched, port status, and what firmware does at a boundary. -/
def State.boundaryA (s : State) (a : Nat) (vio : List Nat) : State :=
  let s := s.latchCounts fun p => p.gap || p.ashlar < a
  let s : State := { s with snap := { s.snap with live := s.ctrs, liveAshlar := a - 1 } }
  let s := s.sensedBanks vio
  let status := portStatus s
  let s := s.onHost fun h => { h with status := status }
  if s.halted then s else ((s.redBoundary a).retryFaults).restoreMeter

/-- Marks of instances that a slot has used up. -/
def State.pruneMarks (s : State) (d a : Nat) : State :=
  s.onFaults fun x => { x with
    skip := x.skip.filter fun p => !(s.domOf p.1 == d && p.2 ≤ a) && (s.obj p.1).isSome
    revive := x.revive.filter fun p => !(s.domOf p.1 == d && p.2 + 480 ≤ 8 * (a + 1)) && (s.obj p.1).isSome }

/-! ## The slot -/

/-- The audio of slot `a` of a domain. -/
def State.slotAudio (s : State) (d a : Nat) : State :=
  let s := (domPorts s d 0 ++ domPorts s d 1).foldl (fun s p => s.portSlips p a) s
  -- the egress stage reads its routes before the changes of this slot's indices launch
  let s := (((s.countSlot d a).egressAll d a).startTwins d a).coughs d
  let (s, xs) := State.slotSamples s d a 8 [] s
  let s := (s.writeRings a xs).launchCopies d (8 * a)
  (domPorts s d 0).foldl (fun s p => s.ingress d a p) s

/-- Slot `a` of a domain, after its boundary. -/
def State.slot (s : State) (d a : Nat) (errors : List MemError) : State :=
  let old := s.red.voting
  let s := errors.foldl State.memError (s.turnRings d a)
  let s := s.slotAudio d a
  let s := s.setDom d fun x => { x with next := a + 1 }
  let s := ((s.finishKerfs d a).retireRemoved d).pruneMarks d a
  let s := if d == 0 then s.sendFrames a old else s
  s.takeStep d

/-- The next slot of a domain that runs, at its instant. A fade-out that has ended waits for its stop instant. -/
def State.runSlot (s : State) (d : Nat) (vio : List Nat) (errors : List MemError) : State :=
  let s := (s.takeStep d).fadeStart d
  let a := (s.dom d).next
  if (s.dom d).st == .fadingOut && 8 * a ≥ stopIndex s d (s.dom d).fadeFrom then s
  else
    let s := s.carryTo (instantOf (8 * a) (s.fs d))
    let s := if d == 0 then s.boundaryA a vio else s
    s.slot d a errors

/-- ASHLAR_SLOT: `bankVio` is what is sensed on TVDDk at domain A's boundary, `errors` what the slot's reads and instances meet. -/
def execAshlarSlot (dom : Nat) (bankVio : List Nat) (errors : List MemError) (s : State) : Host.Outcome State Fault Refusal :=
  .next (if s.dieOn && dom ≤ 2 && (s.dom dom).runs then s.runSlot dom bankVio errors else s)

end Sys2Proof.Machine
end

