-- ==== Sys2Proof/Machine/Tick.lean ====
section
/-! DEFINITION. Control ticks (R41, R52, R186) with the telemetry banks (R266, R269), field outputs (R427) and clock outputs (R454);
loudness block steps (R267), silent writers (R61), and the latching of snapshots (R514-R520). -/
namespace Sys2Proof.Machine

/-! ## Telemetry banks (R266, R269) -/

/-- Header of a meter or loudness bank. -/
def telemetryHeader (seq k ashlar points : Nat) : List Byte := le 4 seq ++ le 4 0 ++ le 8 k ++ le 8 ashlar ++ le 4 points

/-- The record of point `i` of a Meter. -/
def pointRecord (s : State) (o : Obj) (m : Meter) (i : Nat) : List Byte :=
  let p := m.state.getD i { peak := 0, done := [], doneTick := 0 }
  let w (k : Nat) : Word := p.done.getD k 0#32
  let source := (m.taps.any fun t => t.point == i) || (s.routeTo 11 i o.handle).isSome
  (List.range 5).flatMap (fun k => leWord (w k)) ++ le 2 (w 5).toNat ++ le 1 (1 + flagAt (m.refresh > 0) 1 + flagAt (!source) 2) ++ le 1 0 ++
    le 4 p.doneTick ++ le 4 o.handle

/-- Rewrite the meter bank of tick `k` (R266). -/
def State.writeMeters (s : State) (k ashlar : Nat) : State :=
  let b := k % 2
  let base := meterBankAt b
  let seq := (s.meterSeq.getD b 0 + 2) % 2 ^ 32
  let s : State := { s with meterSeq := modAt s.meterSeq b fun _ => seq, mem := memClear s.mem base 0x80040 }
  let s := s.write base (telemetryHeader seq k ashlar 16384)
  let s := (s.meters false).foldl (fun s p =>
    (List.range p.2.points).foldl (fun s i => s.write (base + 64 + 32 * (p.2.firstSlot + i)) (pointRecord s p.1 p.2 i)) s) s
  let s := s.onHost fun h => { h with irqStatus := h.irqStatus ||| 2 }
  if s.host.meterIrqEn then s.irq 19 else s

/-- The record of a Loudness meter; values of one that has ended no block step since its reset are open. -/
def State.loudRecord (s : State) (o : Obj) (m : Meter) : List Byte × State :=
  let l := m.ld
  let (vs, s) := if l.values.isEmpty then State.drawN 7 s else (l.values, s)
  (le 4 o.handle ++ le 4 (flagAt (l.run == 0) 0 + flagAt (l.run == 1) 1 + flagAt l.valid 2) ++ le 8 l.steps ++
    (List.range 7).flatMap (fun i => leWord (vs.getD i 0#32)) ++ le 8 l.resetAshlar ++ le 8 l.stepAshlar, s)

/-- Rewrite the loudness bank of tick `k`, if a block step has ended since the last rewrite (R269). -/
def State.writeLoud (s : State) (k ashlar : Nat) : State :=
  if !s.loudStepped then s else
  let b := k % 2
  let base := loudBankAt b
  let seq := (s.loudSeq.getD b 0 + 2) % 2 ^ 32
  let s : State := { s with loudSeq := modAt s.loudSeq b fun _ => seq, mem := memClear s.mem base 0x4040, loudStepped := false }
  let s := s.write base (telemetryHeader seq k ashlar 128)
  (s.meters true).foldl (fun s p =>
    let (bs, s) := s.loudRecord p.1 p.2
    s.write (base + 64 + 128 * p.2.firstSlot) bs) s

/-! ## Clock outputs (R454) -/

/-- The fields of CLKOUT_CFG as (lowest bit of the domain field, lowest bit, width). -/
def clkFields : List (Nat × Nat × Nat) := [(0, 0, 2), (2, 2, 2), (4, 4, 4), (8, 8, 4), (12, 12, 4), (16, 16, 4)]

/-- The fields of a new CLKOUT_CFG that name a domain come into force at its tick; an output switched off at the tick of the domain
it had, and PPS_SQUELCH at domain A's. -/
def takeClk (d old new : Nat) : Nat :=
  let put (v lo w : Nat) : Nat := v - bits v (lo + w - 1) lo * 2 ^ lo + bits new (lo + w - 1) lo * 2 ^ lo
  let names (lo : Nat) : Bool :=
    let to_ := bits new (lo + 1) lo
    to_ == d || (to_ == 3 && (bits old (lo + 1) lo == d || bits old (lo + 1) lo == 3))
  let v := clkFields.foldl (fun v f => if names f.1 then put v f.2.1 f.2.2 else v) old
  if d == 0 then put v 20 1 else v

def Timing.takeClk (t : Timing) (d : Nat) : Timing :=
  match t.clkoutNext with
  | none => t
  | some new =>
    let v := Sys2Proof.Machine.takeClk d t.clkoutCfg new
    { t with clkoutCfg := v, clkoutNext := if v == new then none else some new }

/-! ## The tick -/

/-- What domain A's tick brings besides: field outputs, the desks' recall rate of the tick, and the telemetry banks. Without the control
processor the outputs it commands stay as they are (R504). -/
def State.tickA (s : State) (k : Nat) : State :=
  let s := if s.halted then s else
    (({ s with desks := s.desks.zipIdx.map fun d => { d.1 with recallUse := rateUse s d.2 k } } : State)).gpoTick
  let ashlar := k * s.tickLen 0 / 8
  (s.writeMeters k ashlar).writeLoud k ashlar

/-- The next tick boundary of a domain that runs, at its instant: changes without a launch take effect in the slot it opens (R29, R52). -/
def State.runTick (s : State) (d : Nat) : State :=
  let j := (s.dom d).tick * s.tickLen d
  let s := s.carryTo (instantOf j (s.fs d))
  let k := s.tickOf d
  let s := s.setDom d fun x => { x with tick := k + 1 }
  let s := if j ≤ 8 * (s.dom d).next then (s.launchAll d j true).groupTick d j false else s
  let s := s.onTiming fun t => t.takeClk d
  if d == 0 then s.tickA k else s

/-- CONTROL_TICK. -/
def execControlTick (dom : Nat) (s : State) : Host.Outcome State Fault Refusal :=
  .next (if s.dieOn && dom ≤ 2 && (s.dom dom).runs then s.runTick dom else s)

/-! ## Loudness (R267, R268) -/

/-- A block step of a Loudness meter ends: its measurements are open; PAUSE keeps the integrated loudness and the range. -/
def State.loudStep (s : State) (o : Obj) (m : Meter) : State :=
  let fs := s.fs o.dom
  let s := s.carryTo (instantOf (m.ld.base + (m.ld.steps + 1) * fs / 10) fs)
  let (vs, s) := State.drawN 7 s
  let (n, s) := s.drawNat
  let l := m.ld
  let keep : Bool := l.run == 1 && !l.values.isEmpty
  let values := vs.zipIdx.map fun v => if keep && (v.2 == 2 || v.2 == 3) then l.values.getD v.2 0#32 else v.1
  let l : Loud := { l with steps := l.steps + 1, stepAshlar := s.now, values := values, valid := if keep then l.valid else n % 2 == 1 }
  { s.upd o.handle fun x => x.onMeter fun m => { m with ld := l } with loudStepped := true }

/-- LOUDNESS_BLOCK_STEP. -/
def execLoudnessBlockStep (meter : Nat) (s : State) : Host.Outcome State Fault Refusal :=
  .next (match s.obj meter with
    | none => s
    | some o =>
      match o.meter? with
      | some m => if m.loud && s.dieOn && o.dom ≤ 2 && (s.dom o.dom).runs then s.loudStep o m else s
      | none => s)

/-! ## Silent writers (R61) -/

/-- WRITER_SILENCE_TIMEOUT: the tags of a ring whose writer has been silent for 65,536 ashlars become never-written. -/
def execWriterSilenceTimeout (ring : Nat) (s : State) : Host.Outcome State Fault Refusal :=
  .next (match s.ringAt ring with
    | none => s
    | some (o, r) =>
      if s.dieOn && r.writer != 0 && s.ash o.dom ≥ r.lastWrite + 65536 then
        (s.clearTags r.rows).modObj tRing ring fun x => x.onRing fun r => { r with first := none, body := [] }
      else s)

/-! ## Snapshots (R514-R520) -/

/-- Write a latched snapshot into its bank and report it. -/
def State.writeBank (s : State) (p : PendSnap) (cs : List (Nat × Nat)) : State :=
  let old := s.snap.banks.getD p.bank Bank.reset
  let b : Bank := { seq := (old.seq + 2) % 2 ^ 32, gap := p.gap, snapSeq := p.snapSeq, ashlar := p.ashlar,
                    qtime := instantOf (8 * (p.ashlar + 1)) (s.fs 0), origin := p.origin, keeperId := p.keeperId, keeperSeq := p.keeperSeq,
                    ctrs := cs }
  let s : State := { s with snap := { s.snap with
    banks := modAt s.snap.banks p.bank fun _ => b, pending := s.snap.pending.filter (· != p), lastSeq := p.snapSeq, lastBank := p.bank } }
  let s := s.raise0 0x0101 (le 1 p.bank ++ le 3 0 ++ le 8 p.snapSeq)
  let s := s.onHost fun h => { h with irqStatus := h.irqStatus ||| 1 }
  if s.host.snapIrqEn then s.irq 18 else s

/-- SNAPSHOT_LATCH: at the end of the ashlar named the counters are latched and the bank is written. -/
def execSnapshotLatch (bank : Nat) (s : State) : Host.Outcome State Fault Refusal :=
  .next (match s.snap.pending.find? fun p => p.bank == bank with
    | none => s
    | some p =>
      let runs := (s.dom 0).runs
      let done := p.ashlar < (s.dom 0).next
      if !s.dieOn then s
      else match p.counts with
        | some cs => if runs || done then s.writeBank p cs else s
        | none =>
          if !(runs && (p.gap || done)) then s
          else
            let s := if p.gap then s else s.carryTo (instantOf (8 * (p.ashlar + 1)) (s.fs 0))
            s.writeBank p s.ctrs)

/-- QUARRY_SNAPSHOT_RECORD: the keeper's record reaches this engine (R520). -/
def execQuarrySnapshotRecord (bank ashlar keeper keeperSeq : Nat) (s : State) : Host.Outcome State Fault Refusal :=
  .next (if s.inQuarry then s.quarrySnapshot bank ashlar keeper keeperSeq else s)

end Sys2Proof.Machine
end

