-- ==== Sys2Proof/Machine/Power.lean ====
section
/-! DEFINITION. Power and start-up (chapter 21): the supervisor's states and service port, the sensing of VIN and WAKE, shutdown,
sequencing, boot, the firmware's start, regulator phases (R502), and the passing of time when no command waits. VIN is in 10 mV
units. -/
namespace Sys2Proof.Machine

def State.onSv (s : State) (f : Sv → Sv) : State := { s with sv := f s.sv }

/-! ## What outlasts the engine die -/

/-- The Scenes of the flash library: those whose store has ended. -/
def library (s : State) : List Obj :=
  s.objs.filterMap fun o => match o.kind with
    | .scene c => if c.coming.isSome && c.body == SceneBody.empty then none
      else some { o with kind := .scene { c with coming := none }, freeing := false, job := none }
    | _ => none

/-- The engine die is in reset: what flash and OTP hold, the supervisor, the pins and the model's own fields stay (R15, R503, R565). -/
def State.dieReset (s : State) : State :=
  let kept := s.flash.getD (s.journal, library s)
  let t := State.reset
  { t with
    pending := s.pending
    outbox := s.outbox
    freeCtr := s.freeCtr
    sv := s.sv
    journal := kept.1
    flash := s.flash.map fun _ => kept
    objs := kept.2
    tabs := modAt t.tabs tScene fun _ => { gens := kept.2.map (fun o => (o.idx, o.gen)), freed := [] }
    red := { t.red with ownIn := s.red.ownIn } }

/-! ## Shutdown (R566) -/

/-- First index after the fade of a domain. -/
def fadeEnd (s : State) (d q : Nat) : Nat := firstAt q (s.fs d) + ceilDiv (2 * s.fs d) 1000

/-- The domain whose next slot of the fade comes first. -/
def nextFade (s : State) (q : Nat) : Option Nat :=
  let ds := (List.range 3).filter fun d =>
    (s.dom d).runs && 8 * (s.dom d).next < fadeEnd s d q &&
      !((s.dom d).st == .fadingOut && 8 * (s.dom d).next ≥ stopIndex s d (s.dom d).fadeFrom)
  (ds.inOrder fun a b => instantOf (8 * (s.dom a).next) (s.fs a) ≤ instantOf (8 * (s.dom b).next) (s.fs b)).head?

/-- The slots of the fade that began at `q`. -/
def State.fadeSlots (q : Nat) : Nat → State → State
  | 0, s => s
  | n + 1, s => match nextFade s q with
    | none => s
    | some d => State.fadeSlots q n (s.runSlot d s.host.bankVio [])

/-- Every edge ramps to 0.0, then the outputs are released and the rails go down; the module is left in `to`. -/
def State.shutdown (s : State) (to_ : SvState) : State :=
  let s := if s.sv.st == .running then State.fadeSlots s.q 256 (s.onSv fun v => { v with fade := some s.q }) else s
  s.dieReset.onSv fun v => { v with
    st := to_, step := 0, pass := 1, failedStep := 0, railReady := 0, tcxoOk := false, rootLock := false, dramReady := false
    tempEngine := 0x8000, phaseOk := 0, spareInUse := false, retryWait := false, imageOk := false, skipped := [], watchdogs := 0
    ldState := 0, ldChunk := 0, ldWait := false, load := [], svn := 0, fade := none, ilimActive := false }

/-- The die has power or is getting it. -/
def Sv.up (v : Sv) : Bool :=
  match v.st with
  | .sequencing => true
  | .boot => true
  | .running => true
  | _ => false

/-- STALLED with its code (R572); BOOT_OVERRIDE returns to 0 when BOOT ends (R556). -/
def State.stall (s : State) (code step attempts : Nat) : State :=
  let overs := if s.sv.st == .boot then 0 else s.sv.bootOverride
  (s.shutdown .stalled).onSv fun v => { v with stallCode := code, stallStep := step, attempts := attempts, bootOverride := overs }

/-- A stall in BOOT: R555 gives ATTEMPTS for the sequence alone, so it is 1 or 2 (log entry 2). -/
def State.stallBoot (s : State) (code : Nat) : State :=
  let (n, s) := s.drawNat
  s.stall code 0xB0 (1 + n % 2)

/-- A stall by heat or phases: in the sequence its step and pass, in BOOT 0xB0, and in RUNNING a step that R570 does not name. -/
def State.stallHere (s : State) (code : Nat) : State :=
  match s.sv.st with
  | .sequencing => s.stall code s.sv.step s.sv.pass
  | .boot => s.stallBoot code
  | _ =>
    let (k, s) := s.drawNat
    let (n, s) := s.drawNat
    s.stall code (k % 256) (1 + n % 2)

/-! ## Transitions (R552, R553) -/

/-- SEQUENCING begins at step 1. -/
def State.sequence (s : State) (cause : Nat) : State :=
  s.onSv fun v => { v with st := .sequencing, step := 1, pass := 1, failedStep := 0, retryWait := false, resetCause := cause, why := 2 }

/-- VIN lets the module leave WATCH; after a brownout with FADE_AT_GUARD it must be above the guard's hysteresis too (R553). -/
def Sv.vinGood (v : Sv) : Bool := v.vin ≥ 520 && (v.why != 6 || !v.fadeAtGuard || v.vin ≥ v.vinGuard + 20)

/-- What WAKE's level brings about in DORMANT and WATCH. -/
def State.wakeUp (s : State) : State :=
  if !s.sv.wake then s else
  match s.sv.st with
  | .dormant => s.onSv fun v => { v with st := .watch }
  | .watch => if s.sv.wakeAuto && s.sv.vinGood then s.sequence s.sv.why else s
  | _ => s

/-- A restart: an orderly shutdown, then SEQUENCING as soon as VIN allows. -/
def State.restartFor (s : State) (cause : Nat) : State :=
  let t := s.shutdown .watch
  if s.sv.vin ≥ 520 then t.sequence cause else t.onSv fun v => { v with why := cause }

/-- `sys.restart` is due; IMAGE 1 or 2 sets BOOT_OVERRIDE (R319, R556). -/
def State.sysRestart (s : State) (image : Nat) : State :=
  (s.restartFor 5).onSv fun v => { v with bootOverride := if image == 0 then v.bootOverride else image + 2 }

/-- WAKE_HIGH. -/
def execWakeHigh (s : State) : Host.Outcome State Fault Refusal :=
  let s := s.onSv fun v => { v with wake := true, why := if v.st == .dormant || v.st == .watch then (if v.wake then v.why else 2) else v.why }
  .next s.wakeUp.wakeUp

/-- SV_CS_SELECT. -/
def State.selected (s : State) : State := if s.sv.st == .dormant then s.onSv fun v => { v with st := .watch } else s

def execSvCsSelect (s : State) : Host.Outcome State Fault Refusal := .next s.selected

/-- WAKE_LOW_SHUTDOWN: WAKE has been low for 100 ms. -/
def execWakeLowShutdown (s : State) : Host.Outcome State Fault Refusal :=
  let s := s.onSv fun v => { v with wake := false }
  .next (if s.sv.wakeLowShutdown && s.sv.up then s.shutdown .watch else s)

/-- WATCH_IDLE_TIMEOUT: WAKE low and no transaction for 1 s. -/
def execWatchIdleTimeout (s : State) : Host.Outcome State Fault Refusal :=
  .next (if s.sv.st == .watch then s.onSv fun v => { v with wake := false, st := .dormant } else s)

/-! ## VIN (R545, R553, R565) -/

/-- Below VIN_GUARD flash and OTP keep what they hold; from 200 mV above it the writes that waited proceed. -/
def State.guardWrites (s : State) : State :=
  if s.sv.vin < s.sv.vinGuard then { s with flash := some (s.flash.getD (s.journal, library s)) }
  else if s.sv.vin ≥ s.sv.vinGuard + 20 then { s with flash := none }
  else s

/-- The supervisor starts in DORMANT with its power-on values; WAKE is a pin, PHASE_FAILED the journal's copy (R545, R570). -/
def State.powerOn (s : State) (vin : Nat) : State :=
  ({ s with sv := { Sv.reset with vin := vin, wake := s.sv.wake, phaseFailed := s.journal.phaseFailed } } : State).guardWrites

/-- VIN below 2.8 V: the module is off, without a fade. -/
def State.powerOff (s : State) : State :=
  (s.dieReset).onSv fun v => { Sv.reset with st := .off, wake := v.wake, vin := v.vin, phaseFailed := v.phaseFailed }

/-- VIN below the falling UVLO threshold, or below VIN_GUARD with FADE_AT_GUARD. -/
def Sv.brownedOut (v : Sv) : Bool := v.up && (v.vin < 490 || (v.fadeAtGuard && v.vin < v.vinGuard))

/-- VIN is sensed at a value, and everything its thresholds call for happens. -/
def State.sensed (s : State) (vin : Nat) : State :=
  if s.sv.st == .off then (if vin ≥ 300 then (s.powerOn vin).wakeUp.wakeUp else s) else
  let s := s.onSv fun v => { v with vin := vin }
  if vin < 280 then s.powerOff else
  let s := s.guardWrites
  if s.sv.brownedOut then (s.shutdown .watch).onSv fun v => { v with why := 6 } else s.wakeUp

/-- Above the absolute maximum of VIN the manual states no function (R573). -/
def sensing (vin : Nat) (s : State) : Host.Outcome State Fault Refusal :=
  if vin > 4800 then .fault .outsideRatings else .next (s.sensed vin)

/-- SUPERVISOR_POWER_ON. -/
def execSupervisorPowerOn (vin : Nat) (s : State) : Host.Outcome State Fault Refusal := sensing vin s

/-- SUPERVISOR_POWER_OFF. -/
def execSupervisorPowerOff (s : State) : Host.Outcome State Fault Refusal := .next s.powerOff

/-- VIN_RISE_UVLO. -/
def execVinRiseUvlo (vin : Nat) (s : State) : Host.Outcome State Fault Refusal := sensing vin s

/-- BROWNOUT_TRIGGER. -/
def execBrownoutTrigger (vin : Nat) (s : State) : Host.Outcome State Fault Refusal := sensing vin s

/-- VIN_GUARD_FALL. -/
def execVinGuardFall (vin : Nat) (s : State) : Host.Outcome State Fault Refusal := sensing vin s

/-- VIN_GUARD_RISE. -/
def execVinGuardRise (vin : Nat) (s : State) : Host.Outcome State Fault Refusal := sensing vin s

/-- ILIM_HELD: 1 ms at the limit with a rail not ready (R547). -/
def execIlimHeld (s : State) : Host.Outcome State Fault Refusal :=
  .next (if !s.sv.up then s
    else if s.sv.railReady == 0x7F then s.onSv fun v => { v with ilimActive := true }
    else s.stallHere 0x31)

/-- OVER_TEMPERATURE: `temp` is the junction in 0.1 °C. -/
def execOverTemperature (temp : Int) (s : State) : Host.Outcome State Fault Refusal :=
  .next (if !s.sv.up then s
    else if temp > 1250 then s.stallHere 0x32
    else s.onSv fun v => { v with tempEngine := twos 16 temp })

/-! ## The service port (R568-R571) -/

/-- FAULT_N is asserted. -/
def faultPin (s : State) : Bool := s.sv.st == .stalled || (s.sv.st == .running && s.halted)

def SvState.code : SvState → Nat
  | .off => 0
  | .dormant => 0
  | .watch => 1
  | .sequencing => 2
  | .boot => 3
  | .running => 4
  | .stalled => 5

/-- What a service-port register reads. -/
def svReg (s : State) (a : Nat) : Nat :=
  let v := s.sv
  match a with
  | 0x00 => 0x53560001
  | 0x04 => v.st.code + 256 * v.step + flagAt s.flash.isSome 16 + flagAt v.ilimActive 17 + flagAt (faultPin s) 18 +
      flagAt (v.st == .running && s.halted) 19 + flagAt v.cfgSet 20
  | 0x08 => v.stallCode + 256 * v.stallStep + 65536 * v.attempts
  | 0x0C => v.vin + 65536 * v.iin
  | 0x10 => v.railReady + flagAt v.tcxoOk 8 + flagAt v.rootLock 9 + flagAt v.dramReady 10
  | 0x14 => v.tempEngine + 65536 * v.tempSv
  | 0x1C => v.bootOverride
  | 0x20 => v.vinGuard + flagAt v.fadeAtGuard 16
  | 0x24 => v.ilim
  | 0x28 => v.fsw + flagAt v.spread 2 + flagAt v.wakeAuto 8 + flagAt v.wakeLowShutdown 9
  | 0x2C => v.phaseOk + 256 * v.phaseFailed + flagAt v.spareInUse 16
  | 0x30 => v.lastRetryStep + 256 * (v.retries % 2 ^ 24)
  | 0x34 => v.resetCause
  | 0x38 => v.spiErr
  | _ => 0

/-- The input current and the temperatures are measured anew at a read; what they show is open (log entry 2). -/
def State.measure (s : State) : State :=
  let (i, s) := s.drawNat
  let (a, s) := s.drawNat
  let (b, s) := s.drawNat
  s.onSv fun v => { v with
    iin := i % 65536, ilimActive := v.up && i / 65536 % 2 == 1, tempSv := b % 65536, tempEngine := if s.dieOn then a % 65536 else 0x8000 }

/-- One read transaction: 4 data bytes and CHK; DORMANT reads all ones and its chip select wakes the supervisor. -/
def State.spiRead (s : State) (a : Nat) : State :=
  match s.sv.st with
  | .off => s
  | .dormant => (s.emit (.spi a 0xFFFFFFFF#32 0xFF)).selected
  | _ =>
    let s := if a == 0x04 || a == 0x0C || a == 0x14 then s.measure else s
    let v := svReg s a
    let s := s.emit (.spi a (BitVec.ofNat 32 v) (BitVec.ofNat 8 (crc8 ([0x0B, BitVec.ofNat 8 a] ++ le 4 v))))
    if a == 0x38 then s.onSv fun v => { v with spiErr := 0 } else s

/-- SV_READ. -/
def execSvRead (addr : Nat) (s : State) : Host.Outcome State Fault Refusal := .next (s.spiRead addr)

/-- SPI_ERR_READ: the count is read and cleared. -/
def execSpiErrRead (s : State) : Host.Outcome State Fault Refusal := .next (s.spiRead 0x38)

def State.cmdWake (s : State) : State := if s.sv.st == .watch && s.sv.vinGood then s.sequence 3 else s

def State.cmdDormant (s : State) : State :=
  match s.sv.st with
  | .off => s
  | .dormant => s
  | _ => s.shutdown .dormant

def State.cmdRestart (s : State) : State :=
  match s.sv.st with
  | .boot => s.restartFor 4
  | .running => s.restartFor 4
  | .stalled => s.restartFor 4
  | _ => s

def State.cmdClearStall (s : State) : State := if s.sv.st == .stalled then s.onSv fun v => { v with st := .watch } else s

/-- Desk 0 goes to PCIE as under R295, once its commands are answered. -/
def State.cmdDesk0 (s : State) : State :=
  if !s.serving then s else
  let s := s.setDesk 0 fun k => { k with move := some (.pcie, 0) }
  stateAfter (execDeskAttachEffect 0 s) s

/-- COMMAND (R571). -/
def State.command (s : State) (c : Nat) : State :=
  match c with
  | 1 => s.cmdWake
  | 2 => s.cmdDormant
  | 3 => s.cmdRestart
  | 4 => s.cmdClearStall
  | _ => s.cmdDesk0

/-- COMMAND_WAKE. -/
def execCommandWake (s : State) : Host.Outcome State Fault Refusal := .next s.cmdWake

/-- COMMAND_DORMANT. -/
def execCommandDormant (s : State) : Host.Outcome State Fault Refusal := .next s.cmdDormant

/-- COMMAND_RESTART. -/
def execCommandRestart (s : State) : Host.Outcome State Fault Refusal := .next s.cmdRestart

/-- COMMAND_CLEAR_STALL. -/
def execCommandClearStall (s : State) : Host.Outcome State Fault Refusal := .next s.cmdClearStall

/-- COMMAND_DESK0_PCIE. -/
def execCommandDesk0Pcie (s : State) : Host.Outcome State Fault Refusal := .next s.cmdDesk0

/-- PWR_CFG as it is written and journaled. -/
def Sv.pwrCfg (v : Sv) : Nat := v.fsw + flagAt v.spread 2 + flagAt v.wakeAuto 8 + flagAt v.wakeLowShutdown 9

def Sv.setPwrCfg (v : Sv) (w : Nat) : Sv := { v with fsw := w % 4, spread := bit w 2, wakeAuto := bit w 8, wakeLowShutdown := bit w 9 }

/-- The persistent fields as the journal keeps them (R569). -/
def State.journalSv (s : State) : State :=
  { s with journal := { s.journal with
    vinGuard := s.sv.vinGuard, fadeAtGuard := s.sv.fadeAtGuard, ilim := s.sv.ilim, pwrCfg := s.sv.pwrCfg } }

/-- A persistent field has been written: CFG_SET, and in RUNNING the journal. -/
def State.persisted (s : State) (f : Sv → Sv) : State :=
  let s := s.onSv fun v => { f v with cfgSet := true }
  if s.serving then s.journalSv else s

def State.spiRefused (s : State) : State := s.onSv fun v => { v with spiErr := (v.spiErr + 1) % 2 ^ 32 }

/-- A write whose CHK is good. -/
def State.svPut (s : State) (a w : Nat) : State :=
  match a with
  | 0x18 => if 1 ≤ w % 256 && w % 256 ≤ 5 then s.command (w % 256) else s.spiRefused
  | 0x1C => if w % 8 ≤ 5 then s.onSv fun v => { v with bootOverride := w % 8 } else s.spiRefused
  | 0x20 =>
    let g := w % 65536
    if 530 ≤ g && g ≤ 4200 then
      let s := (s.persisted fun v => { v with vinGuard := g, fadeAtGuard := bit w 16 }).guardWrites
      if s.sv.brownedOut then (s.shutdown .watch).onSv fun v => { v with why := 6 } else s
    else s.spiRefused
  | 0x24 => if 1000 ≤ w % 65536 && w % 65536 ≤ 12000 then s.persisted fun v => { v with ilim := w % 65536 } else s.spiRefused
  | 0x28 => if w % 4 != 3 then (s.persisted fun v => v.setPwrCfg w).wakeUp else s.spiRefused
  | _ => s

/-- SV_WRITE: it takes effect when SV_CS_N is released. -/
def execSvWrite (addr : Nat) (data : Word) (chk : Byte) (s : State) : Host.Outcome State Fault Refusal :=
  .next (match s.sv.st with
    | .off => s
    | .dormant => s.selected
    | _ =>
      if chk.toNat == crc8 ([0x02, BitVec.ofNat 8 addr] ++ leWord data) then s.svPut addr data.toNat else s.spiRefused)

/-! ## Sequencing (R554, R555) -/

def phaseMask (p : Nat → Bool) : Nat := sumNat ((List.range 7).map fun i => flagAt (p i) i)

def phaseCount (n : Nat) : Nat := ((List.range 7).filter fun i => bit n i).length

/-- The seventh phase carries load while another is out. -/
def State.spareNow (s : State) : State :=
  s.onSv fun v => { v with spareInUse := bit v.phaseOk 6 && (List.range 6).any fun i => !(bit v.phaseOk i) }

/-- The step in progress is ready and the next begins. -/
def State.stepDone (s : State) (f : Sv → Sv) : State := s.onSv fun v => { f v with step := v.step + 1 }

/-- Step 4: phases not recorded as failed come up and are tested (R550). -/
def State.phasesUp (s : State) (failed : Nat) : State :=
  let bad := s.sv.phaseFailed ||| failed % 128
  let ok := phaseMask fun i => !(bit bad i)
  let s := s.onSv fun v => { v with phaseFailed := bad }
  if phaseCount ok < 4 then s.stall 0x30 4 1
  else (s.stepDone fun v => { v with phaseOk := ok, railReady := v.railReady ||| 4 }).spareNow

/-- The source in force as a BOOT_OVERRIDE value, and the slots it tries (R556). -/
def Sv.source (v : Sv) : Nat :=
  if v.bootOverride != 0 then v.bootOverride else if v.strap == 1 then 2 else if v.strap == 2 then 5 else 1

def Sv.order (v : Sv) : List Nat :=
  (match v.source with
   | 1 => [0, 1]
   | 2 => [1, 0]
   | 3 => [0]
   | 4 => [1]
   | _ => [2]).filter fun i => !(v.skipped.contains i)

/-- BOOT is entered; a second pass that came through is a transient retry. -/
def State.enterBoot (s : State) : State :=
  s.onSv fun v => { v with
    st := .boot, step := 0, dramReady := true, imageOk := false
    lastRetryStep := if v.pass == 2 then v.failedStep else v.lastRetryStep
    retries := if v.pass == 2 then v.retries + 1 else v.retries
    ldWait := v.source == 5, ldState := 0, ldChunk := 0, load := [] }

/-- SEQUENCING_STEP_READY: `failed` are the phases that fail their test in step 4, `strap` the boot strap sampled in step 9. -/
def execSequencingStepReady (failed strap : Nat) (s : State) : Host.Outcome State Fault Refusal :=
  if s.sv.st != .sequencing || s.sv.retryWait then .next s else
  .next (match s.sv.step with
    | 1 => s.stepDone fun v => { v with railReady := 1 }
    | 2 => s.stepDone fun v => { v with railReady := v.railReady ||| 2 }
    | 3 => s.stepDone fun v => { v with tcxoOk := true }
    | 4 => s.phasesUp failed
    | 5 => s.stepDone fun v => { v with railReady := v.railReady ||| 8 }
    | 6 => s.stepDone fun v => { v with railReady := v.railReady ||| 16 }
    | 7 => s.stepDone fun v => { v with railReady := v.railReady ||| 32 }
    | 8 => s.stepDone fun v => { v with railReady := v.railReady ||| 64 }
    | 9 => (s.stepDone fun v => { v with rootLock := true, strap := strap % 4 }).onHost fun h => { h with strap := strap % 4 }
    | _ => s.enterBoot)

/-- The rails are down between two passes of the sequence. -/
def State.backDown (s : State) : State :=
  s.dieReset.onSv fun v => { v with
    step := 0, railReady := 0, tcxoOk := false, rootLock := false, phaseOk := 0, spareInUse := false, retryWait := true, ilimActive := false }

/-- SEQUENCING_STEP_TIMEOUT: a retry at the first failure, a stall at the second. -/
def execSequencingStepTimeout (s : State) : Host.Outcome State Fault Refusal :=
  .next (if s.sv.st != .sequencing || s.sv.retryWait then s
    else if s.sv.pass == 1 then
      let k := s.sv.step
      s.backDown.onSv fun v => { v with failedStep := k }
    else s.stall s.sv.step s.sv.step 2)

/-- SEQUENCE_RETRY: the 10 ms have passed. -/
def execSequenceRetry (s : State) : Host.Outcome State Fault Refusal :=
  .next (if s.sv.st == .sequencing && s.sv.retryWait then
    s.onSv fun v => { v with retryWait := false, pass := 2, step := 1 } else s)

/-! ## Images (R556-R564) -/

/-- The boot ROM has verified an image: it is loaded and started. -/
def State.startImage (s : State) (v : ImageVerdict) : State :=
  let image := s.sv.load.flatMap (·.2)
  let s := if v.slot == 2 then s.write 0x1000000 ((image.drop 512).take (fieldAt image 20 4)) else s
  let s := s.onHost fun h => { h with imageSlot := v.slot, image := v.version, cpRemap := true }
  s.onSv fun x => { x with imageOk := true, svn := v.svn, ldWait := false, ldState := if v.slot == 2 then 2 else x.ldState, load := [] }

/-- The boot ROM refuses an image: a host load waits for a new one, otherwise the next slot is tried. -/
def State.refuseImage (s : State) (slot : Nat) : State :=
  if slot == 2 then s.onSv fun v => { v with ldState := 3, ldChunk := 0, load := [] } else
  let s := s.onSv fun v => { v with skipped := slot :: v.skipped }
  if s.sv.order.isEmpty then s.stallBoot 0x20 else s

/-- The first check an image fails, the anti-rollback counter being this module's (R558, R561). -/
def failedCheck (s : State) (v : ImageVerdict) : Nat := if v.failed == 0 && v.svn < s.journal.antiRollback then 5 else v.failed

/-- A check of a `sys.image.write`: the slot is written unless flash is held (R319, R565). -/
def State.imageWritten (s : State) (v : ImageVerdict) : State :=
  match s.jobs.find? fun j => j.op == 0x0103 && j.stage == 1 && u8 j.frame 0 == v.slot + 1 with
  | none => s
  | some j => if failedCheck s v != 0 then s.done j eAuth else if s.flash.isSome then s else s.done j 0

/-- IMAGE_CHECK_DONE. -/
def execImageCheckDone (v : ImageVerdict) (s : State) : Host.Outcome State Fault Refusal :=
  .next (match s.sv.st with
    | .boot =>
      if s.sv.imageOk || s.sv.order.head? != some v.slot || (v.slot == 2 && s.sv.ldState != 1) then s
      else if failedCheck s v == 0 then s.startImage v else s.refuseImage v.slot
    | .running => if s.serving then s.imageWritten v else s
    | _ => s)

/-- BOOT_CHUNK_POST: chunk `chunk` of `len` bytes is handed over; a length of 0 ends the image. -/
def execBootChunkPost (chunk len : Nat) (data : List Byte) (s : State) : Host.Outcome State Fault Refusal :=
  .next (if !s.loading || s.sv.imageOk || s.sv.ldState == 1 then s else
    let s := s.write (mailboxBase + 0x19848) (le 4 chunk ++ le 4 len ++ le 4 0)
    if len != 0 && (chunk != s.sv.ldChunk || len % 4 != 0 || len > 65536) then s.refuseImage 2
    else if len == 0 then s.onSv fun v => { v with ldState := 1 }
    else
      let part := (List.range len).map fun i => data.getD i 0
      let fill := List.replicate (65536 * chunk - sumNat (s.sv.load.map fun p => p.2.length)) 0
      (s.write mailboxBase part).onSv fun v => { v with ldState := 0, ldChunk := v.ldChunk + 1, load := v.load ++ [(chunk, fill ++ part)] })

/-- HOST_LOAD_TIMEOUT. -/
def execHostLoadTimeout (s : State) : Host.Outcome State Fault Refusal :=
  .next (if s.sv.st == .boot && s.sv.source == 5 && !s.sv.imageOk && s.sv.ldState != 1 then s.stallBoot 0x21 else s)

/-- FIRMWARE_WATCHDOG_EXPIRY: the slot used is skipped in the boot that follows, if another is left and this is the first expiry. -/
def execFirmwareWatchdogExpiry (s : State) : Host.Outcome State Fault Refusal :=
  .next (if !(s.sv.st == .boot && s.sv.imageOk) then s else
    let skip := s.host.imageSlot :: s.sv.skipped
    let left := ({ s.sv with skipped := skip } : Sv).order
    if s.sv.watchdogs ≥ 1 || left.isEmpty then s.stallBoot 0x22
    else
      let n := s.sv.watchdogs + 1
      ((s.shutdown .watch).sequence 7).onSv fun v => { v with skipped := skip, watchdogs := n })

/-- ANTI_ROLLBACK_BURN: 60 s RUNNING without a control halt (R561). -/
def execAntiRollbackBurn (s : State) : Host.Outcome State Fault Refusal :=
  .next (if s.serving && s.journal.antiRollback < s.sv.svn then
    { s with journal := { s.journal with antiRollback := s.sv.svn } } else s)

/-! ## The firmware's start (R562) -/

/-- Post-package repair of the shadowed rows whose bank has repair rows left; `failed` lists the positions of those that fail, which
stay shadowed and are logged. Whether a failed repair uses up its row is open (log entry 2). -/
def State.repairRows (failed : List Nat) : List ((Nat × Nat) × Nat) → State → State
  | [], s => s
  | ((bank, addr), i) :: rest, s =>
    let left := Config.repairRows bank - s.journal.rowsUsed.getD bank 0
    let keep (s : State) : State := { s with journal := { s.journal with shadowed := s.journal.shadowed ++ [(bank, addr)] } }
    let use (n : Nat) (s : State) : State := { s with journal := { s.journal with rowsUsed := modAt s.journal.rowsUsed bank (· + n) } }
    if left == 0 then State.repairRows failed rest (keep s)
    else if failed.contains i then
      let (n, s) := s.drawNat
      State.repairRows failed rest (((keep s).faultRecord 4 2 bank addr) |> use (n % 2))
    else State.repairRows failed rest (use 1 s)

def State.repair (s : State) (failed : List Nat) : State :=
  let rows := s.journal.shadowed
  let s := State.repairRows failed rows.zipIdx { s with journal := { s.journal with shadowed := [] } }
  s.onFaults fun x => { x with
    shadow := s.journal.shadowed
    rowsLeft := (List.range 32).map fun b => Config.repairRows b - s.journal.rowsUsed.getD b 0 }

/-- A core that failed in an earlier run is out, and a reserve has taken its place (R95, R503). -/
def State.coreOut (s : State) (c : Nat) : State :=
  let s' := s.setCore c fun k => { k with reserve := false, fused := true }
  if (s.core c).reserve then s'
  else match reserveFor s c with
    | some r => s'.setCore r fun k => { k with reserve := false }
    | none => s'

/-- A bank or array that failed in an earlier run: its spare stands in its place, or it was itself a spare. -/
def State.unitOut (s : State) (kind unit : Nat) : State :=
  if (spares s kind).contains unit then s.setSpares kind ((spares s kind).filter (· != unit))
  else match spares s kind with
    | spare :: _ => (s.setSpares kind ((spares s kind).filter (· != spare))).swapUnit kind unit spare
    | [] => s

/-- Lasting faults of earlier runs (R503). -/
def State.restoreFailed (s : State) : State :=
  let units := s.journal.failedUnits.reverse
  let s := units.foldl (fun s u => match u.1 with
    | 1 => s.coreOut u.2
    | 2 => s.unitOut 2 u.2
    | 3 => s.unitOut 3 u.2
    | _ => s) s
  s.onFaults fun x => { x with
    lasting := units
    pagesRetired := (units.filter fun u => u.1 == 7).map (·.2)
    log := s.journal.faultLog.map fun r =>
      { kind := r.getD 0 0, severity := r.getD 1 0, unit := r.getD 2 0, address := r.getD 3 0, ashlar := 0, count := r.getD 4 0 } }

/-- Keys, quads, Ethernet ports, identifier and timing settings come back from the journal (R292, R388, R435, R441, R444). -/
def State.restoreConfig (s : State) : State :=
  let j := s.journal
  let s : State := { s with
    desks := s.desks.zipIdx.map fun k => { k.1 with key := j.keys.getD k.2 [] }
    quadModes := j.quadModes
    engineId := j.engineId
    keySlots := j.keySlots
    eth := s.eth.zipIdx.map fun e =>
      match j.eth.find? fun l => l.getD 0 99 == e.2 with
      | some l => { e.1 with addr := l.getD 1 0, mask := l.getD 2 0, gateway := l.getD 3 0, vlan := l.getD 4 0,
                             mgmt := l.getD 5 0 == 1, dhcp := l.getD 6 0 == 1 }
      | none => e.1 }
  let s := s.onTiming fun t => { t with
    cands := t.cands.zipIdx.map fun k =>
      match j.cands.find? fun l => l.getD 0 99 == k.2 with
      | some l => { k.1 with enable := l.getD 1 0 == 1, priority := l.getD 2 0, quality := l.getD 3 0, port := l.getD 4 0 }
      | none => k.1
    bandwidth := j.pll.getD 0 1
    report := j.pll.getD 1 3 }
  s.settleTree

/-- STEER starts at the calibration record (R442). -/
def State.restoreSteer (s : State) : State :=
  match s.journal.calib with
  | h :: _ => s.steerBy h false
  | [] => s

/-- The redundancy configuration is applied at every start (R455, R459). -/
def State.restoreRed (s : State) : State :=
  match s.journal.red with
  | mode :: claim :: peers =>
    if mode == 0 then s.onRed fun r => { r with claim := claim }
    else (s.onRed fun r => { r with mode := mode, claim := claim, peers := peers.map Peer.new }).setRole .forming
  | _ => s

/-- CFG_SET decides which side's persistent fields stand (R569). -/
def State.reconcile (s : State) : State :=
  if s.sv.cfgSet then s.journalSv
  else
    let j := s.journal
    (s.onSv fun v => { v.setPwrCfg j.pwrCfg with vinGuard := j.vinGuard, fadeAtGuard := j.fadeAtGuard, ilim := j.ilim }).guardWrites

/-- Phases that failed their test at this start are lasting faults (R550). -/
def State.newPhases (s : State) : State :=
  let fresh := (List.range 7).filter fun i => bit s.sv.phaseFailed i && !(bit s.journal.phaseFailed i)
  let s := fresh.foldl (fun s i => s.faultRecord 5 2 i 0) s
  { s with journal := { s.journal with phaseFailed := s.sv.phaseFailed ||| s.journal.phaseFailed } }

/-! ### Shipped reach and priority (R541) -/

def grantOf (lo hi : Nat) (r w : Bool) : Region := { en := true, r := r, w := w, base := lo / 4096, limit := (hi - 1) / 4096 }

def noRegion : Region := { en := false, r := false, w := false, base := 0, limit := 0 }

def shipped (prio granules : Nat) (rs : List Region) : Master :=
  { prio := List.replicate 8 prio, granules := granules, regions := rs ++ List.replicate (16 - rs.length) noRegion }

/-- Granule bit of the firmware's areas (log entry 3): 0 telemetry, 1 bulk staging, 2 packet buffers, 3 Tether areas, 4 package store,
5 library, 6 state image, 7 Scene working copy. -/
def areaBit (i : Nat) : Nat := 2 ^ (Config.granuleOf i % 56)

def areas (l : List Nat) : Nat := sumNat ((l.map areaBit).eraseDups)

/-- Pages of CP SRAM that hold area `i`: 0 Seam control buffers, 1 Tether areas. -/
def sramArea (i : Nat) : Region := { en := true, r := true, w := true, base := Config.sramPage (2 * i) % 1024, limit := Config.sramPage (2 * i + 1) % 1024 }

/-- M0 after the remap: CP SRAM stands at 0, the boot ROM above it. -/
def reachAll : List Region :=
  [grantOf 0 0x400000 true true, grantOf 0x1000000 0x1010000 true false, grantOf 0x2000000 0x2020000 true true, grantOf 0x8000000 0x10000000 true false,
   grantOf 0x10000000 0x20000000 true true, grantOf 0x20000000 0x22000000 true true, grantOf 0x30000000 0x34000000 true true]

def shippedMasters : List Master :=
  let t4 (r w : Bool) := grantOf 0x20000000 0x22000000 r w
  let t5 (r w : Bool) := grantOf 0x30000000 0x34000000 r w
  [shipped 6 (2 ^ 56 - 1) reachAll,
   shipped 3 (areas [0, 1]) [grantOf 0x10000000 0x10060000 true true],
   shipped 5 (areas [2]) [],
   shipped 5 0 [sramArea 0],
   shipped 6 (areas [3]) [sramArea 1, t4 true false, t5 true false],
   shipped 6 (areas [4, 5, 6]) [grantOf 0 0x400000 true false],
   shipped 7 (areas [7]) [t4 false true, t5 false true],
   if Config.debugFuse then shipped 0 (2 ^ 56 - 1) reachAll else shipped 0 0 []]

/-- Domain A runs from the next ashlar at rate code `rate`. -/
def State.startA (s : State) (rate : Nat) : State :=
  let s := s.setDom 0 fun x => { x with st := .running, rate := rate, maxMult := rateMult rate }
  let a := s.idx 0 / 8 + 1
  s.setDom 0 fun x => { x with next := a, tick := ceilDiv (8 * a) (s.tickLen 0) }

/-- A retry of the sequence is copied into the fault log with SEVERITY 1; its unit is open (R555). -/
def State.logRetry (s : State) : State :=
  if s.sv.pass != 2 then s else
  let (k, s) := s.drawNat
  let (u, s) := s.drawNat
  s.faultRecord (k % 256) 1 (u % 65536) s.sv.lastRetryStep

/-- FIRMWARE_READY: `bankVio` is what is sensed on the TDM banks, `rateA` the rate code domain A starts at, `repairFailed` the
positions in the shadow list of the repairs that fail. -/
def execFirmwareReady (bankVio : List Nat) (rateA : Nat) (repairFailed : List Nat) (s : State) : Host.Outcome State Fault Refusal :=
  .next (if !(s.sv.st == .boot && s.sv.imageOk) || rateA > 5 then s else
    let s : State := { s with journal := { s.journal with runId := (s.journal.runId + 1) % 2 ^ 32 } }
    let s := s.restoreFailed.repair repairFailed
    let s := (s.restoreConfig.restoreSteer).reconcile
    let vio := (List.range 8).map fun k => bankVio.getD k 0 % 4
    let s := s.onHost fun h => { h with bankVio := vio, bankStart := vio, bankLost := [], masters := shippedMasters }
    let s := s.newPhases.logRetry
    let s := s.onSv fun v => { v with st := .running, bootOverride := 0, skipped := [], watchdogs := 0, ldState := 0, ldWait := false }
    (s.startA rateA).restoreRed)

/-! ## Regulator phases (R502) -/

/-- With fewer than 6 phases charge above the limit is removed in the order of R354, bedrock apart. -/
def State.shedCharge : List Obj → Nat → State → State
  | [], _, s => s
  | o :: os, overs, s => if overs == 0 then s else State.shedCharge os (overs - yieldRoom o) (s.yieldItem none o)

def State.phaseLimit (s : State) : State :=
  let overs := totalCharge s - wuLimit s
  if overs == 0 then s else
  let s := if s.red.role == .standby then s.goStale else s
  State.shedCharge (yieldSort s fun o => o.cls != 0) overs s

/-- A phase fault that has come back within its trial is lasting. -/
def State.phaseLost (s : State) (p : Nat) : State :=
  let s := s.onFaults fun x => { x with phaseTrying := x.phaseTrying.filter (· != p) }
  let s := s.onSv fun v => { v with phaseFailed := v.phaseFailed ||| 2 ^ p }
  if !s.serving then s else
  let s : State := { s with journal := { s.journal with phaseFailed := s.journal.phaseFailed ||| 2 ^ p } }
  let s := s.faultRecord 5 2 p 0
  if s.sv.spareInUse && phaseCount s.sv.phaseFailed == 1 then (s.raise0 0x1005 (le 1 p ++ le 3 0)).poolEmpty 5
  else s.phaseLimit

/-- PHASE_FAULT: the phase is switched off and the seventh takes over; fewer than 4 working phases stall the module. -/
def execPhaseFault (phase : Nat) (s : State) : Host.Outcome State Fault Refusal :=
  .next (if !(s.sv.up && bit s.sv.phaseOk phase) then s else
    let s := (s.onSv fun v => { v with phaseOk := v.phaseOk - 2 ^ phase }).spareNow
    let s := if s.faults.phaseTrying.contains phase then s.phaseLost phase else s
    if phaseCount s.sv.phaseOk < 4 then s.stallHere 0x30 else s)

/-- PHASE_RETRY: 10 ms later the phase is restarted. -/
def execPhaseRetry (phase : Nat) (s : State) : Host.Outcome State Fault Refusal :=
  .next (if !(s.sv.up && phase < 7 && bit s.sv.railReady 2 && !(bit s.sv.phaseOk phase) && !(bit s.sv.phaseFailed phase)) then s else
    let s := s.onFaults fun x => { x with phaseTrying := phase :: x.phaseTrying }
    s.onSv fun v => { v with phaseOk := v.phaseOk + 2 ^ phase })

/-- PHASE_CLEAN: a restarted phase has run clean for 1 s; the fault was transient. -/
def execPhaseClean (phase : Nat) (s : State) : Host.Outcome State Fault Refusal :=
  .next (if !(s.faults.phaseTrying.contains phase) then s else
    let s := (s.onFaults fun x => { x with phaseTrying := x.phaseTrying.filter (· != phase) }).spareNow
    if s.serving then s.faultRecord 5 1 phase 0 else s)

/-! ## Time without a command (log entry 5) -/

/-- One TIME cycle passes while the engine die runs; a `sys.restart` falls due; WAKE's level acts. -/
def State.timePass (s : State) : State :=
  let on := s.dieOn || (s.sv.st == .sequencing && s.sv.step == 10)
  let s := if on then s.toRaw (s.clk.raw + 1) else s
  let s := match s.host.restart with
    | some (due, image) => if s.serving && s.clk.raw ≥ due then s.sysRestart image else s
    | none => s
  s.wakeUp

end Sys2Proof.Machine
end

