-- ==== Sys2Proof/Machine/Dispatch.lean ====
section
/-! DEFINITION. One command: an arm per constructor of `Instr`, each one direct call of its meaning. -/
namespace Sys2Proof.Machine

def exec (i : Instr) (s : State) : Host.Outcome State Fault Refusal :=
  match i with
  | .sysInfo f => Sys2Proof.Machine.execSysInfo f s
  | .sysSnapshot f => Sys2Proof.Machine.execSysSnapshot f s
  | .sysRestart f => Sys2Proof.Machine.execSysRestart f s
  | .sysImageWrite f => Sys2Proof.Machine.execSysImageWrite f s
  | .deskInfo f => Sys2Proof.Machine.execDeskInfo f s
  | .deskOpen f => Sys2Proof.Machine.execDeskOpen f s
  | .deskClose f => Sys2Proof.Machine.execDeskClose f s
  | .deskPing f => Sys2Proof.Machine.execDeskPing f s
  | .deskAttach f => Sys2Proof.Machine.execDeskAttach f s
  | .deskAttachEffect desk => Sys2Proof.Machine.execDeskAttachEffect desk s
  | .deskKeySet f => Sys2Proof.Machine.execDeskKeySet f s
  | .deskQuotaSet f => Sys2Proof.Machine.execDeskQuotaSet f s
  | .deskDefaultsSet f => Sys2Proof.Machine.execDeskDefaultsSet f s
  | .deskEventReplay f => Sys2Proof.Machine.execDeskEventReplay f s
  | .stripInfo f => Sys2Proof.Machine.execStripInfo f s
  | .stripAlloc f => Sys2Proof.Machine.execStripAlloc f s
  | .stripFree f => Sys2Proof.Machine.execStripFree f s
  | .stripParamSet f => Sys2Proof.Machine.execStripParamSet f s
  | .stripParamGet f => Sys2Proof.Machine.execStripParamGet f s
  | .busInfo f => Sys2Proof.Machine.execBusInfo f s
  | .busAlloc f => Sys2Proof.Machine.execBusAlloc f s
  | .busFree f => Sys2Proof.Machine.execBusFree f s
  | .busParamSet f => Sys2Proof.Machine.execBusParamSet f s
  | .busParamGet f => Sys2Proof.Machine.execBusParamGet f s
  | .busAttrSet f => Sys2Proof.Machine.execBusAttrSet f s
  | .busLayout f => Sys2Proof.Machine.execBusLayout f s
  | .nodeTilesInfo f => Sys2Proof.Machine.execNodeTilesInfo f s
  | .nodeTilesAlloc f => Sys2Proof.Machine.execNodeTilesAlloc f s
  | .nodeTilesFree f => Sys2Proof.Machine.execNodeTilesFree f s
  | .nodeTilesDefault f => Sys2Proof.Machine.execNodeTilesDefault f s
  | .nodeSet f => Sys2Proof.Machine.execNodeSet f s
  | .nodeBulk f => Sys2Proof.Machine.execNodeBulk f s
  | .nodeGet f => Sys2Proof.Machine.execNodeGet f s
  | .nodeLoadComplete order => Sys2Proof.Machine.execNodeLoadComplete order s
  | .groupInfo f => Sys2Proof.Machine.execGroupInfo f s
  | .groupAlloc f => Sys2Proof.Machine.execGroupAlloc f s
  | .groupFree f => Sys2Proof.Machine.execGroupFree f s
  | .groupSet f => Sys2Proof.Machine.execGroupSet f s
  | .groupMemberSet f => Sys2Proof.Machine.execGroupMemberSet f s
  | .ringInfo f => Sys2Proof.Machine.execRingInfo f s
  | .ringAlloc f => Sys2Proof.Machine.execRingAlloc f s
  | .ringFree f => Sys2Proof.Machine.execRingFree f s
  | .ringDeep f => Sys2Proof.Machine.execRingDeep f s
  | .routeInfo f => Sys2Proof.Machine.execRouteInfo f s
  | .routeCreate f => Sys2Proof.Machine.execRouteCreate f s
  | .routeDelete f => Sys2Proof.Machine.execRouteDelete f s
  | .routeCut f => Sys2Proof.Machine.execRouteCut f s
  | .routeKerf f => Sys2Proof.Machine.execRouteKerf f s
  | .routeSet f => Sys2Proof.Machine.execRouteSet f s
  | .routePolicy f => Sys2Proof.Machine.execRoutePolicy f s
  | .portInfo f => Sys2Proof.Machine.execPortInfo f s
  | .portAssign f => Sys2Proof.Machine.execPortAssign f s
  | .portTdmConfig f => Sys2Proof.Machine.execPortTdmConfig f s
  | .portSlotBind f => Sys2Proof.Machine.execPortSlotBind f s
  | .portDitherSet f => Sys2Proof.Machine.execPortDitherSet f s
  | .portQuadMode f => Sys2Proof.Machine.execPortQuadMode f s
  | .portGpiBind f => Sys2Proof.Machine.execPortGpiBind f s
  | .portGpoBind f => Sys2Proof.Machine.execPortGpoBind f s
  | .portGpoSet f => Sys2Proof.Machine.execPortGpoSet f s
  | .portGpoClear f => Sys2Proof.Machine.execPortGpoClear f s
  | .streamInfo f => Sys2Proof.Machine.execStreamInfo f s
  | .streamRxCreate f => Sys2Proof.Machine.execStreamRxCreate f s
  | .streamTxCreate f => Sys2Proof.Machine.execStreamTxCreate f s
  | .streamDelete f => Sys2Proof.Machine.execStreamDelete f s
  | .streamSdpGet f => Sys2Proof.Machine.execStreamSdpGet f s
  | .streamSdpSet f => Sys2Proof.Machine.execStreamSdpSet f s
  | .sceneInfo f => Sys2Proof.Machine.execSceneInfo f s
  | .sceneStore f => Sys2Proof.Machine.execSceneStore f s
  | .sceneStoreComplete desk seq => Sys2Proof.Machine.execSceneStoreComplete desk seq s
  | .sceneDelete f => Sys2Proof.Machine.execSceneDelete f s
  | .sceneRecall f => Sys2Proof.Machine.execSceneRecall f s
  | .sceneCancel f => Sys2Proof.Machine.execSceneCancel f s
  | .sceneArm f => Sys2Proof.Machine.execSceneArm f s
  | .sceneGo f => Sys2Proof.Machine.execSceneGo f s
  | .sceneSafeSet f => Sys2Proof.Machine.execSceneSafeSet f s
  | .sceneNumberSet f => Sys2Proof.Machine.execSceneNumberSet f s
  | .scenePlanGet f => Sys2Proof.Machine.execScenePlanGet f s
  | .recallPlanPoint recallId => Sys2Proof.Machine.execRecallPlanPoint recallId s
  | .quarryArm m => Sys2Proof.Machine.execQuarryArm m s
  | .quarryReady m => Sys2Proof.Machine.execQuarryReady m s
  | .quarryLate m => Sys2Proof.Machine.execQuarryLate m s
  | .quarryRetarget m => Sys2Proof.Machine.execQuarryRetarget m s
  | .quarryGo m => Sys2Proof.Machine.execQuarryGo m s
  | .quarryAbort m => Sys2Proof.Machine.execQuarryAbort m s
  | .keeperDecisionPoint recallId => Sys2Proof.Machine.execKeeperDecisionPoint recallId s
  | .recallOrphanDeadline recallId => Sys2Proof.Machine.execRecallOrphanDeadline recallId s
  | .domainInfo f => Sys2Proof.Machine.execDomainInfo f s
  | .domainConfig f => Sys2Proof.Machine.execDomainConfig f s
  | .domainStart f => Sys2Proof.Machine.execDomainStart f s
  | .domainStop f => Sys2Proof.Machine.execDomainStop f s
  | .domainRateSet f => Sys2Proof.Machine.execDomainRateSet f s
  | .domainBridgeAlloc f => Sys2Proof.Machine.execDomainBridgeAlloc f s
  | .domainBridgeFree f => Sys2Proof.Machine.execDomainBridgeFree f s
  | .domainBridgeInfo f => Sys2Proof.Machine.execDomainBridgeInfo f s
  | .domainStopInstant dom => Sys2Proof.Machine.execDomainStopInstant dom s
  | .domainRestartInstant dom => Sys2Proof.Machine.execDomainRestartInstant dom s
  | .domainFadeInEnd dom => Sys2Proof.Machine.execDomainFadeInEnd dom s
  | .timingInfo f => Sys2Proof.Machine.execTimingInfo f s
  | .timingNow f => Sys2Proof.Machine.execTimingNow f s
  | .timingRefConfig f => Sys2Proof.Machine.execTimingRefConfig f s
  | .timingPllSet f => Sys2Proof.Machine.execTimingPllSet f s
  | .timingHoldoverSet f => Sys2Proof.Machine.execTimingHoldoverSet f s
  | .timingOffsetSet f => Sys2Proof.Machine.execTimingOffsetSet f s
  | .timingSpliceSet f => Sys2Proof.Machine.execTimingSpliceSet f s
  | .timingStickyClear f => Sys2Proof.Machine.execTimingStickyClear f s
  | .timingSelect f => Sys2Proof.Machine.execTimingSelect f s
  | .meterInfo f => Sys2Proof.Machine.execMeterInfo f s
  | .meterAlloc f => Sys2Proof.Machine.execMeterAlloc f s
  | .meterFree f => Sys2Proof.Machine.execMeterFree f s
  | .meterTap f => Sys2Proof.Machine.execMeterTap f s
  | .meterParamSet f => Sys2Proof.Machine.execMeterParamSet f s
  | .meterLoudCtl f => Sys2Proof.Machine.execMeterLoudCtl f s
  | .svcInfo f => Sys2Proof.Machine.execSvcInfo f s
  | .svcAlloc f => Sys2Proof.Machine.execSvcAlloc f s
  | .svcFree f => Sys2Proof.Machine.execSvcFree f s
  | .svcParamSet f => Sys2Proof.Machine.execSvcParamSet f s
  | .svcParamGet f => Sys2Proof.Machine.execSvcParamGet f s
  | .svcTalk f => Sys2Proof.Machine.execSvcTalk f s
  | .svcSoloSet f => Sys2Proof.Machine.execSvcSoloSet f s
  | .captureInfo f => Sys2Proof.Machine.execCaptureInfo f s
  | .captureAlloc f => Sys2Proof.Machine.execCaptureAlloc f s
  | .captureFree f => Sys2Proof.Machine.execCaptureFree f s
  | .captureFreeze f => Sys2Proof.Machine.execCaptureFreeze f s
  | .capturePlay f => Sys2Proof.Machine.execCapturePlay f s
  | .captureStop f => Sys2Proof.Machine.execCaptureStop f s
  | .captureRelease f => Sys2Proof.Machine.execCaptureRelease f s
  | .captureRead f => Sys2Proof.Machine.execCaptureRead f s
  | .captureParamSet f => Sys2Proof.Machine.execCaptureParamSet f s
  | .captureStopIndexReached capture => Sys2Proof.Machine.execCaptureStopIndexReached capture s
  | .capturePlayEnd capture => Sys2Proof.Machine.execCapturePlayEnd capture s
  | .redInfo f => Sys2Proof.Machine.execRedInfo f s
  | .redConfig f => Sys2Proof.Machine.execRedConfig f s
  | .redSwitch f => Sys2Proof.Machine.execRedSwitch f s
  | .redRejoin f => Sys2Proof.Machine.execRedRejoin f s
  | .faultLogGet f => Sys2Proof.Machine.execFaultLogGet f s
  | .faultClear f => Sys2Proof.Machine.execFaultClear f s
  | .spareInfo f => Sys2Proof.Machine.execSpareInfo f s
  | .spareTest f => Sys2Proof.Machine.execSpareTest f s
  | .spareTestComplete kind unit pass => Sys2Proof.Machine.execSpareTestComplete kind unit pass s
  | .blockInfo f => Sys2Proof.Machine.execBlockInfo f s
  | .blockCeilingSet f => Sys2Proof.Machine.execBlockCeilingSet f s
  | .blockPkgLoad f => Sys2Proof.Machine.execBlockPkgLoad f s
  | .packageCheckDone signatureOk digestOk => Sys2Proof.Machine.execPackageCheckDone signatureOk digestOk s
  | .blockPkgUnload f => Sys2Proof.Machine.execBlockPkgUnload f s
  | .blockPkgList f => Sys2Proof.Machine.execBlockPkgList f s
  | .blockKeyslotProgram f => Sys2Proof.Machine.execBlockKeyslotProgram f s
  | .blockKeyslotRevoke f => Sys2Proof.Machine.execBlockKeyslotRevoke f s
  | .blockCreate f => Sys2Proof.Machine.execBlockCreate f s
  | .blockFree f => Sys2Proof.Machine.execBlockFree f s
  | .blockParamSet f => Sys2Proof.Machine.execBlockParamSet f s
  | .blockParamGet f => Sys2Proof.Machine.execBlockParamGet f s
  | .seamInfo f => Sys2Proof.Machine.execSeamInfo f s
  | .seamConfig f => Sys2Proof.Machine.execSeamConfig f s
  | .seamLand f => Sys2Proof.Machine.execSeamLand f s
  | .seamFwdSet f => Sys2Proof.Machine.execSeamFwdSet f s
  | .seamFwdGet f => Sys2Proof.Machine.execSeamFwdGet f s
  | .seamIdSet f => Sys2Proof.Machine.execSeamIdSet f s
  | .seamPSet f => Sys2Proof.Machine.execSeamPSet f s
  | .seamTest f => Sys2Proof.Machine.execSeamTest f s
  | .ethInfo f => Sys2Proof.Machine.execEthInfo f s
  | .ethConfig f => Sys2Proof.Machine.execEthConfig f s
  | .ethPtpConfig f => Sys2Proof.Machine.execEthPtpConfig f s
  | .cmdTailWrite desk value => Sys2Proof.Machine.execCmdTailWrite desk value s
  | .rspHeadWrite desk value => Sys2Proof.Machine.execRspHeadWrite desk value s
  | .evtHeadWrite desk value => Sys2Proof.Machine.execEvtHeadWrite desk value s
  | .ringCmd desk => Sys2Proof.Machine.execRingCmd desk s
  | .ringRsp desk => Sys2Proof.Machine.execRingRsp desk s
  | .ringEvt desk => Sys2Proof.Machine.execRingEvt desk s
  | .cmdTailPoll => Sys2Proof.Machine.execCmdTailPoll s
  | .mailboxFlagsClear desk mask => Sys2Proof.Machine.execMailboxFlagsClear desk mask s
  | .protoErrCountRead desk => Sys2Proof.Machine.execProtoErrCountRead desk s
  | .udpDatagramReceived d => Sys2Proof.Machine.execUdpDatagramReceived d s
  | .seamControlRecord lane r => Sys2Proof.Machine.execSeamControlRecord lane r s
  | .fragmentReceived f => Sys2Proof.Machine.execFragmentReceived f s
  | .fragmentTimeout desk => Sys2Proof.Machine.execFragmentTimeout desk s
  | .bulkTransferDone desk seq ok data => Sys2Proof.Machine.execBulkTransferDone desk seq ok data s
  | .leaseExpired desk => Sys2Proof.Machine.execLeaseExpired desk s
  | .eventDelivery desk => Sys2Proof.Machine.execEventDelivery desk s
  | .misfitCountRead => Sys2Proof.Machine.execMisfitCountRead s
  | .rvCountRead => Sys2Proof.Machine.execRvCountRead s
  | .irqStatusClear mask => Sys2Proof.Machine.execIrqStatusClear mask s
  | .stickyWrite mask => Sys2Proof.Machine.execStickyWrite mask s
  | .quarryTimeCapture => Sys2Proof.Machine.execQuarryTimeCapture s
  | .snapshotTake bank => Sys2Proof.Machine.execSnapshotTake bank s
  | .snapRefusedClear mask => Sys2Proof.Machine.execSnapRefusedClear mask s
  | .cpRemapWrite value => Sys2Proof.Machine.execCpRemapWrite value s
  | .registerPairLowRead cp offset => Sys2Proof.Machine.execRegisterPairLowRead cp offset s
  | .registerWrite offset value => Sys2Proof.Machine.execRegisterWrite offset value s
  | .matrixAccess a => Sys2Proof.Machine.execMatrixAccess a s
  | .endpointReset => Sys2Proof.Machine.execEndpointReset s
  | .svRead addr => Sys2Proof.Machine.execSvRead addr s
  | .svWrite addr data chk => Sys2Proof.Machine.execSvWrite addr data chk s
  | .spiErrRead => Sys2Proof.Machine.execSpiErrRead s
  | .commandWake => Sys2Proof.Machine.execCommandWake s
  | .commandDormant => Sys2Proof.Machine.execCommandDormant s
  | .commandRestart => Sys2Proof.Machine.execCommandRestart s
  | .commandClearStall => Sys2Proof.Machine.execCommandClearStall s
  | .commandDesk0Pcie => Sys2Proof.Machine.execCommandDesk0Pcie s
  | .supervisorPowerOn vin => Sys2Proof.Machine.execSupervisorPowerOn vin s
  | .supervisorPowerOff => Sys2Proof.Machine.execSupervisorPowerOff s
  | .wakeHigh => Sys2Proof.Machine.execWakeHigh s
  | .svCsSelect => Sys2Proof.Machine.execSvCsSelect s
  | .wakeLowShutdown => Sys2Proof.Machine.execWakeLowShutdown s
  | .watchIdleTimeout => Sys2Proof.Machine.execWatchIdleTimeout s
  | .vinRiseUvlo vin => Sys2Proof.Machine.execVinRiseUvlo vin s
  | .brownoutTrigger vin => Sys2Proof.Machine.execBrownoutTrigger vin s
  | .vinGuardFall vin => Sys2Proof.Machine.execVinGuardFall vin s
  | .vinGuardRise vin => Sys2Proof.Machine.execVinGuardRise vin s
  | .ilimHeld => Sys2Proof.Machine.execIlimHeld s
  | .overTemperature temp => Sys2Proof.Machine.execOverTemperature temp s
  | .sequencingStepReady phasesFailed strap => Sys2Proof.Machine.execSequencingStepReady phasesFailed strap s
  | .sequencingStepTimeout => Sys2Proof.Machine.execSequencingStepTimeout s
  | .sequenceRetry => Sys2Proof.Machine.execSequenceRetry s
  | .imageCheckDone v => Sys2Proof.Machine.execImageCheckDone v s
  | .bootChunkPost chunk len data => Sys2Proof.Machine.execBootChunkPost chunk len data s
  | .hostLoadTimeout => Sys2Proof.Machine.execHostLoadTimeout s
  | .firmwareWatchdogExpiry => Sys2Proof.Machine.execFirmwareWatchdogExpiry s
  | .firmwareReady bankVio rateA repairFailed => Sys2Proof.Machine.execFirmwareReady bankVio rateA repairFailed s
  | .antiRollbackBurn => Sys2Proof.Machine.execAntiRollbackBurn s
  | .phaseFault phase => Sys2Proof.Machine.execPhaseFault phase s
  | .phaseRetry phase => Sys2Proof.Machine.execPhaseRetry phase s
  | .phaseClean phase => Sys2Proof.Machine.execPhaseClean phase s
  | .ashlarSlot dom bankVio errors => Sys2Proof.Machine.execAshlarSlot dom bankVio errors s
  | .controlTick dom => Sys2Proof.Machine.execControlTick dom s
  | .loudnessBlockStep meter => Sys2Proof.Machine.execLoudnessBlockStep meter s
  | .scheduledLaunch dom => Sys2Proof.Machine.execScheduledLaunch dom s
  | .twinWarmupStart dom => Sys2Proof.Machine.execTwinWarmupStart dom s
  | .kerfComplete dom => Sys2Proof.Machine.execKerfComplete dom s
  | .writerSilenceTimeout ring => Sys2Proof.Machine.execWriterSilenceTimeout ring s
  | .relocationSwitch ring part bank row => Sys2Proof.Machine.execRelocationSwitch ring part bank row s
  | .bankSpareSwitch failed => Sys2Proof.Machine.execBankSpareSwitch failed s
  | .arraySpareSwitch failed mismatches => Sys2Proof.Machine.execArraySpareSwitch failed mismatches s
  | .transplantSwitch source target mismatch lost => Sys2Proof.Machine.execTransplantSwitch source target mismatch lost s
  | .scrubPass errors => Sys2Proof.Machine.execScrubPass errors s
  | .backgroundTest kind unit pass => Sys2Proof.Machine.execBackgroundTest kind unit pass s
  | .lockstepMismatch => Sys2Proof.Machine.execLockstepMismatch s
  | .snapshotLatch bank => Sys2Proof.Machine.execSnapshotLatch bank s
  | .quarrySnapshotRecord bank ashlar keeper keeperSeq => Sys2Proof.Machine.execQuarrySnapshotRecord bank ashlar keeper keeperSeq s
  | .pllUpdate => Sys2Proof.Machine.execPllUpdate s
  | .referenceEvent cand e quality => Sys2Proof.Machine.execReferenceEvent cand e quality s
  | .candidateValid cand => Sys2Proof.Machine.execCandidateValid cand s
  | .candidateLost cand => Sys2Proof.Machine.execCandidateLost cand s
  | .phaseStepApply => Sys2Proof.Machine.execPhaseStepApply s
  | .holdoverExpiry => Sys2Proof.Machine.execHoldoverExpiry s
  | .calibrationWrite => Sys2Proof.Machine.execCalibrationWrite s
  | .tdmFrame port f => Sys2Proof.Machine.execTdmFrame port f s
  | .tdmClockLoss port => Sys2Proof.Machine.execTdmClockLoss port s
  | .portClockRecovered port => Sys2Proof.Machine.execPortClockRecovered port s
  | .gpiSample millivolts => Sys2Proof.Machine.execGpiSample millivolts s
  | .gpiChangeAccepted gpi => Sys2Proof.Machine.execGpiChangeAccepted gpi s
  | .gpoOvercurrent gpo => Sys2Proof.Machine.execGpoOvercurrent gpo s
  | .gpoRetry gpo => Sys2Proof.Machine.execGpoRetry gpo s
  | .gpoRetryHeld gpo => Sys2Proof.Machine.execGpoRetryHeld gpo s
  | .gpoStuckLowTimeout gpo => Sys2Proof.Machine.execGpoStuckLowTimeout gpo s
  | .seamHeaderReceived lane h => Sys2Proof.Machine.execSeamHeaderReceived lane h s
  | .segmentReceived lane position g => Sys2Proof.Machine.execSegmentReceived lane position g s
  | .nakReceived lane pos frame chkOk => Sys2Proof.Machine.execNakReceived lane pos frame chkOk s
  | .retryWindowClose lane seg ashlar => Sys2Proof.Machine.execRetryWindowClose lane seg ashlar s
  | .laneSignalDetect lane => Sys2Proof.Machine.execLaneSignalDetect lane s
  | .laneUp lane => Sys2Proof.Machine.execLaneUp lane s
  | .laneAshTimeout lane => Sys2Proof.Machine.execLaneAshTimeout lane s
  | .ctrlRecordExpiry lane => Sys2Proof.Machine.execCtrlRecordExpiry lane s
  | .topologyReportSend => Sys2Proof.Machine.execTopologyReportSend s
  | .topologyReport engine entries => Sys2Proof.Machine.execTopologyReport engine entries s
  | .pPropose p src => Sys2Proof.Machine.execPPropose p src s
  | .pAccept engine accept => Sys2Proof.Machine.execPAccept engine accept s
  | .pVoteTimeout => Sys2Proof.Machine.execPVoteTimeout s
  | .pCommit p ashlar => Sys2Proof.Machine.execPCommit p ashlar s
  | .pChangeApply => Sys2Proof.Machine.execPChangeApply s
  | .tetherFrameReceived peer f => Sys2Proof.Machine.execTetherFrameReceived peer f s
  | .peerLostTimeout peer => Sys2Proof.Machine.execPeerLostTimeout peer s
  | .tetherSelfRelease => Sys2Proof.Machine.execTetherSelfRelease s
  | .ackTimeout peer => Sys2Proof.Machine.execAckTimeout peer s
  | .formationTimeout => Sys2Proof.Machine.execFormationTimeout s
  | .ownReleaseSensed peer => Sys2Proof.Machine.execOwnReleaseSensed peer s
  | .takeoverSettleEnd => Sys2Proof.Machine.execTakeoverSettleEnd s
  | .ownCollisionBackoff => Sys2Proof.Machine.execOwnCollisionBackoff s
  | .fenceAsserted => Sys2Proof.Machine.execFenceAsserted s
  | .ethFrameReceived port f => Sys2Proof.Machine.execEthFrameReceived port f s
  | .ethLinkChange port up speed => Sys2Proof.Machine.execEthLinkChange port up speed s
  | .streamPacketLaunch stream => Sys2Proof.Machine.execStreamPacketLaunch stream s
  | .streamPacketReceived port p => Sys2Proof.Machine.execStreamPacketReceived port p s
  | .streamPathDownTimeout stream path => Sys2Proof.Machine.execStreamPathDownTimeout stream path s
  | .streamPathUp stream path => Sys2Proof.Machine.execStreamPathUp stream path s
  | .ptpMessageReceived port m => Sys2Proof.Machine.execPtpMessageReceived port m s
  | .ptpMessageInterval port kind => Sys2Proof.Machine.execPtpMessageInterval port kind s
  | .announceReceiptTimeout port => Sys2Proof.Machine.execAnnounceReceiptTimeout port s
  | .arpRefresh port ip => Sys2Proof.Machine.execArpRefresh port ip s
  | .dhcpLeaseEvent port addr mask gateway => Sys2Proof.Machine.execDhcpLeaseEvent port addr mask gateway s
  | .ownAssertSensed peer => Sys2Proof.Machine.execOwnAssertSensed peer s
  | .fenceReleased => Sys2Proof.Machine.execFenceReleased s
  | .pcieLinkUp => Sys2Proof.Machine.execPcieLinkUp s

end Sys2Proof.Machine
end

