-- ==== Sys2Proof/Machine/Step.lean ====
section
/-! DEFINITION. One step: the command at the front of the queue, or one TIME cycle on an empty queue (log entry 5). -/
namespace Sys2Proof.Machine

/-- Take the command at the front of the queue and run it; an empty queue lets a TIME cycle pass. -/
def step (s : State) : Host.Outcome State Fault Refusal :=
  match s.pending with
  | [] => .next s.timePass
  | c :: cs => exec c { s with pending := cs }

end Sys2Proof.Machine

/-- `s` with the command a table word spells put at the front of its queue (none: `s` unchanged). -/
def Sys2Proof.Machine.State.withFetchWord (s : Sys2Proof.Machine.State) (nbits w : Nat) : Sys2Proof.Machine.State :=
  match Sys2Proof.decodeTableWord nbits w with
  | some c => { s with pending := c :: s.pending }
  | none => s
end

