-- ==== Sys2Proof/Safety.lean ====
section
/-! DEFINITION. The terms claims are stated in: what counts as a safe run, when a Ruzia frame reaches its command's own checks
(steps 1 to 8 of R309), and how an accepted or refused command is answered. -/
namespace Sys2Proof
open Sys2Proof.Machine

/-- Outcomes of one step of this machine. -/
abbrev Out := Host.Outcome State Fault Refusal

/-- The outcome goes on. -/
def goesOn (o : Out) : Prop := ∃ t, o = .next t

/-- `n` steps from `s` all go on. -/
def safeFor : Nat → State → Prop
  | 0, _ => True
  | n + 1, s => ∃ t, step s = .next t ∧ safeFor n t

/-- The transport checks of R309 (steps 1 to 3), and what the engine needs to take a command: it serves, the desk exists, a PCIe
desk has a response slot, fewer than eight of its commands wait for an answer, and a UDP or Seam frame is newer than the last. -/
structure Arrived (op : Nat) (f : CmdFrame) (s : State) : Prop where
  serving : s.serving = true
  desk : f.desk ≤ 16
  slot : f.via = .pcie → rspFree s f.desk = true
  few : s.unanswered f.desk < 8
  short : f.len ≤ 240
  whole : f.payload.length = f.len
  flags : f.flags < 8
  res : f.res = 0
  attached : attached (s.desk f.desk) f.via = true
  fresh : f.via = .pcie ∨ op = 0x0201 ∨ newer f.seq (s.desk f.desk).newest = true

/-- Steps 1 to 8 of R309 pass: only the command's own checks can still refuse it. -/
structure Taken (o : RuziaOp) (f : CmdFrame) (s : State) : Prop where
  arrived : Arrived o.op f s
  length : o.lenOk f = true
  session : (s.desk f.desk).isOpen = true ∨ sessionFree o.op = true
  desk0 : o.desk0 = true → f.desk = 0
  member : o.acc = .change → s.red.role = .single ∨ s.red.role = .active

/-- The command is accepted: its state change `u` is in force and it is answered with a status and a payload. -/
def answered (o : RuziaOp) (f : CmdFrame) (u : State) (status : Nat) (payload : List Byte) : Out :=
  .next (u.accepted o.op o.acc f { status := status, payload := payload })

/-- The command is refused with the error `e`; nothing else happens. -/
def turnedDown (o : RuziaOp) (f : CmdFrame) (s : State) (e : Err) : Out := .next (s.refusedWith o.op f (e.concerning o.op f))

/-- A handle names this object of one of the types, by index and generation (R285). -/
abbrev names (s : State) (h : Nat) (tys : List Nat) (o : Obj) : Prop :=
  hType h ∈ tys ∧ s.objAt (hType h) (hIdx h) = some o ∧ o.gen = hGen h

/-- The frame's desk owns the object or is desk 0 (R304). -/
abbrev mayChange (f : CmdFrame) (o : Obj) : Prop := f.desk = o.desk ∨ f.desk = 0

/-- No free is under way and no deferred allocation is open on the object (R303, R315). -/
abbrev open' (o : Obj) : Prop := o.freeing = false ∧ o.job = none

/-- The commands of the supervisor's side, which do not need the engine die: supply, WAKE, the service port, the sequence and the
converter's phases (R545-R560, R568-R571). -/
def supervisorSide : Instr → Bool
  | .svRead _ => true
  | .svWrite _ _ _ => true
  | .spiErrRead => true
  | .commandWake => true
  | .commandDormant => true
  | .commandRestart => true
  | .commandClearStall => true
  | .supervisorPowerOn _ => true
  | .supervisorPowerOff => true
  | .wakeHigh => true
  | .svCsSelect => true
  | .wakeLowShutdown => true
  | .watchIdleTimeout => true
  | .vinRiseUvlo _ => true
  | .brownoutTrigger _ => true
  | .vinGuardFall _ => true
  | .vinGuardRise _ => true
  | .ilimHeld => true
  | .overTemperature _ => true
  | .sequencingStepReady _ _ => true
  | .sequencingStepTimeout => true
  | .sequenceRetry => true
  | .phaseFault _ => true
  | .phaseRetry _ => true
  | .phaseClean _ => true
  | _ => false

/-- The engine die is off and only commands of the engine's side wait. -/
def offInert (s : State) : Prop := s.dieOn = false ∧ ∀ c ∈ s.pending, supervisorSide c = false

/-- The input voltage a command senses, in 10 mV units. -/
def sensedVin : Instr → Option Nat
  | .supervisorPowerOn v => some v
  | .vinRiseUvlo v => some v
  | .brownoutTrigger v => some v
  | .vinGuardFall v => some v
  | .vinGuardRise v => some v
  | _ => none

/-- The Ruzia commands: opcode (R310) and frame; `none` for every other command. -/
def ruziaOf : Instr → Option (Nat × CmdFrame)
  | .sysInfo f => some (0x0100, f)
  | .sysSnapshot f => some (0x0101, f)
  | .sysRestart f => some (0x0102, f)
  | .sysImageWrite f => some (0x0103, f)
  | .deskInfo f => some (0x0200, f)
  | .deskOpen f => some (0x0201, f)
  | .deskClose f => some (0x0202, f)
  | .deskPing f => some (0x0203, f)
  | .deskAttach f => some (0x0204, f)
  | .deskKeySet f => some (0x0205, f)
  | .deskQuotaSet f => some (0x0206, f)
  | .deskDefaultsSet f => some (0x0207, f)
  | .deskEventReplay f => some (0x0208, f)
  | .stripInfo f => some (0x0300, f)
  | .stripAlloc f => some (0x0301, f)
  | .stripFree f => some (0x0302, f)
  | .stripParamSet f => some (0x0303, f)
  | .stripParamGet f => some (0x0304, f)
  | .busInfo f => some (0x0400, f)
  | .busAlloc f => some (0x0401, f)
  | .busFree f => some (0x0402, f)
  | .busParamSet f => some (0x0403, f)
  | .busParamGet f => some (0x0404, f)
  | .busAttrSet f => some (0x0405, f)
  | .busLayout f => some (0x0406, f)
  | .nodeTilesInfo f => some (0x0500, f)
  | .nodeTilesAlloc f => some (0x0501, f)
  | .nodeTilesFree f => some (0x0502, f)
  | .nodeTilesDefault f => some (0x0503, f)
  | .nodeSet f => some (0x0504, f)
  | .nodeBulk f => some (0x0505, f)
  | .nodeGet f => some (0x0506, f)
  | .groupInfo f => some (0x0600, f)
  | .groupAlloc f => some (0x0601, f)
  | .groupFree f => some (0x0602, f)
  | .groupSet f => some (0x0603, f)
  | .groupMemberSet f => some (0x0604, f)
  | .ringInfo f => some (0x0700, f)
  | .ringAlloc f => some (0x0701, f)
  | .ringFree f => some (0x0702, f)
  | .ringDeep f => some (0x0703, f)
  | .routeInfo f => some (0x0800, f)
  | .routeCreate f => some (0x0801, f)
  | .routeDelete f => some (0x0802, f)
  | .routeCut f => some (0x0803, f)
  | .routeKerf f => some (0x0804, f)
  | .routeSet f => some (0x0805, f)
  | .routePolicy f => some (0x0806, f)
  | .portInfo f => some (0x0900, f)
  | .portAssign f => some (0x0901, f)
  | .portTdmConfig f => some (0x0902, f)
  | .portSlotBind f => some (0x0903, f)
  | .portDitherSet f => some (0x0904, f)
  | .portQuadMode f => some (0x0905, f)
  | .portGpiBind f => some (0x0906, f)
  | .portGpoBind f => some (0x0907, f)
  | .portGpoSet f => some (0x0908, f)
  | .portGpoClear f => some (0x0909, f)
  | .streamInfo f => some (0x0A00, f)
  | .streamRxCreate f => some (0x0A01, f)
  | .streamTxCreate f => some (0x0A02, f)
  | .streamDelete f => some (0x0A03, f)
  | .streamSdpGet f => some (0x0A04, f)
  | .streamSdpSet f => some (0x0A05, f)
  | .sceneInfo f => some (0x0A40, f)
  | .sceneStore f => some (0x0A41, f)
  | .sceneDelete f => some (0x0A42, f)
  | .sceneRecall f => some (0x0A43, f)
  | .sceneCancel f => some (0x0A44, f)
  | .sceneArm f => some (0x0A45, f)
  | .sceneGo f => some (0x0A46, f)
  | .sceneSafeSet f => some (0x0A47, f)
  | .sceneNumberSet f => some (0x0A48, f)
  | .scenePlanGet f => some (0x0A49, f)
  | .domainInfo f => some (0x0A80, f)
  | .domainConfig f => some (0x0A81, f)
  | .domainStart f => some (0x0A82, f)
  | .domainStop f => some (0x0A83, f)
  | .domainRateSet f => some (0x0A84, f)
  | .domainBridgeAlloc f => some (0x0A88, f)
  | .domainBridgeFree f => some (0x0A89, f)
  | .domainBridgeInfo f => some (0x0A8A, f)
  | .timingInfo f => some (0x0B00, f)
  | .timingNow f => some (0x0B01, f)
  | .timingRefConfig f => some (0x0B02, f)
  | .timingPllSet f => some (0x0B03, f)
  | .timingHoldoverSet f => some (0x0B04, f)
  | .timingOffsetSet f => some (0x0B05, f)
  | .timingSpliceSet f => some (0x0B06, f)
  | .timingStickyClear f => some (0x0B07, f)
  | .timingSelect f => some (0x0B08, f)
  | .meterInfo f => some (0x0C00, f)
  | .meterAlloc f => some (0x0C01, f)
  | .meterFree f => some (0x0C02, f)
  | .meterTap f => some (0x0C03, f)
  | .meterParamSet f => some (0x0C04, f)
  | .meterLoudCtl f => some (0x0C05, f)
  | .svcInfo f => some (0x0D00, f)
  | .svcAlloc f => some (0x0D01, f)
  | .svcFree f => some (0x0D02, f)
  | .svcParamSet f => some (0x0D03, f)
  | .svcParamGet f => some (0x0D04, f)
  | .svcTalk f => some (0x0D05, f)
  | .svcSoloSet f => some (0x0D06, f)
  | .captureInfo f => some (0x1200, f)
  | .captureAlloc f => some (0x1201, f)
  | .captureFree f => some (0x1202, f)
  | .captureFreeze f => some (0x1203, f)
  | .capturePlay f => some (0x1204, f)
  | .captureStop f => some (0x1205, f)
  | .captureRelease f => some (0x1206, f)
  | .captureRead f => some (0x1207, f)
  | .captureParamSet f => some (0x1208, f)
  | .redInfo f => some (0x0E00, f)
  | .redConfig f => some (0x0E01, f)
  | .redSwitch f => some (0x0E02, f)
  | .redRejoin f => some (0x0E03, f)
  | .faultLogGet f => some (0x0F00, f)
  | .faultClear f => some (0x0F01, f)
  | .spareInfo f => some (0x1000, f)
  | .spareTest f => some (0x1001, f)
  | .blockInfo f => some (0x1100, f)
  | .blockCeilingSet f => some (0x1101, f)
  | .blockPkgLoad f => some (0x1102, f)
  | .blockPkgUnload f => some (0x1103, f)
  | .blockPkgList f => some (0x1104, f)
  | .blockKeyslotProgram f => some (0x1105, f)
  | .blockKeyslotRevoke f => some (0x1106, f)
  | .blockCreate f => some (0x1107, f)
  | .blockFree f => some (0x1108, f)
  | .blockParamSet f => some (0x1109, f)
  | .blockParamGet f => some (0x110A, f)
  | .seamInfo f => some (0x1300, f)
  | .seamConfig f => some (0x1301, f)
  | .seamLand f => some (0x1302, f)
  | .seamFwdSet f => some (0x1303, f)
  | .seamFwdGet f => some (0x1304, f)
  | .seamIdSet f => some (0x1305, f)
  | .seamPSet f => some (0x1306, f)
  | .seamTest f => some (0x1307, f)
  | .ethInfo f => some (0x1400, f)
  | .ethConfig f => some (0x1401, f)
  | .ethPtpConfig f => some (0x1402, f)
  | _ => none

/-- The bytes of a command frame (R280), every field little-endian (R10). -/
def cmdBytes (op : Nat) (f : CmdFrame) : List Byte :=
  le 2 op ++ le 2 f.len ++ le 4 f.seq ++ le 2 f.desk ++ le 2 f.flags ++ le 4 f.res ++ f.payload

/-- The frame's fields fit the header of R280 and its payload has its LENGTH. -/
structure FitsHeader (op : Nat) (f : CmdFrame) : Prop where
  op : op < 2 ^ 16
  len : f.len < 2 ^ 16
  seq : f.seq < 2 ^ 32
  desk : f.desk < 2 ^ 16
  flags : f.flags < 2 ^ 16
  res : f.res < 2 ^ 32
  whole : f.payload.length = f.len

/-- Commands whose payload begins with the handle of the object they change, which they check before anything else. -/
def changeByHandle : List (RuziaOp × List Nat × (CmdFrame → Instr)) :=
  [(opStripParamSet, [tStrip], .stripParamSet), (opBusParamSet, [tBus], .busParamSet), (opBusAttrSet, [tBus], .busAttrSet),
    (opBusLayout, [tBus], .busLayout), (opGroupSet, [tGroup], .groupSet), (opRingDeep, [tRing], .ringDeep),
    (opRouteDelete, [tRoute], .routeDelete), (opRoutePolicy, [tRoute], .routePolicy), (opSceneDelete, [tScene], .sceneDelete),
    (opSceneRecall, [tScene], .sceneRecall), (opSceneNumberSet, [tScene], .sceneNumberSet), (opMeterParamSet, [tMeter], .meterParamSet),
    (opSvcParamSet, [tSvc], .svcParamSet), (opBlockParamSet, [tBlock], .blockParamSet), (opCaptureFreeze, [tCapture], .captureFreeze),
    (opCapturePlay, [tCapture], .capturePlay), (opCaptureStop, [tCapture], .captureStop), (opCaptureRelease, [tCapture], .captureRelease),
    (opCaptureRead, [tCapture], .captureRead), (opCaptureParamSet, [tCapture], .captureParamSet)]

/-- The other commands whose payload begins with the handle of their object. -/
def askByHandle : List (RuziaOp × List Nat × (CmdFrame → Instr)) :=
  [(opStripInfo, [tStrip], .stripInfo), (opStripParamGet, [tStrip], .stripParamGet), (opBusInfo, [tBus], .busInfo),
    (opBusParamGet, [tBus], .busParamGet), (opNodeTilesInfo, [tBlock], .nodeTilesInfo), (opNodeSet, [tBlock], .nodeSet),
    (opNodeBulk, [tBlock], .nodeBulk), (opNodeGet, [tBlock], .nodeGet), (opGroupInfo, [tGroup], .groupInfo),
    (opGroupMemberSet, [tGroup], .groupMemberSet), (opRingInfo, [tRing], .ringInfo), (opRouteInfo, [tRoute], .routeInfo),
    (opStreamInfo, [tStream], .streamInfo), (opStreamSdpGet, [tStream], .streamSdpGet), (opSceneInfo, [tScene], .sceneInfo),
    (opSceneSafeSet, [tStrip, tBus, tRoute, tBlock, tGroup, tSvc], .sceneSafeSet), (opDomainBridgeInfo, [tBridge], .domainBridgeInfo), (opMeterInfo, [tMeter], .meterInfo),
    (opMeterTap, [tMeter], .meterTap), (opSvcInfo, [tSvc], .svcInfo), (opSvcParamGet, [tSvc], .svcParamGet),
    (opSvcSoloSet, [tSvc], .svcSoloSet), (opBlockParamGet, [tBlock], .blockParamGet), (opCaptureInfo, [tCapture], .captureInfo)]

/-- The checks of R309 that `strip.alloc` (role 0) and `bus.alloc` make pass and a core has room without consolidation; `u` and `p`
are the state and the response: the new object with its output ring, tap rings and block pages (R103, R105, R123, R124, R128). -/
def ChanAllocated (role o0 enableAt pan : Nat) (f : CmdFrame) (s u : State) (p : List Byte) : Prop :=
  ∃ d cls core overs i o r s₁ s₂ s₃ s₄, ∃ c : Chan, ∃ w : Nat,
    let mask := u32 f enableAt
    let m := s.mult d
    let width := u8 f 1
    let rings := width * (1 + (ringBits mask).length)
    let ty := if role = 0 then tStrip else tBus
    domainAt f 0 = .ok d ∧ 1 ≤ width ∧ width ≤ 16 ∧ classOf s f 2 = .ok cls ∧ (o0 = 3 → fld f 3 1 = 0) ∧ mask ≤ 0xFFF ∧
    ¬ (role ≥ 2 ∧ bit mask 7 = true) ∧ classPermitted s f.desk cls 2 = .ok () ∧ allocatable s d = .ok () ∧
    c = Chan.new role width mask pan 0 ∧ w = maskCharge c m mask ∧ within s f.desk (if role = 0 then 1 else 2) width = .ok () ∧
    within s f.desk 8 w = .ok () ∧ within s f.desk 4 (rings * m) = .ok () ∧
    (role = 0 → s.sieveUsed + width * m ≤ 4096) ∧ (role ≠ 0 → s.busChannels (role == 1) + width ≤ 512) ∧
    (bit mask 5 = true → s.delayUsed + delayTake c m ≤ 1073741824) ∧
    place s d { w := w, rd := (if role = 0 then width else 2 * width) * m, wr := rings * m } = some (core, overs) ∧
    (s.tab ty).pick 1 1 0 (2 ^ 20) = some i ∧
    s₁ = (s.addObj { ty := ty, idx := i, gen := 1, desk := f.desk, cls := cls, dom := d, freeing := false, job := none,
                     staged := 0, charge := w, safe := 0, epoch := s.epoch, kind := .chan { c with core := core } }).useCore core d ∧
    s₁.objAt ty i = some o ∧ allocRings s₁ f.desk cls d width 0 o.handle (if role = 0 then 4 else 6) 0 = .ok (r, s₂) ∧
    (s₂.upd o.handle fun x => x.onChan fun c => { c with outRing := r }).addTapRings o width (ringBits mask) = .ok s₃ ∧
    s₃.addBlock o 2 core (c.width * chargeOf (32 * (if role = 0 then 1 else 2)) m) = .ok s₄ ∧
    (∃ s₅, addPages o c m core mask (maskPages mask) s₄ = .ok s₅ ∧ u = s₅.overCeiling f.desk o.handle core overs ∧
      p = le 4 o.handle ++ le 4 (u.ringHandle r))

end Sys2Proof
end

