-- ==== Sys2Proof/Certificates/Slice0/Obligations.lean ====
section
/-! DEFINITION. The statements for the provers, from the numbered rules of the spec. A Ruzia command "completes" when the frame has
passed steps 1 to 8 of R309 (`Taken`) and its own checks find nothing: it is answered OK or ACCEPTED with its effect in force. -/

open Sys2Proof Sys2Proof.Machine

/-! ## sys and desk -/

/-- `sys.info`, `desk.info` and `desk.ping` answer OK and change nothing, but for the free values drawn (R319, R321, R297). -/
def Obligations.SysDeskReadsComplete : Prop := ∀ (f : CmdFrame) (s : State),
  (Taken opSysInfo f s → exec (.sysInfo f) s = answered opSysInfo f s 0
    (le 2 0x0302 ++ le 2 0x00B0 ++ le 4 s.host.image ++ le 1 s.host.imageSlot ++ le 1 s.red.role.code ++ le 2 s.extId ++
     le 8 s.epoch ++ (s.doms.flatMap fun d => le 1 (if d.st == .stopped then 0xFF else d.rate)) ++
     le 1 (if s.isKeeper then 1 else 0) ++ le 2 s.quarry.p ++ le 2 0 ++ le 4 (536870912 - s.deepUsed) ++
     le 4 (1073741824 - s.delayUsed) ++ le 4 (1610612736 - captureUsed s) ++ le 4 (pkgFree s) ++
     le 4 (wuLimit s - totalCharge s) ++ le 2 (512 - slotsUsed s) ++ le 2 (4096 - s.sieveUsed) ++ le 4 (65536 - s.ringRows) ++
     le 4 (65536 - (s.ofType tRoute).length) ++ le 4 0)) ∧
  (Taken opDeskInfo f s → u16 f 0 ≤ 16 → fld f 2 2 = 0 → exec (.deskInfo f) s = answered opDeskInfo f (quotaBytes s (u16 f 0)).2 0
    (le 4 (s.deskHandle (u16 f 0)) ++ le 1 (s.desk (u16 f 0)).transport.code ++ le 1 (if (s.desk (u16 f 0)).isOpen then 1 else 0) ++
     le 2 0 ++ le 4 (s.desk (u16 f 0)).lease ++ (quotaBytes s (u16 f 0)).1)) ∧
  (Taken opDeskPing f s → exec (.deskPing f) s = answered opDeskPing f s 0 [])

/-- `sys.snapshot` accepts a snapshot of this engine, `sys.restart` sets the restart 10 ms ahead, `sys.image.write` is held until its
data has come (R319, R516, R517, R562). -/
def Obligations.SysChangesComplete : Prop := ∀ (f : CmdFrame) (s : State),
  (∀ l b, Taken opSysSnapshot f s → launchAt s f 0 = .ok l → (l.kind = 0 ∨ l.index s 0 ≤ s.idx 0 + 2 ^ 32) →
    (u8 f 16 = b ∧ b ≤ 1 ∨ u8 f 16 = 0xFF ∧ b = 1 - s.snap.lastBank) → u8 f 17 = 0 → fld f 18 2 = 0 →
    s.snap.busy b = false → (strictFlag f = true → (snapWhen s l 2).2 = false) →
    exec (.sysSnapshot f) s = answered opSysSnapshot f
      ((s.takeSnapshot b (snapWhen s l 2).1 1 0 0).slipEvent f 0x0101 1
        { s := 8 * (snapWhen s l 2).1, tick := false, asked := l.index s 0, slipped := (snapWhen s l 2).2, now := false })
      0 (le 8 (s.snap.seq + 1))) ∧
  (Taken opSysRestart f s → u8 f 0 ≤ 2 → fld f 1 3 = 0 → exec (.sysRestart f) s =
    answered opSysRestart f { s with host := { s.host with restart := some (s.clk.raw + 2500000, u8 f 0) } } 0 []) ∧
  (∀ b, Taken opSysImageWrite f s → (u8 f 0 = 1 ∨ u8 f 0 = 2) → fld f 1 3 = 0 → bulkAt s f 4 0 0xFFFFFFFF = .ok b →
    u8 f 0 ≠ s.host.imageSlot + 1 → s.jobsOf f.desk < 32 →
    exec (.sysImageWrite f) s = answered opSysImageWrite f (s.defer f 0x0103 0 (some b) 0 0) 1 [])

/-- `desk.open` opens a session and `desk.close` closes it; `desk.attach` sets a move that takes effect once every command is
answered; a lease that runs out closes a UDP or Seam session (R295, R296, R297). -/
def Obligations.SessionsComplete : Prop := ∀ (f : CmdFrame) (s : State),
  (∀ q, Taken opDeskOpen f s → (u32 f 4 = 0 ∨ (1000 ≤ u32 f 4 ∧ u32 f 4 ≤ 60000)) → qOf f.payload 8 = some q →
    ((s.desk f.desk).transport = .udp → q ≤ s.q + 2 * secondQ ∧ s.q ≤ q + 2 * secondQ ∧ (s.desk f.desk).lastOpen < q) →
    fld f 22 2 = 0 → ∀ u : State, u = s.setDesk f.desk (fun k =>
      { k with isOpen := true, sessions := (k.sessions + 1) % 64, lease := if u32 f 4 == 0 then 5000 else u32 f 4,
               newest := (u32 f 0 + (2 ^ 32 - 1)) % 2 ^ 32, lastOpen := q, dstAddr := (eventDest f).1, dstPort := (eventDest f).2 }) →
    exec (.deskOpen f) s = answered opDeskOpen f u 0 (le 4 (u.deskHandle f.desk) ++ le 4 (s.desk f.desk).evtSeq)) ∧
  (Taken opDeskClose f s → exec (.deskClose f) s = answered opDeskClose f
    ((s.setDesk f.desk fun k => { k with isOpen := false }).raise0 0x0205 (le 2 f.desk ++ le 2 1)) 0 []) ∧
  (Taken opDeskAttach f s → u16 f 0 ≤ 16 → u8 f 2 ≤ 2 → fld f 3 1 = 0 → (u8 f 2 = 2 ↔ u16 f 4 ≠ 0) → fld f 6 2 = 0 →
    exec (.deskAttach f) s = answered opDeskAttach f
      (s.setDesk (u16 f 0) fun k => { k with move := some (transportOf (u8 f 2), u16 f 4) }) 0 []) ∧
  (∀ d t e, s.serving = true → d ≤ 16 → s.unanswered d = 0 → (s.desk d).move = some (t, e) → exec (.deskAttachEffect d) s =
    .next ((s.closeDesk d 3).setDesk d fun k => { k with transport := t, engine := e, move := none })) ∧
  (∀ d, s.serving = true → d ≤ 16 → (s.desk d).transport ≠ .pcie → (s.desk d).isOpen = true → exec (.leaseExpired d) s =
    .next ((s.setDesk d fun k => { k with isOpen := false }).raise0 0x0205 (le 2 d ++ le 2 2)))

/-- `desk.key.set`, `desk.quota.set` and `desk.defaults.set` set what they name; `desk.event.replay` sends the history from an
EVENT_SEQ on; the next event of a history goes to the desk (R292, R307, R345, R347). -/
def Obligations.DeskSettingsComplete : Prop := ∀ (f : CmdFrame) (s : State),
  (∀ key, Taken opDeskKeySet f s → u16 f 0 ≤ 16 → fld f 2 2 = 0 →
    key = (if (slice f.payload 4 32).all (· == 0) then [] else slice f.payload 4 32) →
    exec (.deskKeySet f) s = answered opDeskKeySet f
      { s.setDesk (u16 f 0) (fun k => { k with key := key }) with
        journal := { s.journal with keys := modAt s.journal.keys (u16 f 0) fun _ => key } } 0 []) ∧
  (∀ rs, Taken opDeskQuotaSet f s → 1 ≤ u16 f 0 → u16 f 0 ≤ 16 → fld f 2 2 = 0 → 1 ≤ u16 f 4 → u16 f 4 ≤ 14 → fld f 6 2 = 0 →
    rs = (List.range (u16 f 4)).map (fun i => (u16 f (8 + 8 * i), u32 f (12 + 8 * i))) →
    (∀ i, i < u16 f 4 → 1 ≤ u16 f (8 + 8 * i) ∧ u16 f (8 + 8 * i) ≤ 10 ∧ fld f (10 + 8 * i) 2 = 0) →
    exec (.deskQuotaSet f) s = answered opDeskQuotaSet f (rs.foldl (fun s r => s.setQuota (u16 f 0) r.1 r.2) s) 0 []) ∧
  (Taken opDeskDefaultsSet f s → u8 f 0 ≤ 3 → (f.desk = 0 ∨ (s.desk f.desk).quota.getD 10 3 ≤ u8 f 0) → u8 f 1 ≤ 1 → u8 f 2 ≤ 2 →
    fld f 3 1 = 0 → u32 f 4 ≤ 96000 → exec (.deskDefaultsSet f) s = answered opDeskDefaultsSet f
      (s.setDesk f.desk fun k => { k with defClass := u8 f 0, defPolicy := u8 f 1, defLaw := u8 f 2, defT := u32 f 4 }) 0 []) ∧
  (∀ b, Taken opDeskEventReplay f s → fld f 4 4 = 0 → bulkAt s f 8 1 131072 = .ok b → s.jobsOf f.desk < 32 →
    exec (.deskEventReplay f) s = answered opDeskEventReplay f (s.deferOut f 0x0208 0 b
      ((((s.desk f.desk).history.filter fun e => (e.seq + 2 ^ 32 - u32 f 0) % 2 ^ 32 < 2 ^ 31).flatMap Event.frame).take b.len)) 1 []) ∧
  (∀ d e, s.serving = true → d ≤ 16 → (s.desk d).transport = .udp → (s.desk d).isOpen = true → (s.desk d).lost = none →
    (s.desk d).undelivered ≠ 0 → (s.desk d).nextEvent = some e → s.red.role = .single → exec (.eventDelivery d) s =
    .next ((s.emit (.datagram (s.desk d).dstAddr (s.desk d).dstPort 3 d e.frame)).setDesk d
      fun k => { k with undelivered := k.undelivered - 1 }))

/-! ## The Ruzia commands, family by family -/

/-- `strip.*` (R123, R131-R133, R303, R315, R318, R319): information and parameter reads change nothing; an allocation whose checks pass, a
parameter change and a free are answered with their effect in force. -/
def Obligations.StripCompletes : Prop := ∀ (f : CmdFrame) (s : State),
  (Taken opStripInfo f s → ∀ o, names s (u32 f 0) [tStrip] o → ∀ c, o.chan? = some c →
    ∀ pages, pages = ((List.range 10).flatMap fun i =>
           match c.blocks.find? fun b => b.1 == i + 2 with
           | some b => le 4 (((s.objAt tBlock b.2).map Obj.handle).getD 0)
           | none => le 4 0) →
    exec (.stripInfo f) s = answered opStripInfo f s 0 (o.prefixBytes s ++ le 1 c.width ++ le 1 (c.role - 1) ++ le 1 (if c.role == 0 then 0 else if c.follows then 1 else 0) ++ le 1 0 ++ le 4 c.enable ++ le 4 (s.ringHandle c.outRing) ++ pages)) ∧
  (Taken opStripFree f s → ∀ o, freeChecks s f [tStrip] = .ok o → anyFree s o = .ok () → ∀ n s₁, ((noBefore o s).startFree o) = (n, s₁) →
    exec (.stripFree f) s = answered opStripFree f s₁ 0 (le 4 n)) ∧
  (Taken opStripParamSet f s → ∀ o, names s (u32 f 0) [tStrip] o → (f.desk = o.desk ∨ f.desk = 0) → u16 f 30 == 0xFFFF →
    ∀ b, bulkAt s f 32 0 32768 = .ok b → (b.len % 8 == 0 && 1 ≤ b.len) → ∀ y, timing3 f = .ok y → ∀ y, launchAt s f 4 = .ok y → open' o →
    s.jobsOf f.desk < 32 → exec (.stripParamSet f) s = answered opStripParamSet f (s.defer f 0x0303 o.handle (some b) 0 0) 1 []) ∧
  (Taken opStripParamSet f s → ∀ o, names s (u32 f 0) [tStrip] o → (f.desk = o.desk ∨ f.desk = 0) → ¬ (u16 f 30 == 0xFFFF) →
    (1 ≤ u16 f 30 && u16 f 30 ≤ 26) → ∀ recs, eachItem (recordAt f) (u16 f 30) 0 = .ok recs → ∀ w s', chanWrite s f o recs = .ok (w, s') →
    (s'.jobs.length > s.jobs.length) → exec (.stripParamSet f) s = answered opStripParamSet f s' 1 (le 8 w.index)) ∧
  (Taken opStripParamSet f s → ∀ o, names s (u32 f 0) [tStrip] o → (f.desk = o.desk ∨ f.desk = 0) → ¬ (u16 f 30 == 0xFFFF) →
    (1 ≤ u16 f 30 && u16 f 30 ≤ 26) → ∀ recs, eachItem (recordAt f) (u16 f 30) 0 = .ok recs → ∀ w s', chanWrite s f o recs = .ok (w, s') →
    ¬ ((s'.jobs.length > s.jobs.length)) → exec (.stripParamSet f) s = answered opStripParamSet f s' 0 (le 8 w.index)) ∧
  (Taken opStripParamGet f s → ∀ o, names s (u32 f 0) [tStrip] o → (1 ≤ u16 f 4 && u16 f 4 ≤ 19) → fld f 6 2 = 0 →
    ∀ ids, (eachItem (fun i => do
      let id := u16 f (8 + 2 * i)
      if (chanGetSpec s o id).isNone then .error { status := eRange, field := 8 + 2 * i, item := i, handle := o.handle } else .ok id)
      (u16 f 4) 0) = .ok ids →
    ∀ bs s₁, (ids.foldl (fun (p : List Byte × State) id =>
      match chanGetSpec p.2 o id with
      | none => p
      | some q =>
        let (u, s) := chanUse p.2 o id q
        (p.1 ++ le 2 id ++ le 2 0 ++ le 4 (valOf o.params.vals id q.dflt q.mode).written ++ le 4 u, s)) ([], s)) = (bs, s₁) →
    exec (.stripParamGet f) s = answered opStripParamGet f s₁ 0 (le 2 (u16 f 4) ++ le 2 0 ++ bs))

/-- `bus.*` (R124, R131-R133, R155-R157, R318). -/
def Obligations.BusCompletes : Prop := ∀ (f : CmdFrame) (s : State),
  (Taken opBusInfo f s → ∀ o, names s (u32 f 0) [tBus] o → ∀ c, o.chan? = some c →
    ∀ pages, pages = ((List.range 10).flatMap fun i =>
           match c.blocks.find? fun b => b.1 == i + 2 with
           | some b => le 4 (((s.objAt tBlock b.2).map Obj.handle).getD 0)
           | none => le 4 0) →
    exec (.busInfo f) s = answered opBusInfo f s 0 (o.prefixBytes s ++ le 1 c.width ++ le 1 (c.role - 1) ++ le 1 (if c.role == 0 then 0 else if c.follows then 1 else 0) ++ le 1 0 ++ le 4 c.enable ++ le 4 (s.ringHandle c.outRing) ++ pages)) ∧
  (Taken opBusFree f s → ∀ o, freeChecks s f [tBus] = .ok o → anyFree s o = .ok () → ∀ n s₁, ((noBefore o s).startFree o) = (n, s₁) →
    exec (.busFree f) s = answered opBusFree f s₁ 0 (le 4 n)) ∧
  (Taken opBusParamSet f s → ∀ o, names s (u32 f 0) [tBus] o → (f.desk = o.desk ∨ f.desk = 0) → u16 f 30 == 0xFFFF →
    ∀ b, bulkAt s f 32 0 32768 = .ok b → (b.len % 8 == 0 && 1 ≤ b.len) → ∀ y, timing3 f = .ok y → ∀ y, launchAt s f 4 = .ok y → open' o →
    s.jobsOf f.desk < 32 → exec (.busParamSet f) s = answered opBusParamSet f (s.defer f 0x0403 o.handle (some b) 0 0) 1 []) ∧
  (Taken opBusParamSet f s → ∀ o, names s (u32 f 0) [tBus] o → (f.desk = o.desk ∨ f.desk = 0) → ¬ (u16 f 30 == 0xFFFF) →
    (1 ≤ u16 f 30 && u16 f 30 ≤ 26) → ∀ recs, eachItem (recordAt f) (u16 f 30) 0 = .ok recs → ∀ w s', chanWrite s f o recs = .ok (w, s') →
    (s'.jobs.length > s.jobs.length) → exec (.busParamSet f) s = answered opBusParamSet f s' 1 (le 8 w.index)) ∧
  (Taken opBusParamSet f s → ∀ o, names s (u32 f 0) [tBus] o → (f.desk = o.desk ∨ f.desk = 0) → ¬ (u16 f 30 == 0xFFFF) →
    (1 ≤ u16 f 30 && u16 f 30 ≤ 26) → ∀ recs, eachItem (recordAt f) (u16 f 30) 0 = .ok recs → ∀ w s', chanWrite s f o recs = .ok (w, s') →
    ¬ ((s'.jobs.length > s.jobs.length)) → exec (.busParamSet f) s = answered opBusParamSet f s' 0 (le 8 w.index)) ∧
  (Taken opBusParamGet f s → ∀ o, names s (u32 f 0) [tBus] o → (1 ≤ u16 f 4 && u16 f 4 ≤ 19) → fld f 6 2 = 0 →
    ∀ ids, (eachItem (fun i => do
      let id := u16 f (8 + 2 * i)
      if (chanGetSpec s o id).isNone then .error { status := eRange, field := 8 + 2 * i, item := i, handle := o.handle } else .ok id)
      (u16 f 4) 0) = .ok ids →
    ∀ bs s₁, (ids.foldl (fun (p : List Byte × State) id =>
      match chanGetSpec p.2 o id with
      | none => p
      | some q =>
        let (u, s) := chanUse p.2 o id q
        (p.1 ++ le 2 id ++ le 2 0 ++ le 4 (valOf o.params.vals id q.dflt q.mode).written ++ le 4 u, s)) ([], s)) = (bs, s₁) →
    exec (.busParamGet f) s = answered opBusParamGet f s₁ 0 (le 2 (u16 f 4) ++ le 2 0 ++ bs)) ∧
  (Taken opBusAttrSet f s → ∀ o, names s (u32 f 0) [tBus] o → (f.desk = o.desk ∨ f.desk = 0) → (u8 f 4 ≤ 1 || u8 f 4 == 0xFF) →
    fld f 5 3 = 0 → open' o → exec (.busAttrSet f) s = answered opBusAttrSet f (s.setAttrs o fun v => (u8 f 4, v.2)) 0 []) ∧
  (Taken opBusLayout f s → ∀ o, names s (u32 f 0) [tBus] o → (f.desk = o.desk ∨ f.desk = 0) →
    ∀ ps, (eachItem (fun i => do
      let a := u16 f (4 + 4 * i)
      let e := u16 f (6 + 4 * i)
      need (-18000 ≤ s16 a && s16 a ≤ 18000) eRange (4 + 4 * i)
      need (e ≤ 9000) eRange (6 + 4 * i)
      .ok (a, e)) 16 0) = .ok ps → open' o → ((o.chan?.map (·.width)).getD 0 == 16) →
    exec (.busLayout f) s = answered opBusLayout f (s.setAttrs o fun v => (v.1, ps)) 0 []) ∧
  (Taken opBusAlloc f s → (u8 f 3 ≤ 2) → (u8 f 8 ≤ 1 || u8 f 8 == 0xFF) → fld f 9 3 = 0 →
    ∀ u ans, allocChan 0x0401 (u8 f 3 + 1) 0 4 (u8 f 8) s f = .ok (u, ans) →
    exec (.busAlloc f) s = answered opBusAlloc f u ans.status ans.payload)

/-- `node.*` (R167-R171, R178, R182, R183). -/
def Obligations.NodeCompletes : Prop := ∀ (f : CmdFrame) (s : State),
  (Taken opNodeTilesInfo f s → ∀ o, names s (u32 f 0) [tBlock] o → ∀ t, o.tiles? = some t →
    ∀ mask, mask = ((t.tiles.map fun a => s.faults.arrayMap.getD a a).foldl setBit 0) →
    exec (.nodeTilesInfo f) s = answered opNodeTilesInfo f s 0 (o.prefixBytes s ++ le 1 t.tier ++ le 1 0 ++ le 2 t.rows ++ le 2 t.cols ++ le 2 0 ++ le 4 (s.ringHandle t.firstRing) ++ le 4 mask ++ le 8 (s.ctr (ctrTiles o.idx)))) ∧
  (Taken opNodeTilesAlloc f s → ∀ feeds0, feedSinks s f (max 1 (u8 f 1)) = .ok feeds0 → ∀ d, domainAt f 0 = .ok d →
    (u8 f 1 == 1 || u8 f 1 == 2) → ∀ cls, classOf s f 2 = .ok cls → (u8 f 3 ≤ 58) → ∀ rows, rows = (u16 f 4) → ∀ cols, cols = (u16 f 6) →
    (rows % 64 == 0 && 64 ≤ rows && rows ≤ 4096) → (cols % 64 == 0 && 64 ≤ cols && cols ≤ 1024) → (feeds0.length ≤ cols) →
    feeds0.forM (feedOpen s d) = .ok () → classPermitted s f.desk cls 2 = .ok () → allocatable s d = .ok () →
    ∀ i s₁, newTiles s f.desk cls d (u8 f 1) rows cols = .ok (i, s₁) → ∀ o, s₁.objAt tBlock i = some o →
    ∀ first, first = ((o.tiles?.map (·.firstRing)).getD 0) → ∀ s₂, addFeeds f cls d first (s₁.maxMult d) feeds0 0 s₁ = .ok s₂ →
    acyclic s₂ = .ok () → exec (.nodeTilesAlloc f) s = answered opNodeTilesAlloc f s₂ 0 (le 4 o.handle ++ le 4 (s₂.ringHandle first))) ∧
  (Taken opNodeTilesFree f s → ∀ o, freeChecks s f [tBlock] = .ok o → tilesOnly s o = .ok () →
    ∀ n s₁, ((noBefore o s).startFree o) = (n, s₁) → exec (.nodeTilesFree f) s = answered opNodeTilesFree f s₁ 0 (le 4 n)) ∧
  (Taken opNodeTilesDefault f s → (s.mult 0 == 1) → ∀ cls, cls = (s.desk f.desk).defClass → allocatable s 0 = .ok () → (slotsUsed s == 0) →
    ∀ i s₁, newTiles s f.desk cls 0 1 3584 512 = .ok (i, s₁) → ∀ j s₂, newTiles s₁ f.desk cls 0 2 512 512 = .ok (j, s₂) →
    exec (.nodeTilesDefault f) s = answered opNodeTilesDefault f s₂ 0 (le 4 (((s₂.objAt tBlock i).map Obj.handle).getD 0) ++ le 4 (((s₂.objAt tBlock j).map Obj.handle).getD 0))) ∧
  (Taken opNodeSet f s → ∀ o, names s (u32 f 0) [tBlock] o → ∀ t, o.tiles? = some t → (f.desk = o.desk ∨ f.desk = 0) → ∀ n, n = (u16 f 24) →
    (1 ≤ n) → fld f 26 2 = 0 → (u32 f 20 ≤ 65535) →
    ∀ recs, recs = ((List.range n).map fun i => (u16 f (28 + 8 * i), u16 f (30 + 8 * i), u32 f (32 + 8 * i))) →
    nodeRecordsOk t 28 0 recs = .ok () → ∀ l, launchAt s f 4 = .ok l → open' o → ∀ w s₁, applyNodes s o f l (u32 f 20) recs = .ok (w, s₁) →
    exec (.nodeSet f) s = answered opNodeSet f (s₁.slipEvent f 0x0504 1 w) 0 (le 8 w.index)) ∧
  (Taken opNodeBulk f s → ∀ o, names s (u32 f 0) [tBlock] o → (o.tiles?.isSome) → (f.desk = o.desk ∨ f.desk = 0) → (1 ≤ u32 f 24) →
    (u32 f 20 ≤ 65535) → ∀ b, bulkAt s f 28 0 1048576 = .ok b → ∀ y, launchAt s f 4 = .ok y → (b.len == 8 * u32 f 24) → open' o →
    s.jobsOf f.desk < 32 → exec (.nodeBulk f) s = answered opNodeBulk f (s.defer f 0x0505 o.handle (some b) 0 0) 1 []) ∧
  (Taken opNodeGet f s → ∀ o, names s (u32 f 0) [tBlock] o → ∀ t, o.tiles? = some t → ∀ n, n = (u16 f 4) → (1 ≤ n && n ≤ 14) →
    fld f 6 2 = 0 →
    ∀ bs, (eachItem (fun i => atItem i do
      let r := u16 f (8 + 4 * i)
      let c := u16 f (10 + 4 * i)
      need (r < t.rows) eRange (8 + 4 * i)
      need (c < t.cols) eRange (10 + 4 * i)
      let x := (t.node r c).getD (Node.fresh r c 0)
      .ok (le 2 r ++ le 2 c ++ le 4 x.gain ++ leWord x.ramp.gainEnd ++ leWord x.ramp.value)) n 0) = .ok bs →
    exec (.nodeGet f) s = answered opNodeGet f s 0 (le 2 n ++ le 2 0 ++ bs.flatten))

/-- `group.*` (R184-R186). -/
def Obligations.GroupCompletes : Prop := ∀ (f : CmdFrame) (s : State),
  (Taken opGroupInfo f s → ∀ o, names s (u32 f 0) [tGroup] o → ∀ g, o.group? = some g →
    exec (.groupInfo f) s = answered opGroupInfo f s 0 (o.prefixBytes s ++ le 4 g.offset ++ le 4 g.t ++ le 4 g.accepted.length)) ∧
  (Taken opGroupAlloc f s → ∀ cls, classOf s f 0 = .ok cls → fld f 1 3 = 0 → classPermitted s f.desk cls 0 = .ok () →
    ∀ i, (s.tab tGroup).pick 1 1 0 256 = some i →
    ∀ s₁, s₁ = (s.addObj { ty := tGroup, idx := i, gen := 1, desk := f.desk, cls := cls, dom := 3, freeing := false, job := none,
                                 staged := 0, charge := 0, safe := 0, epoch := s.epoch,
                                 kind := .group { offset := 0, offsetUse := [0, 0, 0], t := 480, members := [], pend := [] } }) →
    exec (.groupAlloc f) s = answered opGroupAlloc f s₁ 0 (le 4 (((s₁.objAt tGroup i).map Obj.handle).getD 0))) ∧
  (Taken opGroupFree f s → ∀ o, freeChecks s f [tGroup] = .ok o → ∀ n, n = ((o.group?.map (·.pend.length)).getD 0) →
    ∀ t, t = ((o.group?.map (·.t)).getD 0) →
    ∀ s₁, s₁ = (s.upd o.handle fun x => { (x.onGroup fun g => { g with pend := [] }) with freeing := true }) →
    ∀ bs, bs = (boundaries s₁ { kind := 0, dom := 0, val := 0 } ((List.range 3).filter fun d => (s₁.dom d).runs) 0) →
    exec (.groupFree f) s = answered opGroupFree f (queueGroup s₁ o.handle 0 t (some (0, 0, 0, false)) bs 0).finishFrees 0 (le 4 n)) ∧
  (Taken opGroupSet f s → ∀ o, names s (u32 f 0) [tGroup] o → (f.desk = o.desk ∨ f.desk = 0) → ∀ g, o.group? = some g → (gainOk (u32 f 4)) →
    (u32 f 8 ≤ 65535) → ∀ l, launchAt s f 12 = .ok l → open' o → ∀ bs w, groupWhen s f l (g.doms s) = .ok (bs, w) →
    ∀ s₁, s₁ = (s.upd o.handle fun x => x.onGroup fun g => { g with offset := u32 f 4, t := u32 f 8 }) →
    exec (.groupSet f) s = answered opGroupSet f ((queueGroup s₁ o.handle (u32 f 4) (u32 f 8) none bs 0).slipEvent f 0x0603 1 w) 0 (le 8 w.index)) ∧
  (Taken opGroupMemberSet f s → ∀ o, names s (u32 f 0) [tGroup] o → ∀ k, names s (u32 f 4) [tBlock] k →
    ∀ g t, o.group? = some g → k.tiles? = some t → (f.desk = o.desk ∨ f.desk = 0) → (f.desk = k.desk ∨ f.desk = 0) →
    ∀ first, first = (u16 f 8) → ∀ n, n = (u16 f 10) → (first < t.rows) → (1 ≤ n && n ≤ 4096 && first + n ≤ t.rows) → (u8 f 12 ≤ 1) →
    fld f 13 3 = 0 → (u32 f 16 ≤ 65535) → ∀ l, launchAt s f 20 = .ok l → open' o → open' k →
    (u8 f 12 == 0 || (List.range n).all fun i => g.accepted.contains (k.handle, first + i) ||
      rowGroups s k.handle (first + i) < 4) → ∀ bs w, groupWhen s f l [k.dom] = .ok (bs, w) →
    exec (.groupMemberSet f) s = answered opGroupMemberSet f ((queueGroup s o.handle 0 (u32 f 16) (some (k.handle, first, n, u8 f 12 == 1)) bs 0).slipEvent f 0x0604 1 w) 0 (le 8 w.index))

/-- `ring.*` (R55-R71, R324). -/
def Obligations.RingCompletes : Prop := ∀ (f : CmdFrame) (s : State),
  (Taken opRingInfo f s → ∀ o, names s (u32 f 0) [tRing] o → ∀ r, o.ring? = some r →
    exec (.ringInfo f) s = answered opRingInfo f s 0 (o.prefixBytes s ++ le 1 r.mult ++ le 1 r.writerKind ++ le 2 0 ++ le 4 r.depth ++ le 4 (s.readers o.handle).length ++ le 4 r.writer ++ le 8 (s.ctr (ctrRing o.idx 0)) ++ le 8 (s.ctr (ctrRing o.idx 1)) ++ le 8 (s.ctr (ctrRing o.idx 2)) ++ r.rows.flatMap fun p => le 1 p.1 ++ le 1 0 ++ le 2 p.2)) ∧
  (Taken opRingAlloc f s → ∀ d, domainAt f 0 = .ok d → ∀ c, classOf s f 1 = .ok c → ∀ n, n = (u16 f 2) → (1 ≤ n && n ≤ 64) →
    ∀ m, m = (s.mult d) → ∀ depth, depth = (u32 f 4) → (depth == 0 || deepDepth m depth) → classPermitted s f.desk c 1 = .ok () →
    allocatable s d = .ok () → within s f.desk 4 (n * m) = .ok () → (depth != 0 → within s f.desk 5 (n * m) = .ok ()) →
    (depth != 0 → (s.deepRows + n * m ≤ 4096 && s.deepUsed + n * depth ≤ 536870912)) →
    ∀ i s₁, allocRings s f.desk c d n depth 0 0 0 = .ok (i, s₁) →
    exec (.ringAlloc f) s = answered opRingAlloc f s₁ 0 (le 4 (s₁.ringHandle i))) ∧
  (Taken opRingFree f s → ∀ o, freeChecks s f [tRing] = .ok o → ringFreeOk s o = .ok () →
    ∀ n s₁, (((fun _ s => s) o s).startFree o) = (n, s₁) → exec (.ringFree f) s = answered opRingFree f s₁ 0 (le 4 n)) ∧
  (Taken opRingDeep f s → ∀ o, names s (u32 f 0) [tRing] o → (f.desk = o.desk ∨ f.desk = 0) → ∀ r, o.ring? = some r → ∀ d, d = (u32 f 4) →
    (d == 0 || deepDepth r.mult d) → ∀ d₁, d₁ = (if d == 0 then 64 * r.mult else d) →
    ∀ r', r' = { r with newDepth := some (nextBoundary s o.dom, d₁) } →
    (!((s.readers o.handle).any fun p =>
      p.2.source == o.handle && p.2.offset > oMax s r' ||
      p.2.waiting.any fun c => let q := p.2.readingAt c.s; q.1 == o.handle && q.2 > oMax s r')) →
    (!(r.writerKind == 2 && s.quarry.p > 8 && !r'.deepDue)) → open' o →
    (r'.deepDue → within s o.desk 5 (if r.deepDue then 0 else r.mult) = .ok ()) →
    ∀ rows, rows = s.deepRows - (if r.deepDue then r.mult else 0) + r.mult →
    ∀ used, used = s.deepUsed - (if r.deepDue then r.depthDue else 0) + d₁ → (r'.deepDue → (rows ≤ 4096 && used ≤ 536870912)) →
    ∀ s₁, s₁ = ((s.upd o.handle fun x => x.onRing fun _ => r').turnRings o.dom 0) →
    exec (.ringDeep f) s = answered opRingDeep f (s₁.clearQuota o.desk) 0 [])

/-- `route.*` (R72-R85, R325, R326). -/
def Obligations.RouteCompletes : Prop := ∀ (f : CmdFrame) (s : State),
  (Taken opRouteInfo f s → ∀ o, names s (u32 f 0) [tRoute] o → ∀ r, o.route? = some r →
    exec (.routeInfo f) s = answered opRouteInfo f s 0 (o.prefixBytes s ++ le 1 r.kind ++ le 1 0 ++ le 2 r.sub ++ le 4 r.sink ++ le 4 r.source ++ le 4 r.offset ++ le 1 r.policy ++ le 1 r.law ++ le 1 (min 4 r.waiting.length) ++ le 1 (if r.kerf.isSome then 1 else 0) ++ le 4 r.t)) ∧
  (Taken opRouteCreate f s → ∀ kind, kind = (u8 f 0) → ∀ sub, sub = (u16 f 2) → ∀ h, h = (u32 f 4) → ∀ src, src = (u32 f 8) →
    ∀ off, off = (u32 f 12) → ∀ k, sinkOf s kind sub h 0 = .ok k → (src != 0 → ∃ y, names s src [tRing] y) →
    (f.desk == k.desk || f.desk == 0) → fld f 1 1 = 0 → k.fit = true → ∀ dd, dd = (s.desk f.desk) → (u8 f 16 ≤ 1 || u8 f 16 == 0xFF) →
    ∀ policy, policy = (override (u8 f 16) 0xFF dd.defPolicy) → ∀ law, lawAt f 17 dd.defLaw = .ok law → ∀ cls, classOf s f 18 = .ok cls →
    fld f 19 1 = 0 → ∀ t, tAt f 20 96000 dd.defT = .ok t → (off ≤ offsetLimit s src) → ∀ l, launchAt s f 24 = .ok l →
    sourceOk s kind src k.dom k.mult 8 = .ok () → (!k.freeing && !k.closed) → ((s.routeTo kind sub h).isNone) →
    ∀ r, r = (Route.new kind sub h policy law t) →
    noFeedLoop (s.addRoute k.desk cls k.dom { r with source := src, offset := off }) 8 = .ok () → classPermitted s f.desk cls 18 = .ok () →
    (cls ≥ k.cls) →
    ∀ o : Obj, o = { ty := tRoute, idx := 0, gen := 1, desk := k.desk, cls := cls, dom := k.dom, freeing := false, job := none,
                            staged := 0, charge := 0, safe := 0, epoch := s.epoch, kind := .route r } →
    ∀ w, schedule s l k.dom 0 false 24 = .ok w → (policy == 1 && t > 0 && !w.now → kerfAllowed s o r w.s t = .ok ()) →
    within s k.desk 6 1 = .ok () → ∀ s₁, admitReading s (src, off) = .ok s₁ → ∀ i s₂, s₁.addRoute k.desk cls k.dom r = .ok (i, s₂) →
    ∀ n s₃, (s₂.stamp) = (n, s₃) →
    ∀ c : RChange, c = { order := n, desk := f.desk, seq := f.seq, s := w.s, src := some src, off := some off, cut := policy == 0,
                                t := t, law := law, recallOf := 0 } → ∀ s₄, s₄ = (if w.now then s₃.applyRoute i c else s₃.changeRoute i c) →
    lateCheck f w = .ok () → ∀ s₅, s₅ = (s₄.slipEvent f 0x0801 1 w) →
    exec (.routeCreate f) s = answered opRouteCreate f s₅ 0 (le 4 (((s₅.objAt tRoute i).map Obj.handle).getD 0) ++ le 8 w.index)) ∧
  (Taken opRouteDelete f s → ∀ o, names s (u32 f 0) [tRoute] o → (f.desk = o.desk ∨ f.desk = 0) → open' o → (o.staged == 0) →
    exec (.routeDelete f) s = answered opRouteDelete f (s.deleteRoute o.idx false none).finishFrees 0 []) ∧
  (Taken opRouteCut f s → ∀ n, n = (u16 f 16) → (1 ≤ n && n ≤ 11) → fld f 18 2 = 0 → ∀ l, launchAt s f 0 = .ok l →
    ∀ qs, eachItem (routeRecord 0 s f l) n 0 = .ok qs → routeListOk s qs = .ok () →
    (qs.zipIdx.forM fun q => routeRecordBusy s q.2 q.1) = .ok () → ∀ s₁, routeApply 0x0803 f qs s = .ok s₁ →
    (qs.forM fun q => lateCheck f q.when_) = .ok () →
    exec (.routeCut f) s = answered opRouteCut f s₁ 0 (qs.flatMap fun q => le 8 q.when_.index)) ∧
  (Taken opRouteKerf f s → ∀ n, n = (u16 f 16) → (1 ≤ n && n ≤ 11) → fld f 18 2 = 0 → ∀ l, launchAt s f 0 = .ok l →
    ∀ qs, eachItem (routeRecord 1 s f l) n 0 = .ok qs → routeListOk s qs = .ok () →
    (qs.zipIdx.forM fun q => routeRecordBusy s q.2 q.1) = .ok () → ∀ s₁, routeApply 0x0804 f qs s = .ok s₁ →
    (qs.forM fun q => lateCheck f q.when_) = .ok () →
    exec (.routeKerf f) s = answered opRouteKerf f s₁ 0 (qs.flatMap fun q => le 8 q.when_.index)) ∧
  (Taken opRouteSet f s → ∀ n, n = (u16 f 16) → (1 ≤ n && n ≤ 11) → fld f 18 2 = 0 → ∀ l, launchAt s f 0 = .ok l →
    ∀ qs, eachItem (routeRecord 2 s f l) n 0 = .ok qs → routeListOk s qs = .ok () →
    (qs.zipIdx.forM fun q => routeRecordBusy s q.2 q.1) = .ok () → ∀ s₁, routeApply 0x0805 f qs s = .ok s₁ →
    (qs.forM fun q => lateCheck f q.when_) = .ok () →
    exec (.routeSet f) s = answered opRouteSet f s₁ 0 (qs.flatMap fun q => le 8 q.when_.index)) ∧
  (Taken opRoutePolicy f s → ∀ o, names s (u32 f 0) [tRoute] o → (f.desk = o.desk ∨ f.desk = 0) → ∀ r, o.route? = some r →
    (u8 f 4 ≤ 1 || u8 f 4 == 0xFF) → ∀ p, p = (override (u8 f 4) 0xFF r.policy) → ∀ law, lawAt f 5 r.law = .ok law → fld f 6 2 = 0 →
    ∀ t, tAt f 8 96000 r.t = .ok t → open' o →
    exec (.routePolicy f) s = answered opRoutePolicy f (s.upd o.handle fun x => x.onRoute fun r => if (s.dom o.dom).st == .stopped then { r with policy := p, law := law, t := t } else { r with next := some (p, law, t) }) 0 [])

/-- `port.*` of the digital ports (R327, R328, R414-R424). -/
def Obligations.PortCompletes : Prop := ∀ (f : CmdFrame) (s : State),
  (Taken opPortInfo f s → ∀ p, resolvePort s (u32 f 0) 0 = .ok p → ∀ cfg link cs, (portFields s p) = (cfg, link, cs) →
    ∀ d, d = (if p < 128 && (s.port p).configured then (s.port p).dom else 0xFF) →
    exec (.portInfo f) s = answered opPortInfo f s 0 (le 4 (portHandle p) ++ le 1 (portOwner s p) ++ le 1 0xFF ++ le 1 d ++ le 1 0 ++ le 4 0 ++ le 4 0 ++ cfg ++ le 1 link ++ le 3 0 ++ cs)) ∧
  (Taken opPortAssign f s → ∀ p, resolvePort s (u32 f 0) 0 = .ok p → (p != 512 && p != 513) → (u16 f 4 ≤ 16) → fld f 6 2 = 0 →
    (!(portBusy s p)) → exec (.portAssign f) s = answered opPortAssign f (setOwner s p (u16 f 4)) 0 []) ∧
  (Taken opPortTdmConfig f s → ∀ p, tdmPort s (u32 f 0) 0 = .ok p → (f.desk = (s.port p).owner ∨ f.desk = 0) → (u8 f 4 ≤ 1) → (u8 f 5 ≤ 2) →
    (1 ≤ u8 f 6 && u8 f 6 ≤ 32 && (u8 f 5 == 0 || u8 f 6 == 2)) → (tdmWidth (u8 f 7)) → (tdmWidth (u8 f 8) && u8 f 8 ≤ u8 f 7) →
    (u8 f 9 ≤ 7) → (u8 f 10 ≤ 2 && u8 f 10 + u8 f 8 ≤ u8 f 7) → (u8 f 11 ≤ 2) → (u16 f 12 ≤ 511) →
    (u8 f 16 ≤ 15 && (!(bit (u8 f 16) 3) || u8 f 8 == 32)) → fld f 17 3 = 0 → (bankOk s p) → (!(portBusy s p)) →
    exec (.portTdmConfig f) s = answered opPortTdmConfig f (s.setPort p fun t => { t with config := slice f.payload 0 20, dir := u8 f 4, slots := u8 f 6, slotBits := u8 f 7, dataBits := u8 f 8, edges := u8 f 9, guard := u8 f 10, dom := u8 f 11, offset := u16 f 12, suspectN := u16 f 14, flags := u8 f 16, configured := true, paired := false, queue := [], out := [], tails := [], ages := [], slipDue := [], slipTick := none, lastSlipEvent := none, slipSinceCentre := false, suspect := [], muted := [], muteRamps := [], encroach := [], tristated := false, valid := 0, lost := s.host.bankLost.contains (p / 16), fade := GainRec.unity, ditherNext := none, dither := (ditherSet t.dither t.ditherNext).map fun d => if d > u8 f 8 then 0 else d }) 0 []) ∧
  (Taken opPortSlotBind f s → ∀ p, tdmPort s (u32 f 0) 0 = .ok p → ∀ t, t = (s.port p) → (u32 f 8 != 0 → ∃ y, names s (u32 f 8) [tRing] y) →
    (f.desk = t.owner ∨ f.desk = 0) → ∀ a, a = (u8 f 4) → ∀ n, n = (u8 f 5) → (a < t.slots) → (1 ≤ n && a + n ≤ t.slots) → fld f 6 2 = 0 →
    (t.configured && t.dir == 0) → ∀ mine, mine = (t.binds.filter fun b => a ≤ b.1 && b.1 < a + n) → u32 f 8 == 0 →
    ∀ s₁, s₁ = (mine.foldl (fun s b => s.unbindWriter b.2) s) →
    exec (.portSlotBind f) s = answered opPortSlotBind f (s₁.setPort p fun t => { t with binds := t.binds.filter fun b => !(a ≤ b.1 && b.1 < a + n) }) 0 []) ∧
  (Taken opPortSlotBind f s → ∀ p, tdmPort s (u32 f 0) 0 = .ok p → ∀ t, t = (s.port p) → (u32 f 8 != 0 → ∃ y, names s (u32 f 8) [tRing] y) →
    (f.desk = t.owner ∨ f.desk = 0) → ∀ a, a = (u8 f 4) → ∀ n, n = (u8 f 5) → (a < t.slots) → (1 ≤ n && a + n ≤ t.slots) → fld f 6 2 = 0 →
    (t.configured && t.dir == 0) → ∀ mine, mine = (t.binds.filter fun b => a ≤ b.1 && b.1 < a + n) → ¬ (u32 f 8 == 0) →
    ∀ rs, bindRings s f (u32 f 8) n 8 fun o r => o.dom == t.dom && r.mult == s.mult t.dom = .ok rs → mine.isEmpty = true →
    ∀ s₁, State.bindWriters (portHandle p) 1 rs a s = .ok s₁ →
    exec (.portSlotBind f) s = answered opPortSlotBind f (s₁.setPort p fun t => { t with binds := t.binds ++ rs.zipIdx.map fun r => (a + r.2, r.1) }) 0 []) ∧
  (Taken opPortQuadMode f s → ∀ q, q = (u8 f 0) → ∀ m, m = (u8 f 1) → (q ≤ 7) → (m ≤ 4) → fld f 2 2 = 0 → (!(quadBusy s q)) →
    (m != 0 || s.mult 0 == 1) → ∀ clear : (Lane → Lane), clear = (fun l => { Lane.reset with owner := l.owner }) →
    ∀ s₁, s₁ = ((quadLanes q).foldl (fun s l => s.setLane l clear) s) →
    ∀ s₂, s₂ = ((quadLanes q).foldl (fun (s₁ : State) l => { s₁ with eth := modAt s₁.eth l fun e => { e with link := false, speed := 0, arp := [], members := [] } }) s₁) →
    exec (.portQuadMode f) s = answered opPortQuadMode f { s₂ with quadModes := modAt s₂.quadModes q fun _ => m, journal := { s₂.journal with quadModes := modAt s₂.journal.quadModes q fun _ => m } } 0 [])

/-- `port.*` of the field inputs and outputs (R425-R433). -/
def Obligations.FieldPortCompletes : Prop := ∀ (f : CmdFrame) (s : State),
  (Taken opPortGpiBind f s → ∀ g, gpiPort s (u32 f 0) = .ok g → ∀ owner, owner = (s.gpi.getD g Gpi.reset).owner → ∀ fn, fn = (u8 f 4) →
    ∀ target, target = (u32 f 8) → ∀ recallOf, recallOf = (fn == 6 && hType target != tScene) →
    (fn != 0 && fn ≤ 6 && fn != 4 && !recallOf → ∃ o, names s target (functionTypes fn) o ∧ (f.desk = owner ∨ f.desk = 0) ∧ (o.desk == owner || o.desk == 0)) →
    (recallOf → (s.isKeeper && s.arms.any fun a => a.id == target)) → (recallOf → (f.desk == 0)) → (f.desk = owner ∨ f.desk = 0) → (fn ≤ 6) →
    (u8 f 6 ≤ 1) → fld f 7 1 = 0 → (fn != 0 || target == 0) → (fn != 4) →
    exec (.portGpiBind f) s = answered opPortGpiBind f { s with gpi := modAt s.gpi g fun x => { x with config := slice f.payload 0 12, function := fn, debounce := u8 f 5, edge := u8 f 6, target := target } } 0 []) ∧
  (Taken opPortGpoBind f s → ∀ g, gpoPort s (u32 f 0) = .ok g → ∀ fn, fn = (u8 f 4) →
    (1 ≤ fn && fn ≤ 4 → ∃ y, names s (u32 f 8) (functionTypes fn) y) → (f.desk = (s.gpo.getD g Gpo.reset).owner ∨ f.desk = 0) → (fn ≤ 6) →
    fld f 5 3 = 0 → (fn != 0 || u32 f 8 == 0) → (fn ≤ 4) →
    exec (.portGpoBind f) s = answered opPortGpoBind f { s with gpo := modAt s.gpo g fun x => { x with config := slice f.payload 0 12, function := fn, source := u32 f 8 } } 0 []) ∧
  (Taken opPortGpoSet f s → ∀ g, gpoPort s (u32 f 0) = .ok g → ∀ x, x = (s.gpo.getD g Gpo.reset) → (f.desk = x.owner ∨ f.desk = 0) →
    (u8 f 4 ≤ 1) → fld f 5 3 = 0 → (x.function == 0) →
    exec (.portGpoSet f) s = answered opPortGpoSet f { s with gpo := modAt s.gpo g fun x => { x with want := u8 f 4 == 1 } } 0 []) ∧
  (Taken opPortGpoClear f s → ∀ g, gpoPort s (u32 f 0) = .ok g → (f.desk = (s.gpo.getD g Gpo.reset).owner ∨ f.desk = 0) →
    exec (.portGpoClear f) s = answered opPortGpoClear f { s with gpo := modAt s.gpo g fun x => { x with latched := false, trip := 0 } } 0 [])

/-- `stream.*` (R330, R393-R402). -/
def Obligations.StreamCompletes : Prop := ∀ (f : CmdFrame) (s : State),
  (Taken opStreamInfo f s → ∀ o, names s (u32 f 0) [tStream] o → ∀ st, o.stream? = some st →
    exec (.streamInfo f) s = answered opStreamInfo f s 0 (o.prefixBytes s ++ st.payload o.dom o.cls ++ counters s (ctrStream o.idx 0) 8)) ∧
  (Taken opStreamRxCreate f s → streamPorts s f (u32 f 0) (u32 f 4) 0 4 = .ok () → ∀ st, st = (streamOf false f) → ∀ d, d = (u8 f 24) →
    streamRanges st d (s.mult d) = .ok () → ∀ cls, classOf s f 29 = .ok cls → fld f 31 1 = 0 → classPermitted s f.desk cls 29 = .ok () →
    ∀ h r s₁, createStream s f.desk cls d st = .ok (h, r, s₁) →
    exec (.streamRxCreate f) s = answered opStreamRxCreate f s₁ 0 (if false then le 4 h else le 4 h ++ le 4 r)) ∧
  (Taken opStreamTxCreate f s → streamPorts s f (u32 f 0) (u32 f 4) 0 4 = .ok () → ∀ st, st = (streamOf true f) → ∀ d, d = (u8 f 24) →
    streamRanges st d (s.mult d) = .ok () → ∀ cls, classOf s f 29 = .ok cls → fld f 31 1 = 0 → classPermitted s f.desk cls 29 = .ok () →
    ∀ h r s₁, createStream s f.desk cls d st = .ok (h, r, s₁) →
    exec (.streamTxCreate f) s = answered opStreamTxCreate f s₁ 0 (if true then le 4 h else le 4 h ++ le 4 r)) ∧
  (Taken opStreamDelete f s → ∀ o, freeChecks s f [tStream] = .ok o → ∀ n s₁, ((streamDeleteBefore o s).startFree o) = (n, s₁) →
    exec (.streamDelete f) s = answered opStreamDelete f s₁ 0 (le 4 n)) ∧
  (Taken opStreamSdpGet f s → ∀ o, names s (u32 f 0) [tStream] o → ∀ st, o.stream? = some st → ∀ b, bulkAt s f 4 1 4096 = .ok b → open' o →
    s.jobsOf f.desk < 32 →
    ∀ text, text = (Config.sdpText ([st.addr, st.addr2, st.source, st.udp, st.udp2, st.pt, st.format, st.ptime, st.channels,
          rateHz (s.dom o.dom).rate, s.ptp.domain] ++ s.ptp.states)) →
    exec (.streamSdpGet f) s = answered opStreamSdpGet f (s.deferOut f 0x0A04 o.handle b ((text.take 4096).take b.len)) 1 []) ∧
  (Taken opStreamSdpSet f s → streamPorts s f (u32 f 16) (u32 f 20) 16 20 = .ok () → ∀ b, bulkAt s f 0 0 4096 = .ok b →
    ∀ y, domainAt f 30 = .ok y → ∀ cls, classOf s f 31 = .ok cls → classPermitted s f.desk cls 31 = .ok () → s.jobsOf f.desk < 32 →
    exec (.streamSdpSet f) s = answered opStreamSdpSet f (s.defer f 0x0A05 0 (some b) 0 0) 1 [])

/-- `scene.*` that keep Scenes (R206-R210, R229, R331). -/
def Obligations.SceneCompletes : Prop := ∀ (f : CmdFrame) (s : State),
  (Taken opSceneInfo f s → ∀ o, names s (u32 f 0) [tScene] o → ∀ x, o.scene? = some x →
    exec (.sceneInfo f) s = answered opSceneInfo f s 0 (o.prefixBytes s ++ le 2 x.number ++ le 2 0 ++ le 4 x.body.scope ++ le 4 x.body.objects.length ++ le 4 x.body.bytes ++ le 8 x.ashlar)) ∧
  (Taken opSceneDelete f s → ∀ o, names s (u32 f 0) [tScene] o → (f.desk = o.desk ∨ f.desk = 0) →
    (!(sceneBusy s o.handle) && !(s.openOn o.handle)) →
    exec (.sceneDelete f) s = answered opSceneDelete f ((s.dropObj tScene o.idx).clearQuota o.desk) 0 []) ∧
  (Taken opSceneSafeSet f s → ∀ o, names s (u32 f 0) [tStrip, tBus, tRoute, tBlock, tGroup, tSvc] o → (sceneKind o) →
    (f.desk = o.desk ∨ f.desk = 0) → (u32 f 4 < 128) → open' o →
    exec (.sceneSafeSet f) s = answered opSceneSafeSet f (s.upd o.handle fun x => { x with safe := u32 f 4 }) 0 []) ∧
  (Taken opSceneNumberSet f s → ∀ o, names s (u32 f 0) [tScene] o → (f.desk = o.desk ∨ f.desk = 0) → fld f 6 2 = 0 → ∀ n, n = (u16 f 4) →
    open' o → (n == 0 || !(s.objs.any fun x => x.handle != o.handle && (x.scene?.any fun y => y.number == n))) →
    exec (.sceneNumberSet f) s = answered opSceneNumberSet f (s.upd o.handle fun x => x.onScene fun y => { y with number := n }) 0 []) ∧
  (Taken opScenePlanGet f s → fld f 6 2 = 0 → ∀ r, s.recalls.find? fun r => r.id == u32 f 0 = some r → ∀ k, k = (max 1 (u16 f 4)) →
    (r.planned) → ∀ ws, ws = ((r.waves.drop (k - 1)).take 9) →
    exec (.scenePlanGet f) s = answered opScenePlanGet f s 0 (le 2 r.waves.length ++ le 2 ws.length ++ le 4 0 ++ ws.flatMap fun w => le 8 w.launch ++ le 4 w.first ++ le 4 w.count ++ le 1 w.lo ++ le 1 w.hi ++ le 1 w.bound ++ le 5 0)) ∧
  (Taken opSceneGo f s → ∀ a, s.arm (u32 f 0) = some a → (a.hold && a.held) →
    exec (.sceneGo f) s = answered opSceneGo f (s.release' a.id) 0 [])

/-- `domain.*` (R242-R258, R332). -/
def Obligations.DomainCompletes : Prop := ∀ (f : CmdFrame) (s : State),
  (Taken opDomainInfo f s → ∀ d, domainAt f 0 = .ok d → fld f 1 3 = 0 → ∀ m, m = (s.dom d) → ∀ c, c = (computeOf s d) →
    exec (.domainInfo f) s = answered opDomainInfo f s 0 (le 1 d ++ le 1 m.st.code ++ le 1 m.rate ++ le 1 (s.maxMult d) ++ le 8 (if m.runs then s.idx d else 0) ++ le 2 c.1 ++ le 2 0 ++ le 4 c.2.1 ++ le 4 c.2.2)) ∧
  (Taken opDomainConfig f s → ∀ d, domainAt f 0 = .ok d → ∀ m, m = (u8 f 1) → (m == 1 || m == 2 || m == 4) → fld f 2 2 = 0 →
    (!(s.objs.any fun o => o.inDom d)) → (((s.dom d).maxMult == 0 && (s.dom d).st == .stopped) || s.mult d ≤ m) →
    exec (.domainConfig f) s = answered opDomainConfig f (s.setDom d fun x => { x with maxMult := m }) 0 []) ∧
  (Taken opDomainBridgeAlloc f s → ∀ x, domainAt f 0 = .ok x → ∀ y, domainAt f 1 = .ok y → (x != y) → ∀ n, n = (u8 f 2) →
    (1 ≤ n && n ≤ 64) → ∀ cls, classOf s f 3 = .ok cls → ∀ t, bridgeType (s.dom x).rate (s.dom y).rate = some t →
    classPermitted s f.desk cls 3 = .ok () → allocatable s x 0 = .ok () → allocatable s y 1 = .ok () →
    ∀ base, base = (n * max (s.heldMult x) (s.heldMult y)) → ∀ w, w = (16 * base) → within s f.desk 8 w = .ok () →
    within s f.desk 4 (n * s.mult y) = .ok () → (bridgesUsed s + base ≤ 2048) →
    ∀ ask : Need, ask = { w := w, rd := n * s.mult x, wr := n * s.mult y } → ∀ pk, pk = (place s y ask) →
    ∀ plan, plan = (if pk.isNone then consolidate s y ask else none) →
    ∀ core, ((match pk, plan with
      | some p, _ => .ok p.1
      | none, some q => .ok q.1
      | none, none => .error { status := eNoResource }) : Except Err Nat) = .ok core → ∀ i, (s.tab tBridge).pick 1 1 0 2048 = some i →
    ∀ s₁, s₁ = ((s.addObj { ty := tBridge, idx := i, gen := 1, desk := f.desk, cls := cls, dom := y, freeing := false, job := none,
                                  staged := 0, charge := w, safe := 0, epoch := s.epoch,
                                  kind := .bridge { from_ := x, to_ := y, channels := n, typ := t.1, firstRing := 0, core := core,
                                                    start := 8 * (s.ash y + 1), hist := [], joints := [] } }).useCore core y) →
    ∀ h, h = (((s₁.objAt tBridge i).map Obj.handle).getD 0) → ∀ r s₂, allocRings s₁ f.desk cls y n 0 h 7 0 = .ok (r, s₂) →
    ∀ s₃, s₃ = (s₂.upd h fun o => match o.kind with | .bridge b => { o with kind := .bridge { b with firstRing := r } } | _ => o) →
    ∀ s₄, s₄ = (s₃.overCeiling f.desk h core (match pk with | some p => p.2 | none => false)) →
    exec (.domainBridgeAlloc f) s = answered opDomainBridgeAlloc f (match plan with | some q => s₄.startMoves y core q.2 | none => s₄) 0 (le 4 h ++ le 4 (s₄.ringHandle r))) ∧
  (Taken opDomainBridgeFree f s → ∀ o, freeChecks s f [tBridge] = .ok o → anyFree s o = .ok () →
    ∀ n s₁, ((noBefore o s).startFree o) = (n, s₁) → exec (.domainBridgeFree f) s = answered opDomainBridgeFree f s₁ 0 (le 4 n)) ∧
  (Taken opDomainBridgeInfo f s → ∀ o, names s (u32 f 0) [tBridge] o → ∀ b, o.bridge? = some b → ∀ t, t = (bridgeDelays s b) →
    ∀ p, p = (o.prefixBytes s ++ le 1 b.from_ ++ le 1 b.to_ ++ le 1 b.typ ++ le 1 b.channels ++ le 4 t.1 ++ le 4 t.2.1 ++ le 4 t.2.2) →
    f.len == 4 → exec (.domainBridgeInfo f) s = answered opDomainBridgeInfo f s 0 p) ∧
  (Taken opDomainBridgeInfo f s → ∀ o, names s (u32 f 0) [tBridge] o → ∀ b, o.bridge? = some b → ∀ t, t = (bridgeDelays s b) →
    ∀ p, p = (o.prefixBytes s ++ le 1 b.from_ ++ le 1 b.to_ ++ le 1 b.typ ++ le 1 b.channels ++ le 4 t.1 ++ le 4 t.2.1 ++ le 4 t.2.2) →
    ¬ (f.len == 4) → ∀ bulk, bulkAt s f 4 1 0xFFFFFFFF = .ok bulk → s.jobsOf f.desk < 32 →
    exec (.domainBridgeInfo f) s = answered opDomainBridgeInfo f (s.deferOut f 0x0A8A 0 bulk ((Config.bridgeCoefficients b.typ).take bulk.len)) 1 p)

/-- `timing.*` (R333, R434-R454). -/
def Obligations.TimingCompletes : Prop := ∀ (f : CmdFrame) (s : State),
  (Taken opTimingInfo f s → ∀ t, t = s.timing →
    exec (.timingInfo f) s = answered opTimingInfo f s 0 (le 1 t.st.code ++ le 1 (selCode t.selected) ++ le 1 t.bandwidth ++ le 1 t.report ++ le 4 t.sticky ++ le 4 (twos 32 t.steer) ++ (List.range 8).flatMap fun c => let k := s.cand c ; le 1 (if k.enable then 1 else 0) ++ le 1 k.priority ++ le 1 (s.candQuality c) ++ le 1 (if k.valid then 1 else 0))) ∧
  (Taken opTimingNow f s →
    exec (.timingNow f) s = answered opTimingNow f s 0 (qBytes s.q ++ le 8 s.clk.raw ++ le 8 (s.idx 0) ++ le 8 (s.idx 1) ++ le 8 (s.idx 2) ++ le 4 (twos 32 s.timing.steer))) ∧
  (Taken opTimingRefConfig f s → ∀ c, c = (u8 f 0) → (c ≤ 7) → (u8 f 1 ≤ 1) → (carries c || u32 f 4 == 0) →
    (!(carries c) || candPort s c (u32 f 4)) → ∀ on, on = (u8 f 1 == 1) →
    ∀ s₁, s₁ = (s.setCand c fun k => { k with enable := on, priority := u8 f 2, quality := u8 f 3, port := u32 f 4,
                                                    valid := k.valid && on && k.port == u32 f 4 }) →
    ∀ s₂ : State, s₂ = { s₁ with journal := { s₁.journal with
               cands := [c, u8 f 1, u8 f 2, u8 f 3, u32 f 4] :: s₁.journal.cands.filter fun l => l.getD 0 99 != c } } →
    exec (.timingRefConfig f) s = answered opTimingRefConfig f (if s₂.timing.selected == some c && !on then (s₂.stick 0).reselect else s₂.reselect) 0 []) ∧
  (Taken opTimingPllSet f s → (u8 f 0 ≤ 2) → (u8 f 1 ≤ 3) → fld f 2 2 = 0 →
    ∀ s₁ : State, s₁ = { s with journal := { s.journal with pll := [u8 f 0, u8 f 1] } } →
    exec (.timingPllSet f) s = answered opTimingPllSet f (s₁.onTiming fun t => { t with bandwidth := u8 f 0, report := u8 f 1 }) 0 []) ∧
  (Taken opTimingHoldoverSet f s → ((s32 (u32 f 0)).natAbs ≤ 50000000) → ((s32 (u32 f 4)).natAbs ≤ 1000000) →
    (100 ≤ u32 f 8 && u32 f 8 ≤ 1000000000) →
    exec (.timingHoldoverSet f) s = answered opTimingHoldoverSet f (s.onTiming fun t => { t with drift := s32 (u32 f 0), ageing := s32 (u32 f 4), holdLimit := u32 f 8 }) 0 []) ∧
  (Taken opTimingOffsetSet f s → ∀ q, qOf f.payload 0 = some q → (domAFree s) → (!(s.doms.any fun x => x.seq.isSome)) →
    (!((List.range 3).any fun d => (s.dom d).runs && recallIn s d)) → s.jobsOf f.desk < 32 →
    exec (.timingOffsetSet f) s = answered opTimingOffsetSet f ((s.defer f 0x0B05 0 none 1 0).startTimeSet f.desk f.seq 0x0B05 q) 1 []) ∧
  (Taken opTimingSpliceSet f s → ∀ d, domainAt f 0 = .ok d → fld f 1 1 = 0 → (u16 f 2 ≤ 240) →
    exec (.timingSpliceSet f) s = answered opTimingSpliceSet f (s.setDom d fun x => { x with spliceL := u16 f 2 }) 0 []) ∧
  (Taken opTimingStickyClear f s →
    exec (.timingStickyClear f) s = answered opTimingStickyClear f (s.onTiming fun t => { t with sticky := w1c t.sticky (u32 f 0) }) 0 []) ∧
  (Taken opTimingSelect f s → ∀ c, c = (u8 f 0) → (c ≤ 7 || c == 0xFF) → fld f 1 3 = 0 →
    exec (.timingSelect f) s = answered opTimingSelect f (s.onTiming fun t => { t with forced := if c == 0xFF then none else some c }).reselect 0 [])

/-- `meter.*` (R264-R269, R334). -/
def Obligations.MeterCompletes : Prop := ∀ (f : CmdFrame) (s : State),
  (Taken opMeterInfo f s → ∀ o, names s (u32 f 0) [tMeter] o → ∀ m, o.meter? = some m →
    exec (.meterInfo f) s = answered opMeterInfo f s 0 (o.prefixBytes s ++ le 1 (if m.loud then 1 else 0) ++ le 1 (flagAt m.paired 0) ++ le 2 m.points ++ le 4 m.firstSlot)) ∧
  (Taken opMeterAlloc f s → ∀ loud, loud = (u8 f 0 == 1) → (u8 f 0 ≤ 1) → ∀ d, domainAt f 1 = .ok d → ∀ cls, classOf s f 2 = .ok cls →
    (u8 f 3 ≤ 1) → ∀ n, n = (u16 f 4) → (1 ≤ n && n ≤ (if loud then 24 else 1024)) → fld f 6 2 = 0 →
    classPermitted s f.desk cls 2 = .ok () → allocatable s d = .ok () → ∀ m, m = (s.mult d) →
    ∀ w, w = (if loud then chargeOf 2048 m else chargeOf (64 * n) m) → within s f.desk 8 w = .ok () → ∀ mine, mine = (s.meters loud) →
    (mine.length < (if loud then 128 else 1024)) → (loud || pointsUsed s + n * m ≤ 16384) →
    ∀ slot i, freeRun (mine.map fun p => (p.2.firstSlot, if loud then 1 else p.2.points)) (if loud then 1 else n)     (if loud then 128 else 16384) = some slot → (s.tab tMeter).pick 1 1 0 (2 ^ 20) = some i →
    ∀ s₁, s₁ = (s.addObj { ty := tMeter, idx := i, gen := 1, desk := f.desk, cls := cls, dom := d, freeing := false, job := none,
                                 staged := 0, charge := w, safe := 0, epoch := s.epoch,
                                 kind := .meter { loud := loud, paired := u8 f 3 == 1, points := n, firstSlot := slot, refresh := 0, taps := [],
                                                  state := List.replicate n { peak := 0, done := [], doneTick := 0 },
                                                  ld := Loud.reset (s.idx d) s.now, cores := [], vals := [], pend := [], ctl := [] } }) →
    ∀ h, h = (((s₁.objAt tMeter i).map Obj.handle).getD 0) → ∀ ts s₂, seatPoints f h d m (if loud then w else 0) n s₁ [] = .ok (ts, s₂) →
    ∀ u ans, s₂.seated f 0x0C01 h d ts (le 4 h ++ le 4 slot) = .ok (u, ans) →
    exec (.meterAlloc f) s = answered opMeterAlloc f u ans.status ans.payload) ∧
  (Taken opMeterFree f s → ∀ o, freeChecks s f [tMeter] = .ok o → anyFree s o = .ok () → ∀ n s₁, ((noBefore o s).startFree o) = (n, s₁) →
    exec (.meterFree f) s = answered opMeterFree f s₁ 0 (le 4 n)) ∧
  (Taken opMeterParamSet f s → ∀ o, names s (u32 f 0) [tMeter] o → (f.desk = o.desk ∨ f.desk = 0) → u16 f 30 == 0xFFFF →
    ∀ b, bulkAt s f 32 0 32768 = .ok b → (b.len % 8 == 0 && 1 ≤ b.len) → ∀ y, timing3 f = .ok y → ∀ y, launchAt s f 4 = .ok y → open' o →
    s.jobsOf f.desk < 32 → exec (.meterParamSet f) s = answered opMeterParamSet f (s.defer f 0x0C04 o.handle (some b) 0 0) 1 []) ∧
  (Taken opMeterParamSet f s → ∀ o, names s (u32 f 0) [tMeter] o → (f.desk = o.desk ∨ f.desk = 0) → ¬ (u16 f 30 == 0xFFFF) →
    (1 ≤ u16 f 30 && u16 f 30 ≤ 26) → ∀ recs, eachItem (recordAt f) (u16 f 30) 0 = .ok recs → ∀ w s', meterWrite s f o recs = .ok (w, s') →
    exec (.meterParamSet f) s = answered opMeterParamSet f s' 0 (le 8 w.index)) ∧
  (Taken opMeterLoudCtl f s → ∀ n, n = (u16 f 2) →
    ∀ os, (eachItem (fun i => atItem i do
      let o ← resolve s [tMeter] (u32 f (20 + 4 * i)) (20 + 4 * i)
      need ((o.meter?.map (·.loud)).getD false) eHandle (20 + 4 * i) o.handle
      owned f o.desk o.handle (20 + 4 * i)
      .ok o) n 0) = .ok os → (u8 f 0 ≤ 2) → fld f 1 1 = 0 → (1 ≤ n && n ≤ 55) → ∀ l, launchAt s f 4 = .ok l →
    (os.forM fun o => settled o) = .ok () → ∀ ws, (os.mapM fun o => schedule s l o.dom 0 false 4) = .ok ws →
    (ws.forM fun w => lateCheck f w) = .ok () → ∀ k s₁, (s.stamp) = (k, s₁) →
    ∀ s₂, s₂ = ((os.zip ws).foldl (fun s₁ p =>
               let s₁ := s₁.upd p.1.handle fun x => x.onMeter fun m =>
                 if p.2.now then { m with ld := m.ld.control (u8 f 0) (s₁.idx p.1.dom) s₁.now } else { m with ctl := m.ctl ++ [(p.2.s, k, u8 f 0)] }
               s₁.slipEvent f 0x0C05 1 p.2) s₁) → exec (.meterLoudCtl f) s = answered opMeterLoudCtl f s₂ 0 [])

/-- `svc.*` (R260-R276, R335). -/
def Obligations.SvcCompletes : Prop := ∀ (f : CmdFrame) (s : State),
  (Taken opSvcInfo f s → ∀ o, names s (u32 f 0) [tSvc] o → ∀ v, o.svc? = some v →
    exec (.svcInfo f) s = answered opSvcInfo f s 0 (o.prefixBytes s ++ le 1 v.kind ++ le 1 v.mode ++ le 2 v.size ++ le 4 (s.ringHandle v.firstRing) ++ le 2 v.ifb ++ le 2 0)) ∧
  (Taken opSvcAlloc f s → ∀ kind, kind = (u8 f 0) → (1 ≤ kind && kind ≤ 5) → ∀ d, domainAt f 1 = .ok d → ∀ cls, classOf s f 2 = .ok cls →
    (u8 f 3 == 0 || (kind == 3 && u8 f 3 == 1)) → ∀ n, n = (u16 f 4) → (svcSizeOk kind n) → fld f 6 2 = 0 →
    classPermitted s f.desk cls 2 = .ok () → allocatable s d = .ok () → ∀ m, m = (s.mult d) → ∀ w, w = (chargeOf (svcCycles kind n) m) →
    ∀ outs, outs = (Svc.outputs kind (u8 f 3) n) → within s f.desk 8 w = .ok () → within s f.desk 4 (outs * m) = .ok () →
    ∀ mine, mine = (s.svcs kind) → (mine.length < svcLimit kind) →
    ∀ ifb, ifb = (if kind == 3 then (freeRun (mine.map fun p => (p.2.ifb, 1)) 1 512).getD 0 else 0xFFFF) →
    ∀ ins, ins = (match kind with
         | 1 => n
         | 2 => n
         | 3 => 5
         | 5 => 2
         | _ => 0) → ∀ t, seat s f d { w := w, rd := ins * m, wr := outs * m } = .ok t → ∀ i, (s.tab tSvc).pick 1 1 0 (2 ^ 20) = some i →
    ∀ v : Svc, v = { kind := kind, mode := u8 f 3, size := n, firstRing := 0, ifb := ifb, core := t.core, vals := [], pend := [],
                            twins := [], live := [], keys := List.replicate 4 false, keyRamps := List.replicate 4 (GainRec.rest 0#32),
                            dim := PVal.rest 0x3601 0 .db, est := [], gOld := [], gNew := [], solos := [], switch := none,
                            active := false } →
    ∀ s₁, s₁ = ((s.addObj { ty := tSvc, idx := i, gen := 1, desk := f.desk, cls := cls, dom := d, freeing := false, job := none,
                                  staged := 0, charge := w, safe := 0, epoch := s.epoch, kind := .svc v.startMix }).useCore t.core d) →
    ∀ h, h = (((s₁.objAt tSvc i).map Obj.handle).getD 0) → ∀ r s₂, allocRings s₁ f.desk cls d outs 0 h 8 0 = .ok (r, s₂) →
    ∀ s₃, s₃ = (s₂.upd h fun x => x.onSvc fun v => { v with firstRing := r }) →
    ∀ u ans, s₃.seated f 0x0D01 h d [t] (le 4 h ++ le 4 (s₃.ringHandle r) ++ le 2 ifb ++ le 2 0) = .ok (u, ans) →
    exec (.svcAlloc f) s = answered opSvcAlloc f u ans.status ans.payload) ∧
  (Taken opSvcFree f s → ∀ o, freeChecks s f [tSvc] = .ok o → anyFree s o = .ok () → ∀ n s₁, ((noBefore o s).startFree o) = (n, s₁) →
    exec (.svcFree f) s = answered opSvcFree f s₁ 0 (le 4 n)) ∧
  (Taken opSvcParamSet f s → ∀ o, names s (u32 f 0) [tSvc] o → (f.desk = o.desk ∨ f.desk = 0) → u16 f 30 == 0xFFFF →
    ∀ b, bulkAt s f 32 0 32768 = .ok b → (b.len % 8 == 0 && 1 ≤ b.len) → ∀ y, timing3 f = .ok y → ∀ y, launchAt s f 4 = .ok y → open' o →
    s.jobsOf f.desk < 32 → exec (.svcParamSet f) s = answered opSvcParamSet f (s.defer f 0x0D03 o.handle (some b) 0 0) 1 []) ∧
  (Taken opSvcParamSet f s → ∀ o, names s (u32 f 0) [tSvc] o → (f.desk = o.desk ∨ f.desk = 0) → ¬ (u16 f 30 == 0xFFFF) →
    (1 ≤ u16 f 30 && u16 f 30 ≤ 26) → ∀ recs, eachItem (recordAt f) (u16 f 30) 0 = .ok recs → ∀ w s', svcWrite s f o recs = .ok (w, s') →
    exec (.svcParamSet f) s = answered opSvcParamSet f s' 0 (le 8 w.index)) ∧
  (Taken opSvcParamGet f s → ∀ o, names s (u32 f 0) [tSvc] o → (1 ≤ u16 f 4 && u16 f 4 ≤ 19) → fld f 6 2 = 0 →
    ∀ ids, (eachItem (fun i => do
      let id := u16 f (8 + 2 * i)
      if (svcSpec s o id).isNone then .error { status := eRange, field := 8 + 2 * i, item := i, handle := o.handle } else .ok id)
      (u16 f 4) 0) = .ok ids →
    ∀ bs s₁, (ids.foldl (fun (p : List Byte × State) id =>
      match svcSpec p.2 o id with
      | none => p
      | some q =>
        let (u, s) := svcUse p.2 o id q
        (p.1 ++ le 2 id ++ le 2 0 ++ le 4 (valOf o.params.vals id q.dflt q.mode).written ++ le 4 u, s)) ([], s)) = (bs, s₁) →
    exec (.svcParamGet f) s = answered opSvcParamGet f s₁ 0 (le 2 (u16 f 4) ++ le 2 0 ++ bs)) ∧
  (Taken opSvcTalk f s → ∀ ps, talkTargets s f = .ok ps → (u8 f 0 ≤ 3) → (u8 f 1 ≤ 1) → fld f 2 2 = 0 → (!ps.isEmpty) →
    ∀ l, launchAt s f 4 = .ok l → (ps.forM fun p => settled p.1 20) = .ok () →
    ∀ ws, (ps.mapM fun p => schedule s l p.1.dom 0 false 4) = .ok ws → (ws.forM fun w => lateCheck f w) = .ok () →
    ∀ n s₁, (s.stamp) = (n, s₁) →
    ∀ s₂, s₂ = ((ps.zip ws).foldl (fun s₁ p =>
               (s₁.liveChange p.1.1 p.2 { order := n, s := 0, input := u8 f 0, press := u8 f 1 == 1, exclusive := false, sources := [] }).slipEvent
                 f 0x0D05 1 p.2) s₁) → exec (.svcTalk f) s = answered opSvcTalk f s₂ 0 (le 8 ((ws.head?.map When.index).getD 0))) ∧
  (Taken opSvcSoloSet f s → ∀ o, names s (u32 f 0) [tSvc] o → ∀ n, n = (u16 f 6) →
    ∀ xs, eachItem (fun i => atItem i (resolve s [tStrip, tBus] (u32 f (24 + 8 * i)) (24 + 8 * i))) n 0 = .ok xs →
    (f.desk = o.desk ∨ f.desk = 0) → ∀ v, o.svc? = some v → (v.kind == 5) → (u8 f 4 ≤ 1) → fld f 5 1 = 0 → (n ≤ 26) →
    ∀ srcs, (eachItem (fun i => atItem i do
      let b := 24 + 8 * i
      let x := xs[i]?
      need (u8 f (b + 4) < ((x.bind Obj.chan?).map (·.width)).getD 0) eRange (b + 4)
      need (u8 f (b + 5) ≤ 1) eRange (b + 5)
      need (u8 f (b + 6) ≤ 1) eRange (b + 6)
      reserved f (b + 7) 1
      .ok (u32 f b, u8 f (b + 4), u8 f (b + 5), u8 f (b + 6) == 1)) n 0) = .ok srcs → ∀ l, launchAt s f 8 = .ok l → open' o →
    (xs.all fun x => x.dom == o.dom && !x.freeing) → ∀ w, schedule s l o.dom 0 false 8 = .ok w → ∀ k s₁, (s.stamp) = (k, s₁) →
    ∀ s₂, s₂ = (s₁.liveChange o w { order := k, s := 0, input := 0, press := false, exclusive := bit (u8 f 4) 0, sources := srcs }) →
    ∀ after, after = (((s₂.obj o.handle).bind Obj.svc?).elim [] Svc.acceptedSolos) → (after.length ≤ 256) →
    (srcs.all fun x => !x.2.2.2 || s₂.tapsOn x.1 x.2.1 ≤ 8) → lateCheck f w = .ok () →
    exec (.svcSoloSet f) s = answered opSvcSoloSet f (s₂.slipEvent f 0x0D06 1 w) 0 [])

/-- `capture.*` (R277-R279, R341). -/
def Obligations.CaptureCompletes : Prop := ∀ (f : CmdFrame) (s : State),
  (Taken opCaptureInfo f s → ∀ o, names s (u32 f 0) [tCapture] o → ∀ c, o.capture? = some c →
    exec (.captureInfo f) s = answered opCaptureInfo f s 0 (o.prefixBytes s ++ le 1 c.st.code ++ le 1 0 ++ le 2 c.channels ++ le 4 c.length ++ le 8 c.firstIndex ++ le 8 c.f)) ∧
  (Taken opCaptureAlloc f s → ∀ d, domainAt f 0 = .ok d → ∀ cls, classOf s f 1 = .ok cls → ∀ n, n = (u16 f 2) →
    ∀ length, length = (u32 f 4) → (1 ≤ n && n ≤ 256) → (1 ≤ length && length ≤ 120 * s.fs d) → classPermitted s f.desk cls 1 = .ok () →
    allocatable s d = .ok () → ∀ m, m = (s.mult d) → ∀ w, w = (chargeOf (192 * n) m) → within s f.desk 8 w = .ok () →
    within s f.desk 4 (n * m) = .ok () → ((s.ofType tCapture).length < 8) → (captureChannels s + n * m ≤ 256) →
    (captureUsed s + n * length ≤ 1610612736) → ∀ t, seatNow s d { w := w, rd := n * m, wr := n * m } = .ok t →
    ∀ i, (s.tab tCapture).pick 1 1 0 (2 ^ 20) = some i →
    ∀ s₁, s₁ = ((s.addObj { ty := tCapture, idx := i, gen := 1, desk := f.desk, cls := cls, dom := d, freeing := false, job := none,
                                  staged := 0, charge := w, safe := 0, epoch := s.epoch,
                                  kind := .capture { channels := n, length := length, st := .rolling, firstIndex := 8 * s.ash d, f := 0,
                                                     post := 0, tPlay := 480, firstRing := 0, core := t.core, record := [], play := none,
                                                     release := none, vals := [], pend := [] } }).useCore t.core d) →
    ∀ h, h = (((s₁.objAt tCapture i).map Obj.handle).getD 0) → ∀ r s₂, allocRings s₁ f.desk cls d n 0 h 8 0 = .ok (r, s₂) →
    ∀ s₃, s₃ = (s₂.upd h fun x => x.onCapture fun c => { c with firstRing := r }) →
    ∀ u ans, s₃.seated f 0x1201 h d [t] (le 4 h ++ le 4 (s₃.ringHandle r)) = .ok (u, ans) →
    exec (.captureAlloc f) s = answered opCaptureAlloc f u ans.status ans.payload) ∧
  (Taken opCaptureFree f s → ∀ o, freeChecks s f [tCapture] = .ok o → anyFree s o = .ok () →
    ∀ n s₁, ((noBefore o s).startFree o) = (n, s₁) → exec (.captureFree f) s = answered opCaptureFree f s₁ 0 (le 4 n)) ∧
  (Taken opCaptureFreeze f s → ∀ o, names s (u32 f 0) [tCapture] o → (f.desk = o.desk ∨ f.desk = 0) → ∀ l, launchAt s f 4 = .ok l →
    open' o → inCapState o [.rolling] = .ok () → ∀ w, schedule s l o.dom 0 false 4 = .ok w → lateCheck f w = .ok () →
    ∀ i, i = (w.indexIn s o.dom) →
    exec (.captureFreeze f) s = answered opCaptureFreeze f ((s.upd o.handle fun x => x.freezeAt i).slipEvent f 0x1203 1 w) 0 (le 8 (i % farMark))) ∧
  (Taken opCapturePlay f s → ∀ o, names s (u32 f 0) [tCapture] o → (f.desk = o.desk ∨ f.desk = 0) → ∀ c, o.capture? = some c →
    ∀ start, start = (u32 f 4) → ∀ n, n = (u32 f 8) → (start + n ≤ c.length) → ∀ l, launchAt s f 12 = .ok l →
    ∀ w, schedule s l o.dom 0 false 12 = .ok w → ∀ i, i = (w.indexIn s o.dom) → ∀ t, t = (valAt o.params 0x3902 480 i) → (2 * t ≤ n) →
    open' o → inCapState o [.frozen] = .ok () → lateCheck f w = .ok () →
    exec (.capturePlay f) s = answered opCapturePlay f ((s.upd o.handle fun x => x.onCapture fun c => { c with st := .playing, tPlay := t, play := some { s := i, start := start, count := n, stop := none } }).slipEvent f 0x1204 1 w) 0 (le 8 (i % farMark))) ∧
  (Taken opCaptureStop f s → ∀ o, names s (u32 f 0) [tCapture] o → (f.desk = o.desk ∨ f.desk = 0) → ∀ l, launchAt s f 4 = .ok l → open' o →
    inCapState o [.playing] = .ok () → ∀ w, schedule s l o.dom 0 false 4 = .ok w → lateCheck f w = .ok () →
    exec (.captureStop f) s = answered opCaptureStop f ((s.upd o.handle fun x => x.onCapture fun c => { c with play := c.play.map fun p => { p with stop := some (w.indexIn s o.dom) } }).slipEvent f 0x1205 1 w) 0 []) ∧
  (Taken opCaptureRelease f s → ∀ o, names s (u32 f 0) [tCapture] o → (f.desk = o.desk ∨ f.desk = 0) → open' o →
    inCapState o [.frozen] = .ok () →
    exec (.captureRelease f) s = answered opCaptureRelease f (s.upd o.handle fun x => x.onCapture fun c => if (s.dom o.dom).runs then { c with release := some (s.ash o.dom + 1) } else c.roll (s.idx o.dom)) 0 []) ∧
  (Taken opCaptureRead f s → ∀ o, names s (u32 f 0) [tCapture] o → (f.desk = o.desk ∨ f.desk = 0) → ∀ c, o.capture? = some c →
    ∀ n, n = (u16 f 6) → (u16 f 4 < c.channels) → (1 ≤ n && u16 f 4 + n ≤ c.channels) → (u32 f 8 + u32 f 12 ≤ c.length) →
    ∀ b, bulkAt s f 16 1 0xFFFFFFFF = .ok b → (b.len == 4 * n * u32 f 12) → open' o → inCapState o [.frozen, .playing] = .ok () →
    s.jobsOf f.desk < 32 →
    exec (.captureRead f) s = answered opCaptureRead f (s.deferOut f 0x1207 o.handle b (c.window (u16 f 4) n (u32 f 8) (u32 f 12))) 1 []) ∧
  (Taken opCaptureParamSet f s → ∀ o, names s (u32 f 0) [tCapture] o → (f.desk = o.desk ∨ f.desk = 0) → u16 f 30 == 0xFFFF →
    ∀ b, bulkAt s f 32 0 32768 = .ok b → (b.len % 8 == 0 && 1 ≤ b.len) → ∀ y, timing3 f = .ok y → ∀ y, launchAt s f 4 = .ok y → open' o →
    s.jobsOf f.desk < 32 → exec (.captureParamSet f) s = answered opCaptureParamSet f (s.defer f 0x1208 o.handle (some b) 0 0) 1 []) ∧
  (Taken opCaptureParamSet f s → ∀ o, names s (u32 f 0) [tCapture] o → (f.desk = o.desk ∨ f.desk = 0) → ¬ (u16 f 30 == 0xFFFF) →
    (1 ≤ u16 f 30 && u16 f 30 ≤ 26) → ∀ recs, eachItem (recordAt f) (u16 f 30) 0 = .ok recs →
    ∀ w s', captureWrite s f o recs = .ok (w, s') → exec (.captureParamSet f) s = answered opCaptureParamSet f s' 0 (le 8 w.index))

/-- `red.*`, `fault.*` and `spare.*` (R455-R462, R336, R337, R489-R501). -/
def Obligations.RedFaultCompletes : Prop := ∀ (f : CmdFrame) (s : State),
  (Taken opRedInfo f s → ∀ r, r = s.red →
    exec (.redInfo f) s = answered opRedInfo f s 0 (le 1 r.mode ++ le 1 r.role.code ++ le 1 r.claimNow ++ le 1 0 ++ le 8 s.epoch ++ le 8 (s.ctr ctrSweep) ++ r.peers.flatMap fun p => le 2 p.id ++ le 1 p.hdr.role ++ le 1 (if p.seen && !p.lost then 1 else 0))) ∧
  (Taken opRedConfig f s → ∀ mode, mode = (u8 f 0) → ∀ p0, p0 = (u16 f 4) → ∀ p1, p1 = (u16 f 6) → (mode ≤ 2) → (mode == 0 || u8 f 1 != 0) →
    fld f 2 2 = 0 → (mode == 2 || p1 == 0) → mode == 0 → (!(s.red.ownOut && s.red.peers.any Peer.awaited)) → s.jobsOf f.desk < 32 →
    ∀ s₁, s₁ = (s.defer f 0x0E01 0 none 1 0) →
    ∀ s₂, s₂ = (s₁.onRed fun r => { Red.reset with claim := u8 f 1, ownIn := r.ownIn, role := r.role, job := some (f.desk, f.seq, 0x0E01) }) →
    exec (.redConfig f) s = answered opRedConfig f (((s₂.keepRed [0, u8 f 1]).setRole .single).redDone 0x0E01 0) 1 []) ∧
  (Taken opRedConfig f s → ∀ mode, mode = (u8 f 0) → ∀ p0, p0 = (u16 f 4) → ∀ p1, p1 = (u16 f 6) → (mode ≤ 2) → (mode == 0 || u8 f 1 != 0) →
    fld f 2 2 = 0 → (mode == 2 || p1 == 0) → ¬ (mode == 0) → (mayJoin s p0 p1) → s.jobsOf f.desk < 32 →
    ∀ peers, peers = (if mode == 2 then [Peer.new p0, Peer.new p1] else [Peer.new p0]) → ∀ s₁, s₁ = (s.defer f 0x0E01 0 none 1 0) →
    ∀ s₂, s₂ = (s₁.onRed fun r => { Red.reset with mode := mode, claim := u8 f 1, peers := peers, ownIn := r.ownIn, role := r.role,
                                                        job := some (f.desk, f.seq, 0x0E01) }) →
    exec (.redConfig f) s = answered opRedConfig f ((s₂.keepRed (mode :: u8 f 1 :: peers.map (·.id))).setRole .forming) 1 []) ∧
  (Taken opRedRejoin f s → (s.red.role == .stale) → s.jobsOf f.desk < 32 →
    ∀ s₁, s₁ = ((s.defer f 0x0E03 0 none 1 0).onRed fun r => { r with job := some (f.desk, f.seq, 0x0E03) }) →
    exec (.redRejoin f) s = answered opRedRejoin f (if activeSeen s₁ then s₁.beginRejoin else s₁.redDone 0x0E03 eState) 1 []) ∧
  (Taken opFaultLogGet f s → fld f 4 4 = 0 → ∀ rs, rs = ((s.faults.log.drop (u32 f 0)).take 11) →
    exec (.faultLogGet f) s = answered opFaultLogGet f s 0 (le 2 rs.length ++ le 2 0 ++ le 4 s.faults.total ++ rs.flatMap fun r => le 1 r.kind ++ le 1 r.severity ++ le 2 r.unit ++ le 4 r.address ++ le 8 r.ashlar ++ le 4 r.count)) ∧
  (Taken opFaultClear f s →
    exec (.faultClear f) s = answered opFaultClear f ({ s with journal := { s.journal with faultLog := [] } } |>.onFaults fun x => { x with log := [] }) 0 []) ∧
  (Taken opSpareInfo f s → ∀ mask, mask = (sumNat ((List.range 192).map fun c => if (s.core c).reserve then 2 ^ c else 0)) →
    exec (.spareInfo f) s = answered opSpareInfo f s 0 (le 1 (reservesLeft s) ++ le 1 s.faults.spareArrays.length ++ le 1 s.faults.spareBanks.length ++ le 1 (phasesLeft s) ++ le 24 mask ++ s.faults.rowsLeft.flatMap fun n => le 2 n)) ∧
  (Taken opSpareTest f s → ∀ kind, kind = (u8 f 0) → ∀ unit, unit = (u16 f 2) → (kind == 2 || kind == 3) → fld f 1 1 = 0 →
    (unit < (if kind == 2 then 18 else 68)) → ((placeOf s kind unit).isSome) → (!(s.faults.tests.any fun t => t.1 == kind)) →
    (!(s.faults.work.any fun w => w.kind == kind)) → s.jobsOf f.desk < 32 → ∀ spare more, spares s kind = spare :: more →
    ∀ order, order = s.orderCtr →
    ∀ s₁, s₁ = ((s.defer f 0x1001 0 none 1 0).onFaults fun x => { x with tests := x.tests ++ [(kind, unit, spare, order)] }) →
    exec (.spareTest f) s = answered opSpareTest f (s₁.startSwap kind unit spare true) 1 [])

/-- `block.*` of packages and key slots (R114-R117, R338, R339). -/
def Obligations.PackageCompletes : Prop := ∀ (f : CmdFrame) (s : State),
  (Taken opBlockInfo f s → (u8 f 0 ≤ 1) → fld f 1 3 = 0 → u8 f 0 == 0 → fld f 4 4 = 0 →
    exec (.blockInfo f) s = answered opBlockInfo f s 0 (((List.range 3).flatMap fun d => let c := computeOf s d ; le 2 c.1 ++ le 2 0 ++ le 4 c.2.1 ++ le 4 c.2.2) ++ le 2 (domCores s 3).length ++ le 2 s.ceiling)) ∧
  (Taken opBlockInfo f s → (u8 f 0 ≤ 1) → fld f 1 3 = 0 → ¬ (u8 f 0 == 0) → ∀ o b, resolveBlock s (u32 f 4) 4 = .ok (o, b) →
    ∀ t s₁, (if b.package == 0 then s.drawNat else (b.typ, s)) = (t, s₁) →
    exec (.blockInfo f) s = answered opBlockInfo f s₁ 0 (o.prefixBytes s₁ ++ le 4 b.package ++ le 2 t ++ le 1 (b.place s₁) ++ le 1 0 ++ le 2 b.core ++ le 2 0 ++ le 8 (s₁.ctr (ctrBlock o.idx 0)) ++ le 8 (s₁.ctr (ctrBlock o.idx 1)))) ∧
  (Taken opBlockCeilingSet f s → (40 ≤ u32 f 0 && u32 f 0 ≤ 160) → (s.red.mode == 0 || u32 f 0 ≤ 80) →
    exec (.blockCeilingSet f) s = answered opBlockCeilingSet f { s with ceiling := u32 f 0 } 0 []) ∧
  (Taken opBlockPkgLoad f s → ∀ b, bulkAt s f 0 0 16777216 = .ok b → s.jobsOf f.desk < 32 →
    exec (.blockPkgLoad f) s = answered opBlockPkgLoad f (s.defer f 0x1102 0 (some b) 0 0) 1 []) ∧
  (Taken opBlockPkgUnload f s → ∀ id, id = (u32 f 0) → (s.packages.any fun p => p.id == id) →
    (!(s.objs.any fun o => o.block?.any fun b => b.package == id)) →
    exec (.blockPkgUnload f) s = answered opBlockPkgUnload f { s with packages := s.packages.filter (fun p => p.id != id), faults := { s.faults with damaged := s.faults.damaged.filter (· != id) } } 0 []) ∧
  (Taken opBlockPkgList f s → fld f 2 2 = 0 → ∀ ps, ps = ((s.packages.drop (u16 f 0)).take 19) →
    exec (.blockPkgList f) s = answered opBlockPkgList f s 0 (le 2 ps.length ++ le 2 0 ++ ps.flatMap fun p => le 4 p.id ++ le 4 p.version ++ le 1 p.keySlot ++ le 1 p.flags ++ le 2 p.types.length)) ∧
  (Taken opBlockKeyslotProgram f s → ∀ k, keySlotAt f = .ok k → (u8 f 4 == 4) → fld f 101 3 = 0 →
    ((s.keySlots[k - 1]?).all fun x => x.key.isEmpty) →
    exec (.blockKeyslotProgram f) s = answered opBlockKeyslotProgram f (s.setKeySlot k fun x => { x with key := slice f.payload 4 97 }) 0 []) ∧
  (Taken opBlockKeyslotRevoke f s → ∀ k, keySlotAt f = .ok k →
    exec (.blockKeyslotRevoke f) s = answered opBlockKeyslotRevoke f (s.setKeySlot k fun x => { x with revoked := true }) 0 [])

/-- `block.*` of instances (R103-R113, R339, R340). -/
def Obligations.BlockCompletes : Prop := ∀ (f : CmdFrame) (s : State),
  (Taken opBlockCreate f s → ∀ h, h = (u32 f 8) → ∀ t, s.pkgType (u32 f 0) (u16 f 4) = some t →
    ∀ sound, sound = (!(s.faults.damaged.contains (u32 f 0))) → h == 0 → ∀ cls, classOf s f 7 = .ok cls → (u8 f 6 == 0) → sound = true →
    (bit t.flags 4 && t.cycles.getD (multIdx (s.mult 0)) 0 != 0) → (s.red.mode == 0 || !(bit t.flags 0 || t.stateBytes > 65536)) →
    classPermitted s f.desk cls 7 = .ok () → allocatable s 0 = .ok () → ∀ u ans, createAlone s f t cls = .ok (u, ans) →
    exec (.blockCreate f) s = answered opBlockCreate f u ans.status ans.payload) ∧
  (Taken opBlockCreate f s → ∀ h, h = (u32 f 8) → ∀ t, s.pkgType (u32 f 0) (u16 f 4) = some t →
    ∀ sound, sound = (!(s.faults.damaged.contains (u32 f 0))) → ¬ (h == 0) → ∀ o, names s h [tStrip, tBus] o →
    (f.desk = o.desk ∨ f.desk = 0) → ∀ cls, classOf s f 7 = .ok cls → (u8 f 6 ≤ 3) → open' o → sound = true →
    (bit t.flags (if o.ty == tStrip then 1 else 2) && t.cycles.getD (multIdx (s.mult o.dom)) 0 != 0) →
    (s.red.mode == 0 || !(bit t.flags 0 || t.stateBytes > 65536)) → classPermitted s o.desk cls 7 = .ok () → allocatable s o.dom = .ok () →
    ∀ c, o.chan? = some c → ∀ u ans, createHosted s f o c t cls = .ok (u, ans) →
    exec (.blockCreate f) s = answered opBlockCreate f u ans.status ans.payload) ∧
  (Taken opBlockFree f s → ∀ o, freeChecks s f [tBlock] = .ok o → pkgBlockOnly s o = .ok () →
    ∀ n s₁, ((noBefore o s).startFree o) = (n, s₁) → exec (.blockFree f) s = answered opBlockFree f s₁ 0 (le 4 n)) ∧
  (Taken opBlockParamSet f s → ∀ o, names s (u32 f 0) [tBlock] o → (f.desk = o.desk ∨ f.desk = 0) → u16 f 30 == 0xFFFF →
    ∀ b, bulkAt s f 32 0 32768 = .ok b → (b.len % 8 == 0 && 1 ≤ b.len) → ∀ y, timing3 f = .ok y → ∀ y, launchAt s f 4 = .ok y → open' o →
    s.jobsOf f.desk < 32 → exec (.blockParamSet f) s = answered opBlockParamSet f (s.defer f 0x1109 o.handle (some b) 0 0) 1 []) ∧
  (Taken opBlockParamSet f s → ∀ o, names s (u32 f 0) [tBlock] o → (f.desk = o.desk ∨ f.desk = 0) → ¬ (u16 f 30 == 0xFFFF) →
    (1 ≤ u16 f 30 && u16 f 30 ≤ 26) → ∀ recs, eachItem (recordAt f) (u16 f 30) 0 = .ok recs → ∀ w s', blockWrite s f o recs = .ok (w, s') →
    exec (.blockParamSet f) s = answered opBlockParamSet f s' 0 (le 8 w.index)) ∧
  (Taken opBlockParamGet f s → ∀ o, names s (u32 f 0) [tBlock] o → (1 ≤ u16 f 4 && u16 f 4 ≤ 19) → fld f 6 2 = 0 →
    ∀ ids, (eachItem (fun i => do
      let id := u16 f (8 + 2 * i)
      if (blockSpec s o id).isNone then .error { status := eRange, field := 8 + 2 * i, item := i, handle := o.handle } else .ok id)
      (u16 f 4) 0) = .ok ids →
    ∀ bs s₁, (ids.foldl (fun (p : List Byte × State) id =>
      match blockSpec p.2 o id with
      | none => p
      | some q =>
        let (u, s) := plainUse p.2 o id q
        (p.1 ++ le 2 id ++ le 2 0 ++ le 4 (valOf o.params.vals id q.dflt q.mode).written ++ le 4 u, s)) ([], s)) = (bs, s₁) →
    exec (.blockParamGet f) s = answered opBlockParamGet f s₁ 0 (le 2 (u16 f 4) ++ le 2 0 ++ bs))

/-- `seam.*` (R361-R382). -/
def Obligations.SeamCompletes : Prop := ∀ (f : CmdFrame) (s : State),
  (Taken opSeamInfo f s → ∀ i, lanePort s (u32 f 0) 0 = .ok i → ∀ l, l = (s.lane i) →
    exec (.seamInfo f) s = answered opSeamInfo f s 0 (le 4 (laneHandle i) ++ le 1 l.owner ++ le 1 0xFF ++ le 1 0xFF ++ le 1 0 ++ le 4 0 ++ le 4 0 ++ le 1 l.st.code ++ le 1 l.mult ++ le 1 l.window ++ le 1 0 ++ le 2 l.peer ++ le 1 l.hops ++ le 1 l.topo ++ le 8 (s.ctr (ctrLane i 0)) ++ le 8 (s.ctr (ctrLane i 1)))) ∧
  (Taken opSeamConfig f s → ∀ i, lanePort s (u32 f 0) 0 = .ok i → ∀ m, m = (u8 f 4) → (m == 1 || m == 2 || m == 4) →
    (4 ≤ u8 f 5 && u8 f 5 ≤ 16) → (u8 f 6 ≤ 1) → fld f 7 1 = 0 → (seamMode s i && !(laneBusy s i)) → (!(u8 f 6 == 1 && pairTaken s i)) →
    ∀ s₁, s₁ = (s.setLane i fun l =>
               { l.train with mult := m, window := u8 f 5, upstream := u8 f 6 == 1, config := slice f.payload 0 8 }) →
    ∀ up, up = ((s₁.lane i).st != .down) → exec (.seamConfig f) s = answered opSeamConfig f (if up then s₁.laneTo i .training else s₁) 0 []) ∧
  (Taken opSeamLand f s → ∀ i, lanePort s (u32 f 0) 0 = .ok i → ∀ l, l = (s.lane i) → (u32 f 8 != 0 → ∃ y, names s (u32 f 8) [tRing] y) →
    (f.desk = l.owner ∨ f.desk = 0) → ∀ a, a = (u16 f 4) → ∀ n, n = (u16 f 6) → (a < l.slots) → (1 ≤ n && n ≤ 64 && a + n ≤ l.slots) →
    (seamMode s i) → ∀ mine, mine = (l.lands.filter fun b => a ≤ b.1 && b.1 < a + n) → u32 f 8 == 0 →
    ∀ s₁, s₁ = (mine.foldl (fun s b => s.unbindWriter b.2) s) →
    exec (.seamLand f) s = answered opSeamLand f (s₁.setLane i fun x => { x with lands := x.lands.filter fun b => !(a ≤ b.1 && b.1 < a + n) }) 0 []) ∧
  (Taken opSeamLand f s → ∀ i, lanePort s (u32 f 0) 0 = .ok i → ∀ l, l = (s.lane i) → (u32 f 8 != 0 → ∃ y, names s (u32 f 8) [tRing] y) →
    (f.desk = l.owner ∨ f.desk = 0) → ∀ a, a = (u16 f 4) → ∀ n, n = (u16 f 6) → (a < l.slots) → (1 ≤ n && n ≤ 64 && a + n ≤ l.slots) →
    (seamMode s i) → ∀ mine, mine = (l.lands.filter fun b => a ≤ b.1 && b.1 < a + n) → ¬ (u32 f 8 == 0) →
    ∀ rs, landRings s f l.mult n (u32 f 8) = .ok rs → mine.isEmpty = true → ∀ s₁, State.bindWriters (laneHandle i) 2 rs a s = .ok s₁ →
    exec (.seamLand f) s = answered opSeamLand f (s₁.setLane i fun x => { x with lands := x.lands ++ rs.zipIdx.map fun r => (a + r.2, r.1) }) 0 []) ∧
  (Taken opSeamFwdSet f s → ∀ i, lanePort s (u32 f 0) 0 = .ok i → ∀ a, a = (u16 f 4) → ∀ n, n = (u16 f 6) → (a < (s.lane i).slots) →
    (1 ≤ n && n ≤ 2800 && a + n ≤ (s.lane i).slots) → ∀ l, launchAt s f 8 = .ok l → (l.kind != 1 || l.dom == 0) →
    ∀ b, bulkAt s f 24 0 11200 = .ok b → (b.len == 4 * n) → (seamMode s i) → s.jobsOf f.desk < 32 →
    exec (.seamFwdSet f) s = answered opSeamFwdSet f (s.defer f 0x1303 0 (some b) 0 0) 1 []) ∧
  (Taken opSeamFwdGet f s → ∀ i, lanePort s (u32 f 0) 0 = .ok i → ∀ a, a = (u16 f 4) → ∀ n, n = (u16 f 6) → (a < (s.lane i).slots) →
    (1 ≤ n && n ≤ 56 && a + n ≤ (s.lane i).slots) →
    exec (.seamFwdGet f) s = answered opSeamFwdGet f s 0 ((List.range n).flatMap fun k => le 4 (assoc (s.lane i).fwd (a + k)))) ∧
  (Taken opSeamIdSet f s → (1 ≤ u16 f 0) → fld f 2 2 = 0 → (!(s.lanes.any Lane.isUp)) → ∀ j, j = { s.journal with engineId := u16 f 0 } →
    exec (.seamIdSet f) s = answered opSeamIdSet f ({ s with engineId := u16 f 0, journal := j }).settleTree 0 []) ∧
  (Taken opSeamPSet f s → ∀ p, p = (u16 f 0) → (2 ≤ p && p ≤ 4096) → fld f 2 2 = 0 → s.isKeeper = true → (p ≥ s.quarry.pMin) →
    (mayTakeP s p) → (s.quarry.proposal.isNone && s.quarry.nextAt == 0) → s.jobsOf f.desk < 32 → ∀ order, order = s.orderCtr →
    ∀ s₁, s₁ = (s.defer f 0x1306 0 none 1 p) →
    ∀ s₂, s₂ = (s₁.onQuarry fun q => { q with proposal := some (p, order, [s₁.extId], s₁.members.filter (· != s₁.extId)) }) →
    exec (.seamPSet f) s = answered opSeamPSet f (s₂.sendCtrl 4 0xFFFF (settingBody 1 p 0)).tryCommit 1 []) ∧
  (Taken opSeamTest f s → ∀ i, lanePort s (u32 f 0) 0 = .ok i → ∀ l, l = (s.lane i) → (u8 f 4 ≤ 4) → (u8 f 6 ≤ 3) → fld f 7 1 = 0 →
    (seamMode s i) → ∀ runs, runs = (u8 f 4 != 0 || u8 f 6 != 0) → (!(runs && (laneBusy s i || l.isUp))) →
    ∀ e s₁, (if l.pattern == 0 then (0, s) else s.drawNat) = (e, s₁) → ∀ b s₂, (if l.pattern == 0 then (0, s₁) else s₁.drawNat) = (b, s₂) →
    ∀ s₃, s₃ = (s₂.setLane i fun x => { x.train with pattern := u8 f 4, inject := u8 f 5, loop := u8 f 6 }) →
    ∀ s₄, s₄ = (if u8 f 4 != 0 || u8 f 6 == 1 || u8 f 6 == 2 then s₃.laneTo i .test
         else if (s₃.lane i).st == .test then s₃.laneTo i .training else s₃) →
    exec (.seamTest f) s = answered opSeamTest f s₄ 0 (le 8 e ++ le 8 b))

/-- `eth.*` (R383-R392, R403, R341). -/
def Obligations.EthCompletes : Prop := ∀ (f : CmdFrame) (s : State),
  (Taken opEthInfo f s → ∀ p, ethPort s (u32 f 0) 0 = .ok p → ∀ e, e = (s.ethAt p) →
    exec (.ethInfo f) s = answered opEthInfo f s 0 (e.bytes p ++ le 1 (if e.link then 1 else 0) ++ le 1 e.speedByte ++ le 2 0 ++ counters s (ctrEth p 0) 8)) ∧
  (Taken opEthConfig f s → ∀ p, ethPort s (u32 f 0) 0 = .ok p → ∀ e, e = (s.ethAt p) → (contiguous (u32 f 8)) → (u16 f 16 ≤ 4094) →
    (u8 f 18 ≤ 1) → (u8 f 19 ≤ 1) →
    ∀ same, same = (u32 f 4 == e.addr && u32 f 8 == e.mask && u32 f 12 == e.gateway && u16 f 16 == e.vlan && (u8 f 19 == 1) == e.dhcp) →
    (same || !(ethBusy s p)) →
    ∀ s₁, s₁ = (s.setEth p fun e => { e with addr := u32 f 4, mask := u32 f 8, gateway := u32 f 12, vlan := u16 f 16,
                                                   mgmt := u8 f 18 == 1, dhcp := u8 f 19 == 1 }) →
    exec (.ethConfig f) s = answered opEthConfig f (s₁.keepEth p) 0 []) ∧
  (Taken opEthPtpConfig f s → ∀ ports, ptpPorts s f = .ok ports → (u8 f 0 ≤ 1) → (u8 f 1 ≤ 127) → (u8 f 2 ≤ 2) →
    (1 ≤ u8 f 3 && u8 f 3 ≤ 2) → ∀ n, n = (u8 f 6) → (if u8 f 2 == 2 then 2 ≤ n && n ≤ 8 else 1 ≤ n && n ≤ 2) → fld f 7 1 = 0 →
    (ports.eraseDups.length == n) → ∀ was, was = s.ptp →
    ∀ s₁ : State, s₁ = { s with ptp := { Ptp.reset with
               on := true, profile := u8 f 0, domain := u8 f 1, role := u8 f 2, step := u8 f 3, priority1 := u8 f 4, priority2 := u8 f 5,
               ports := ports, utc := was.utc, leap := was.leap } } →
    exec (.ethPtpConfig f) s = answered opEthPtpConfig f (ports.foldl (fun s₁ p => s₁.raise [(s₁.ethAt p).owner, 0] 0x1402 (le 4 (portHandle (768 + p)) ++ le 1 ptpListening ++ le 3 0)) { s₁ with ptp := { s₁.ptp with states := ports.map fun _ => ptpListening } }) 0 [])

/-- `strip.alloc` and `bus.alloc` whose checks pass, placed without consolidation, are answered OK with the new object in force
(R103, R105, R123, R124, R315). -/
def Obligations.ChanAllocCompletes : Prop := ∀ (f : CmdFrame) (s u : State) (p : List Byte),
  (Taken opStripAlloc f s → ChanAllocated 0 3 4 0xFF f s u p → exec (.stripAlloc f) s = answered opStripAlloc f u 0 p) ∧
  (Taken opBusAlloc f s → u8 f 3 ≤ 2 → (u8 f 8 ≤ 1 ∨ u8 f 8 = 0xFF) → fld f 9 3 = 0 → ChanAllocated (u8 f 3 + 1) 0 4 (u8 f 8) f s u p →
    exec (.busAlloc f) s = answered opBusAlloc f u 0 p)

/-- `port.dither.set` sets the word length of a TDM port's slots or of a Stream's channels from the next ashlar boundary (R164, R328);
`meter.tap` binds points to an object's pick-off or unbinds them (R264, R334). -/
def Obligations.DitherTapComplete : Prop := ∀ (f : CmdFrame) (s : State),
  (∀ p t, Taken opPortDitherSet f s → hType (u32 f 0) ≠ tStream → tdmPort s (u32 f 0) 0 = .ok p → t = s.port p →
    (f.desk = t.owner ∨ f.desk = 0) → u8 f 4 < t.slots → 1 ≤ u8 f 5 → u8 f 4 + u8 f 5 ≤ t.slots → u8 f 6 ∈ [0, 16, 20, 24] →
    u8 f 6 ≤ t.dataBits → fld f 7 1 = 0 → t.configured = true → t.dir = 1 → exec (.portDitherSet f) s = answered opPortDitherSet f
      (s.setPort p fun x => { x with
        dither := ditherAt x.dither x.ditherNext (8 * s.ash x.dom),
        ditherNext := some (nextBoundary s t.dom, (List.range 32).map fun k =>
          if u8 f 4 ≤ k && k < u8 f 4 + u8 f 5 then u8 f 6 else (ditherSet t.dither t.ditherNext).getD k 0) }) 0 []) ∧
  (∀ o st, Taken opPortDitherSet f s → names s (u32 f 0) [tStream] o → mayChange f o → o.stream? = some st → u8 f 4 < st.channels →
    1 ≤ u8 f 5 → u8 f 4 + u8 f 5 ≤ st.channels → u8 f 6 ∈ [0, 16, 20, 24] → u8 f 6 ≤ (if st.format = 0 then 16 else 24) →
    fld f 7 1 = 0 → st.tx = true → open' o → exec (.portDitherSet f) s = answered opPortDitherSet f
      (s.upd o.handle fun x => x.onStream fun t => { t with
        dither := ditherAt t.dither t.ditherNext (8 * s.ash o.dom),
        ditherNext := some (nextBoundary s o.dom, (List.range 64).map fun k =>
          if u8 f 4 ≤ k && k < u8 f 4 + u8 f 5 then u8 f 6 else (ditherSet st.dither st.ditherNext).getD k 0) }) 0 []) ∧
  (∀ o m, Taken opMeterTap f s → names s (u32 f 0) [tMeter] o → u32 f 8 = 0 → mayChange f o → o.meter? = some m → u16 f 4 < m.points →
    1 ≤ u16 f 6 → u16 f 4 + u16 f 6 ≤ m.points → fld f 13 1 = 0 → open' o → exec (.meterTap f) s = answered opMeterTap f
      (s.upd o.handle fun y => y.onMeter fun x =>
        { x with taps := m.taps.filter fun t => !(u16 f 4 ≤ t.point && t.point < u16 f 4 + u16 f 6) }) 0 []) ∧
  (∀ o m x u, Taken opMeterTap f s → names s (u32 f 0) [tMeter] o → u32 f 8 ≠ 0 → names s (u32 f 8) [tStrip, tBus] x → mayChange f o →
    o.meter? = some m → u16 f 4 < m.points → 1 ≤ u16 f 6 → u16 f 4 + u16 f 6 ≤ m.points → fld f 13 1 = 0 → open' o →
    pickOk x (u8 f 12) = true → u16 f 14 + u16 f 6 ≤ (x.chan?.map (·.width)).getD 0 → x.freeing = false → x.dom = o.dom →
    (∀ i, i < u16 f 6 → s.routeTo 11 (u16 f 4 + i) o.handle = none) →
    u = (s.upd o.handle fun y => y.onMeter fun z =>
      { z with taps := (m.taps.filter fun t => !(u16 f 4 ≤ t.point && t.point < u16 f 4 + u16 f 6)) ++
          (List.range (u16 f 6)).map fun i => { point := u16 f 4 + i, obj := x.handle, pick := u8 f 12, chan := u16 f 14 + i } }) →
    (∀ i, i < u16 f 6 → u.tapsOn x.handle (u16 f 14 + i) ≤ 8) → exec (.meterTap f) s = answered opMeterTap f u 0 [])

/-- `scene.store` into a new Scene keeps what it captured at its acceptance for its completion; a Scene store that completes within the
limits of R210 enters the working copy (R206, R209, R210, R303). -/
def Obligations.SceneStoreCompletes : Prop := ∀ (f : CmdFrame) (s : State),
  (∀ tTwin w tRamp tRoute tNode lawTwin lawRoute i s₁ h, Taken opSceneStore f s → u32 f 0 = 0 → u16 f 30 = 0 → u32 f 4 < 128 →
    timeAt f 8 96000 480 = .ok tTwin → timeAt f 12 32768 1024 = .ok w → timeAt f 16 96000 480 = .ok tRamp →
    timeAt f 20 96000 480 = .ok tRoute → timeAt f 24 65535 480 = .ok tNode → lawAt f 28 0 = .ok lawTwin → lawAt f 29 1 = .ok lawRoute →
    s.jobsOf f.desk < 32 → within s f.desk 9 1 = .ok () → (s.ofType tScene).length < 1024 → (s.tab tScene).pick 1 1 0 1024 = some i →
    s₁ = s.addObj { ty := tScene, idx := i, gen := 1, desk := f.desk, cls := 0xFF, dom := 3, freeing := false, job := none,
                    staged := 0, charge := 0, safe := 0, epoch := s.epoch,
                    kind := .scene { number := 0, body := SceneBody.empty, ashlar := 0, coming := none } } →
    h = ((s₁.objAt tScene i).map Obj.handle).getD 0 → ∀ objs : List Obj, objs = (s.objs.filter fun o => o.desk == f.desk && sceneKind o && !o.freeing) →
    exec (.sceneStore f) s = answered opSceneStore f ((s₁.defer f 0x0A41 h none 1 0).upd h fun x => x.onScene fun y =>
      { y with coming := some { scope := u32 f 4, tTwin := tTwin, w := w, tRamp := tRamp, tRoute := tRoute, tNode := tNode,
                                lawTwin := lawTwin, lawRoute := lawRoute, objects := objs.map Obj.handle,
                                parts := objs.flatMap (capture s (u32 f 4)),
                                bytes := sceneSize s (objs.map Obj.handle) (objs.flatMap (capture s (u32 f 4))) } }) 1 []) ∧
  (∀ d q j o y b, s.serving = true → (s.jobs.find? fun j => j.desk == d && j.seq == q && j.op == 0x0A41 && j.stage == 1) = some j → j.num ≤ 1 →
    s.obj j.handle = some o → o.scene? = some y → y.coming = some b → b.bytes ≤ 16777216 →
    s.sceneUse - y.body.bytes + b.bytes ≤ 50331648 → exec (.sceneStoreComplete d q) s =
      .next ((s.upd j.handle fun x => x.onScene fun z => { z with body := b, coming := none, ashlar := s.now }).complete j 0x0A45 0
        (le 4 j.handle ++ le 4 b.objects.length ++ le 4 b.bytes ++ le 4 0)))

/-- `scene.recall`, `scene.arm` and `scene.cancel` of a recall: a recall is held from its acceptance on, its identifier answered; one
that is cancelled loses every staged part and ends (R213-R216, R230). -/
def Obligations.RecallCommandsComplete : Prop := ∀ (f : CmdFrame) (s : State),
  (∀ o overs l id, Taken opSceneRecall f s → names s (u32 f 0) [tScene] o → mayChange f o → oversAt f 24 = .ok overs →
    launchAt s f 8 = .ok l → (l.kind = 0 ∨ l.index s 0 ≤ s.idx 0 + 2 ^ 32) → s.jobsOf f.desk < 32 → s.recalls.length < 16 →
    id = (s.recallCtr + 1) % 2 ^ 32 → exec (.sceneRecall f) s = answered opSceneRecall f
      (let t := s.defer f 0x0A43 0 none 1 id
       { t with recallCtr := id, recalls := s.recalls ++
          [{ id := id, desk := f.desk, seq := f.seq, scene := o.handle, scope := u32 f 4, kind := l.kind, num := (l.instant s).1,
             den := (l.instant s).2, plan := s.now + (if s.red.mode == 0 then 6 else 8), overs := overs, strict := strictFlag f,
             planned := false, waves := [], objs := [], recalled := 0, equal := 0, skipped := 0, last := 0, quarry := 0,
             go := false }] }) 1 (le 4 id)) ∧
  (∀ overs l id at' a m, Taken opSceneArm f s → u16 f 0 ≠ 0 → u8 f 2 ≤ 1 → fld f 3 1 = 0 → oversAt f 24 = .ok overs → launchAt s f 8 = .ok l →
    (l.kind = 0 ∨ l.index s 0 ≤ s.idx 0 + 2 ^ 32) → s.isKeeper = true → s.quarry.pMin ≤ s.quarry.p → s.jobsOf f.desk < 32 →
    s.recalls.length < 16 → id = (s.recallCtr + 1) % 2 ^ 32 →
    at' = (if l.kind = 0 then roundUp (8 * (s.now + 3 * s.quarry.p + 10)) (s.tickLen 0) else l.index s 0) →
    a = ({ id := id, desk := f.desk, seq := f.seq, number := u16 f 0, s := at', hold := u8 f 2 == 1, held := u8 f 2 == 1, sent := false,
           strict := strictFlag f, ready := [], late := [], silent := [], dropped := [], retargets := 0,
           overs := slice f.payload 24 24 } : Arm) →
    m = { quarryNone id with s := at', number := u16 f 0, strict := strictFlag f, overrides := a.overs } →
    exec (.sceneArm f) s = answered opSceneArm f
      (let t := s.defer f 0x0A45 0 none 1 id
       (({ t with arms := s.arms ++ [a], recallCtr := id } : State).tellAll 1 m).armIn m (u32 f 4)) 1 (le 4 id)) ∧
  (∀ r, Taken opSceneCancel f s → (s.recalls.find? fun r => r.id == u32 f 0) = some r → (f.desk = r.desk ∨ f.desk = 0) → r.quarry = 0 →
    s.now + 2 ≤ r.ask s / 8 → ∃ status e l, exec (.sceneCancel f) s = answered opSceneCancel f
      ({ s.unstage r with freeCtr := (s.unstage r).freeCtr + 3 }.recallDone { r with objs := [] } status e l) 0 [])

/-- `red.switch` on the active sets the boundary at which its standby-ready TARGET takes over (R462); a standby relays it, and on its
TARGET at its own boundary the same command is answered (R485). -/
def Obligations.RedSwitchCompletes : Prop := ∀ (f : CmdFrame) (s : State) (l : Launch),
  (Taken opRedSwitch f s → s.red.role = .active → (s.red.peers.any fun p => p.id == u16 f 0 && p.awaited) = true → fld f 2 2 = 0 →
    launchAt s f 4 = .ok l → ((switchAt s l).2 && strictFlag f) = false → exec (.redSwitch f) s = answered opRedSwitch f
      (s.onRed fun r => { r with switchDue := some (u16 f 0, (switchAt s l).1),
                                 sendDelta := r.sendDelta ++ [TetherRec.switch (u16 f 0) (switchAt s l).1] }) 0 (le 8 (switchAt s l).1)) ∧
  (Taken opRedSwitch f s → s.red.role = .standby → u16 f 0 = s.engineId → s.red.ready = true → fld f 2 2 = 0 →
    launchAt s f 4 = .ok l → ((switchAt s l).2 && strictFlag f) = false → exec (.redSwitch f) s = .next
      (s.onRed fun x => { x with relay := some f, sendDelta := x.sendDelta ++ [TetherRec.command s.epoch 0 0x0E02 f []] }))

/-- `domain.start`, `domain.stop` and `domain.rate.set` that pass the tests of R254 are accepted, with the sequence of R255 in progress. -/
def Obligations.RateCommandsComplete : Prop := ∀ (f : CmdFrame) (s : State) (d : Nat) (l : Launch),
  domainAt f 0 = .ok d → fld f 2 2 = 0 → launchAt s f 4 = .ok l → (l.kind = 0 ∨ l.index s d ≤ s.idx d + 2 ^ 32) → s.jobsOf f.desk < 32 →
  (∀ start t, ∀ q : RateSeq, Taken opDomainStart f s → u8 f 1 ≤ 5 → d ≠ 0 → (s.dom d).st = .stopped →
    start = (if l.kind = 0 then s.q else max s.q (if l.kind = 2 then l.val else instantOf l.val (s.fs l.dom))) →
    q = { desk := f.desk, seq := f.seq, op := 0x0A82, oldRate := (s.dom d).rate, newRate := u8 f 1, s := start,
          restart := restartIndex start (u8 f 1), qtime := none, retyped := [] } → rateTests s d q = .ok t →
    exec (.domainStart f) s = answered opDomainStart f
      (if start = (t.defer f 0x0A82 0 none 1 0).q then (t.defer f 0x0A82 0 none 1 0).haltDom d q else t.defer f 0x0A82 0 none 1 0) 1 []) ∧
  (∀ w, ∀ q : RateSeq, Taken opDomainStop f s → u8 f 1 = 0 → d ≠ 0 → (s.dom d).st ≠ .stopped → (s.dom d).launchable = true →
    (s.dom d).seq = none → w = rateWhen s l d → (w.slipped = true → strictFlag f = false) →
    q = { desk := f.desk, seq := f.seq, op := 0x0A83, oldRate := (s.dom d).rate, newRate := 0xFF, s := w.s, restart := 0,
          qtime := none, retyped := [] } → exec (.domainStop f) s = answered opDomainStop f
      (((s.setDom d fun x => { x with seq := some q }).defer f 0x0A83 0 none 1 0).slipEvent f 0x0A83 1 w) 1 []) ∧
  (∀ w t, ∀ q : RateSeq, Taken opDomainRateSet f s → u8 f 1 ≤ 5 → (s.dom d).st ≠ .stopped → w = rateWhen s l d →
    (w.slipped = true → strictFlag f = false) →
    q = { desk := f.desk, seq := f.seq, op := 0x0A84, oldRate := (s.dom d).rate, newRate := u8 f 1, s := w.s,
          restart := restartIndex (instantOf (stopIndex s d w.s) (s.fs d)) (u8 f 1), qtime := none, retyped := [] } →
    rateTests s d q = .ok t → exec (.domainRateSet f) s = answered opDomainRateSet f
      ((t.defer f 0x0A84 0 none 1 0).slipEvent f 0x0A84 1 w) 1 [])

/-- The mailbox registers (R287, R293): a host index write within what its ring holds is taken, one outside it is a pointer error that
leaves the index; the doorbells and the poll take slots in the order they were written; flags clear where a one is written, and the
error count clears on its read. -/
def Obligations.MailboxCompletes : Prop := ∀ (s : State) (d : Nat), s.dieOn = true → d ≤ 16 →
  (∀ v, exec (.cmdTailWrite d v) s = .next (
    if ringHeld v (s.desk d).cmdHead ≤ 8 ∧ ringHeld (s.desk d).cmdTail (s.desk d).cmdHead ≤ ringHeld v (s.desk d).cmdHead then
      s.setDesk d fun k => { k with cmdTail := v % 65536 } else s.pointerError d)) ∧
  (∀ v, exec (.rspHeadWrite d v) s = .next (
    if ringHeld (s.desk d).rspTail v ≤ ringHeld (s.desk d).rspTail (s.desk d).rspHead then
      s.setDesk d fun k => { k with rspHead := v % 65536 } else s.pointerError d)) ∧
  (∀ v, exec (.evtHeadWrite d v) s = .next (
    if ringHeld (s.desk d).evtTail v ≤ ringHeld (s.desk d).evtTail (s.desk d).evtHead then
      s.setDesk d fun k => { k with evtHead := v % 65536 } else s.pointerError d)) ∧
  (s.serving = true → exec (.ringCmd d) s = .next (s.takeSlots d) ∧ exec (.ringRsp d) s = .next (s.takeSlots d) ∧
    exec (.ringEvt d) s = .next (s.deliver d)) ∧
  (exec .cmdTailPoll s = .next ((List.range 8).foldl (fun s _ => (List.range 17).foldl (fun s d => s.takeSlot d) s) s)) ∧
  (∀ bs, s.serving = true → 0 < ringHeld (s.desk d).cmdTail (s.desk d).cmdHead → rspFree s d = true →
    bs = s.read (slotAddr d 0 256 ((s.desk d).cmdHead % 8)) 256 → fieldAt bs 8 2 = d →
    s.takeSlot d = (s.setDesk d fun k => { k with cmdHead := (k.cmdHead + 1) % 65536 }).frameBytes .pcie bs) ∧
  (∀ m, exec (.mailboxFlagsClear d m) s = .next (s.setDesk d fun k =>
    { k with evtLost := k.evtLost && !(bit m 2), protoErr := k.protoErr && !(bit m 3) })) ∧
  (exec (.protoErrCountRead d) s = .next ((s.emit (.readData 1 (0x10020000 + 0x40 * d + 0x24) (le 4 (s.desk d).protoErrCount))).setDesk d
    fun k => { k with protoErrCount := 0 }))

/-- Frames by the other carriers (R291, R292, R294, R312): a datagram of a desk whose authentication and transport pass is taken as a
command or as a fragment; a control record of an up lane goes where it leads; a transfer that ends carries its job on or fails it. -/
def Obligations.CarriersComplete : Prop := ∀ (s : State), s.serving = true →
  (∀ d, d.desk ≤ 16 → (s.ethAt d.port).mgmt = true → (s.ethAt d.port).carries = true → datagramOk s d = true → d.kind ≠ 4 →
    (frameOf (.udp d.addr d.srcPort) d.bytes).2.desk = d.desk → exec (.udpDatagramReceived d) s =
      .next (runOpcode (frameOf (.udp d.addr d.srcPort) d.bytes).1 (frameOf (.udp d.addr d.srcPort) d.bytes).2 s)) ∧
  (∀ d, d.desk ≤ 16 → (s.ethAt d.port).mgmt = true → (s.ethAt d.port).carries = true → datagramOk s d = false →
    exec (.udpDatagramReceived d) s = .next (s.authFailed d)) ∧
  (∀ l r, (s.lane l).isUp = true → r.typ ≠ 0 → exec (.seamControlRecord l r) s = .next (s.recordIn l r)) ∧
  (∀ f, f.desk ≤ 16 → exec (.fragmentReceived f) s = .next (s.fragmentIn f)) ∧
  (∀ d c j, s.collectJob d = some (c, j) → exec (.fragmentTimeout d) s = .next (((s.closeCollection d).endBulk j eLength).mailboxFault d 3)) ∧
  (∀ d q data j, (s.jobs.find? fun j => j.desk == d && j.seq == q &&
      (j.stage == 2 || (j.stage == 0 && (s.collectJob d).all fun c => c.2.order != j.order))) = some j →
    exec (.bulkTransferDone d q false data) s = .next ((s.endBulk j eRange).mailboxFault d 4) ∧
    exec (.bulkTransferDone d q true data) s = .next (
      if j.stage = 2 then (s.sendBulk j.frame j.num j.data).done j 0 else s.runBulk j data))

/-- The host registers (R13, R14, R412, R516-R519, R524-R527, R541-R544): reads that clear, writes of one that clear, the time capture,
the snapshot trigger, the one-way remap, and accesses through the matrix. -/
def Obligations.RegistersComplete : Prop := ∀ (s : State), s.dieOn = true →
  (exec .misfitCountRead s = .next ((s.emit (.readData 1 0x10000100 (le 4 s.host.misfitCount))).clearMisfits)) ∧
  (exec .rvCountRead s = .next ((s.emit (.readData 1 0x1000010C (le 4 s.host.rvCount))).clearViolations)) ∧
  (∀ m, exec (.irqStatusClear m) s = .next (s.onHost fun h => { h with irqStatus := w1c h.irqStatus m })) ∧
  (∀ m, exec (.stickyWrite m) s = .next (s.onTiming fun t => { t with sticky := w1c t.sticky m })) ∧
  (∃ ix, exec .quarryTimeCapture s = .next (s.onHost fun h => { h with
      capSeq := (h.capSeq + 1) % 2 ^ 32, capQ := s.q, capRaw := s.clk.raw % 2 ^ 64, capIdx := ix }) ∧
    ∀ d, d < 3 → ix.getD d 0 = if d ≠ 0 ∧ ((s.dom d).st = .stopped ∨ (s.dom d).st = .halted) then 2 ^ 64 - 1 else s.idx d) ∧
  (∀ b, s.snap.busy (b % 2) = true → exec (.snapshotTake b) s = .next { s with snap := { s.snap with bankSel := b % 2, refused := true } }) ∧
  (∀ b, s.snap.busy (b % 2) = false → exec (.snapshotTake b) s =
    .next (({ s with snap := { s.snap with bankSel := b % 2 } } : State).takeSnapshot (b % 2) (s.now + 1) 0 0 0)) ∧
  (∀ m, bit m 10 = true → exec (.snapRefusedClear m) s = .next { s with snap := { s.snap with refused := false } }) ∧
  (∀ v, bit v 0 = true → exec (.cpRemapWrite v) s = .next (s.onHost fun h => { h with cpRemap := true })) ∧
  (∀ v, bit v 0 = false → exec (.cpRemapWrite v) s = .next s) ∧
  (∀ cp o, exec (.registerPairLowRead cp o) s =
    .next ((s.regRead cp o).2.emit (.readData (if cp then 0 else 1) (0x10000000 + o) (le 4 (s.regRead cp o).1)))) ∧
  (∀ o v, o % 4 = 0 → exec (.registerWrite o v) s = .next (s.regWrite 1 o v.toNat)) ∧
  (∀ a, 1 ≤ a.bytes → a.bytes ≤ 512 → a.master ≤ 7 → ¬ (a.master = 1 ∧ 0x10040000 ≤ a.addr ∧ a.addr + a.bytes ≤ 0x10060000) →
    (∀ i, i < a.bytes → permits s a.master a.write (a.addr + i) = true) → exec (.matrixAccess a) s = .next (s.targetAccess a)) ∧
  (∀ a, 1 ≤ a.bytes → a.bytes ≤ 512 → a.master ≤ 7 → ¬ (a.master = 1 ∧ 0x10040000 ≤ a.addr ∧ a.addr + a.bytes ≤ 0x10060000) →
    (∃ i, i < a.bytes ∧ permits s a.master a.write (a.addr + i) = false) → exec (.matrixAccess a) s =
      .next ((s.violation a.master a.addr (enabled a) a.write).answerRead a (zeros a))) ∧
  (pcieBulk s = [] → exec .endpointReset s = .next (s.onHost fun h => { h with pcieUp := false })) ∧
  (exec .pcieLinkUp s = .next (s.onHost fun h => { h with pcieUp := true }))

/-- The service port (R551-R553, R567-R570): a write with a good check reaches its register and a bad one is counted; the five commands;
a read answers the register and its check; selecting a DORMANT supervisor wakes it. -/
def Obligations.ServicePortCompletes : Prop := ∀ (s : State),
  (∀ a d c, s.sv.st ≠ .off → s.sv.st ≠ .dormant → exec (.svWrite a d c) s = .next (
    if c.toNat = crc8 ([0x02, BitVec.ofNat 8 a] ++ leWord d) then s.svPut a d.toNat else s.onSv fun v => { v with spiErr := (v.spiErr + 1) % 2 ^ 32 })) ∧
  (∀ a, s.sv.st ≠ .off → s.sv.st ≠ .dormant → a ≠ 0x38 → a ≠ 0x04 → a ≠ 0x0C → a ≠ 0x14 → exec (.svRead a) s = .next (s.emit
    (.spi a (BitVec.ofNat 32 (svReg s a)) (BitVec.ofNat 8 (crc8 ([0x0B, BitVec.ofNat 8 a] ++ le 4 (svReg s a))))))) ∧
  (s.sv.st ≠ .off → s.sv.st ≠ .dormant → exec .spiErrRead s = .next ((s.emit
    (.spi 0x38 (BitVec.ofNat 32 (svReg s 0x38)) (BitVec.ofNat 8 (crc8 ([0x0B, 0x38] ++ le 4 (svReg s 0x38)))))).onSv fun v => { v with spiErr := 0 })) ∧
  (s.sv.st = .dormant → exec .svCsSelect s = .next (s.onSv fun v => { v with st := .watch })) ∧
  (s.sv.st = .watch → s.sv.vinGood = true → exec .commandWake s = .next (s.sequence 3)) ∧
  (s.sv.st ≠ .off → s.sv.st ≠ .dormant → exec .commandDormant s = .next (s.shutdown .dormant)) ∧
  (s.sv.st = .boot ∨ s.sv.st = .running ∨ s.sv.st = .stalled → 520 ≤ s.sv.vin → exec .commandRestart s = .next ((s.shutdown .watch).sequence 4)) ∧
  (s.sv.st = .stalled → exec .commandClearStall s = .next (s.onSv fun v => { v with st := .watch })) ∧
  (s.serving = true → ∃ t, exec .commandDesk0Pcie s = .next t ∧
    exec (.deskAttachEffect 0) (s.setDesk 0 fun k => { k with move := some (.pcie, 0) }) = .next t) ∧
  (exec .supervisorPowerOff s = .next s.powerOff)

/-- The supply and WAKE (R551, R553, R559, R566, R573): the sensed input moves the supervisor and arms or releases the brownout guard;
the WAKE input starts the sequence from WATCH and, where PWR_CFG says so, ends it; limits that are held stall the engine. Above the
absolute maximum the spec states nothing, and the machine stops by name. -/
def Obligations.SupplyCompletes : Prop := ∀ (s : State),
  (∀ v, v ≤ 4800 → exec (.supervisorPowerOn v) s = .next (s.sensed v) ∧ exec (.vinRiseUvlo v) s = .next (s.sensed v) ∧
    exec (.brownoutTrigger v) s = .next (s.sensed v) ∧ exec (.vinGuardFall v) s = .next (s.sensed v) ∧ exec (.vinGuardRise v) s = .next (s.sensed v)) ∧
  (∀ v, 4800 < v → exec (.supervisorPowerOn v) s = .fault .outsideRatings ∧ exec (.vinRiseUvlo v) s = .fault .outsideRatings ∧
    exec (.brownoutTrigger v) s = .fault .outsideRatings ∧ exec (.vinGuardFall v) s = .fault .outsideRatings ∧
    exec (.vinGuardRise v) s = .fault .outsideRatings) ∧
  (s.sv.st = .watch → s.sv.wake = false → s.sv.wakeAuto = true → s.sv.vinGood = true → exec .wakeHigh s = .next
    ((s.onSv fun v => { v with wake := true, why := 2 }).sequence 2)) ∧
  (s.sv.wakeLowShutdown = true → s.sv.up = true → exec .wakeLowShutdown s = .next ((s.onSv fun v => { v with wake := false }).shutdown .watch)) ∧
  (s.sv.wakeLowShutdown = false → exec .wakeLowShutdown s = .next (s.onSv fun v => { v with wake := false })) ∧
  (s.sv.st = .watch → exec .watchIdleTimeout s = .next (s.onSv fun v => { v with wake := false, st := .dormant })) ∧
  (s.sv.up = true → s.sv.railReady = 0x7F → exec .ilimHeld s = .next (s.onSv fun v => { v with ilimActive := true })) ∧
  (s.sv.up = true → s.sv.railReady ≠ 0x7F → exec .ilimHeld s = .next (s.stallHere 0x31)) ∧
  (∀ t, s.sv.up = true → t ≤ 1250 → exec (.overTemperature t) s = .next (s.onSv fun v => { v with tempEngine := twos 16 t })) ∧
  (∀ t, s.sv.up = true → 1250 < t → exec (.overTemperature t) s = .next (s.stallHere 0x32))

/-- SEQUENCING and BOOT (R554-R565, R571): each step in order, the retry, the image checks, the chunks of the host load, the watchdog,
the anti-rollback count and the entry into RUNNING; the converter's phases (R560). -/
def Obligations.StartupCompletes : Prop := ∀ (s : State),
  (∀ p k, s.sv.st = .sequencing → s.sv.retryWait = false → s.sv.step = 1 → exec (.sequencingStepReady p k) s =
    .next (s.onSv fun v => { v with railReady := 1, step := v.step + 1 })) ∧
  (∀ p k, s.sv.st = .sequencing → s.sv.retryWait = false → s.sv.step = 9 → exec (.sequencingStepReady p k) s =
    .next ((s.onSv fun v => { v with rootLock := true, strap := k % 4, step := v.step + 1 }).onHost fun h => { h with strap := k % 4 })) ∧
  (∀ p k, s.sv.st = .sequencing → s.sv.retryWait = false → s.sv.step = 10 → s.sv.pass = 1 → exec (.sequencingStepReady p k) s =
    .next (s.onSv fun v => { v with st := .boot, step := 0, dramReady := true, imageOk := false,
                                    ldWait := v.source == 5, ldState := 0, ldChunk := 0, load := [] })) ∧
  (s.sv.st = .sequencing → s.sv.retryWait = false → s.sv.pass = 1 → exec .sequencingStepTimeout s =
    .next (s.backDown.onSv fun v => { v with failedStep := s.sv.step })) ∧
  (s.sv.st = .sequencing → s.sv.retryWait = false → s.sv.pass = 2 → exec .sequencingStepTimeout s = .next (s.stall s.sv.step s.sv.step 2)) ∧
  (s.sv.st = .sequencing → s.sv.retryWait = true → exec .sequenceRetry s =
    .next (s.onSv fun v => { v with retryWait := false, pass := 2, step := 1 })) ∧
  (∀ v, s.sv.st = .boot → s.sv.imageOk = false → s.sv.order.head? = some v.slot → (v.slot = 2 → s.sv.ldState = 1) →
    exec (.imageCheckDone v) s = .next (if failedCheck s v = 0 then s.startImage v else s.refuseImage v.slot)) ∧
  (∀ n data, s.loading = true → s.sv.imageOk = false → s.sv.ldState ≠ 1 → exec (.bootChunkPost n 0 data) s =
    .next ((s.write (mailboxBase + 0x19848) (le 4 n ++ le 4 0 ++ le 4 0)).onSv fun v => { v with ldState := 1 })) ∧
  (s.sv.st = .boot → s.sv.source = 5 → s.sv.imageOk = false → s.sv.ldState ≠ 1 → exec .hostLoadTimeout s = .next (s.stallBoot 0x21)) ∧
  (s.sv.st = .boot → s.sv.imageOk = true → 1 ≤ s.sv.watchdogs → exec .firmwareWatchdogExpiry s = .next (s.stallBoot 0x22)) ∧
  (∀ vio r fl u, s.sv.st = .boot → s.sv.imageOk = true → r ≤ 5 →
    u = ((((({ s with journal := { s.journal with runId := (s.journal.runId + 1) % 2 ^ 32 } } : State).restoreFailed.repair fl).restoreConfig).restoreSteer).reconcile) →
    ∃ t, exec (.firmwareReady vio r fl) s = .next t ∧ t = (State.startA ((((u.onHost fun h =>
        { h with bankVio := (List.range 8).map fun k => vio.getD k 0 % 4, bankStart := (List.range 8).map fun k => vio.getD k 0 % 4,
                 bankLost := [], masters := shippedMasters }).newPhases.logRetry).onSv fun v =>
          { v with st := .running, bootOverride := 0, skipped := [], watchdogs := 0, ldState := 0, ldWait := false })) r).restoreRed) ∧
  (s.serving = true → s.journal.antiRollback < s.sv.svn → exec .antiRollbackBurn s =
    .next { s with journal := { s.journal with antiRollback := s.sv.svn } }) ∧
  (∀ p, s.sv.up = true → bit s.sv.phaseOk p = true → p ∉ s.faults.phaseTrying → 5 ≤ phaseCount s.sv.phaseOk →
    phaseCount (s.sv.phaseOk - 2 ^ p) + 1 = phaseCount s.sv.phaseOk → exec (.phaseFault p) s =
      .next (s.onSv fun v => { v with phaseOk := v.phaseOk - 2 ^ p }).spareNow) ∧
  (∀ p, s.sv.up = true → p < 7 → bit s.sv.railReady 2 = true → bit s.sv.phaseOk p = false → bit s.sv.phaseFailed p = false →
    exec (.phaseRetry p) s = .next ((s.onFaults fun x => { x with phaseTrying := p :: x.phaseTrying }).onSv fun v =>
      { v with phaseOk := v.phaseOk + 2 ^ p })) ∧
  (∀ p, s.serving = true → p ∈ s.faults.phaseTrying → exec (.phaseClean p) s =
    .next ((s.onFaults fun x => { x with phaseTrying := x.phaseTrying.filter (· != p) }).spareNow.faultRecord 5 1 p 0))

/-- The engine at work in a domain that runs (R26, R37, R68, R75, R77, R80, R83-R86, R264, R273, R274): an ashlar slot, a control tick,
the launches of the next boundary, the twins and crossfades that start or end there; a stopped domain's changes are in force at once. -/
def Obligations.DomainWorkCompletes : Prop := ∀ (s : State) (d : Nat), s.dieOn = true → d ≤ 2 →
  ((s.dom d).runs = true → (∀ v e, exec (.ashlarSlot d v e) s = .next (s.runSlot d v e)) ∧ exec (.controlTick d) s = .next (s.runTick d) ∧
    exec (.scheduledLaunch d) s = .next ((s.launchAll d (8 * (s.dom d).next)).launchRoutes d (8 * (s.dom d).next - 8)) ∧
    exec (.twinWarmupStart d) s = .next (s.startTwins d (s.dom d).next) ∧
    (0 < (s.dom d).next → exec (.kerfComplete d) s = .next (s.finishKerfs d ((s.dom d).next - 1)))) ∧
  ((s.dom d).st = .stopped → exec (.scheduledLaunch d) s = .next (s.forceDue d (s.idx d))) ∧
  (∀ h o m, s.obj h = some o → o.meter? = some m → m.loud = true → o.dom = d → (s.dom d).runs = true →
    exec (.loudnessBlockStep h) s = .next (s.loudStep o m)) ∧
  (∀ h o r, s.ringAt h = some (o, r) → o.dom = d → r.writer ≠ 0 → r.lastWrite + 65536 ≤ s.ash d → exec (.writerSilenceTimeout h) s =
    .next ((s.clearTags r.rows).modObj tRing h fun x => x.onRing fun r => { r with first := none, body := [] })) ∧
  (∀ q, (s.dom d).seq = some q → (s.dom d).st = .fadingOut → exec (.domainStopInstant d) s = .next (s.stopInstant d q)) ∧
  (∀ q, (s.dom d).seq = some q → (s.dom d).st = .halted → (q.qtime = none ∨ q.qtime = some 0) →
    exec (.domainRestartInstant d) s = .next (s.restartInstant d q)) ∧
  (∀ q, (s.dom d).seq = some q → (s.dom d).st = .fadingIn → q.restart = (s.dom d).fadeFrom →
    exec (.domainFadeInEnd d) s = .next (s.fadeInEnd d q))

/-- Faults, spares and snapshots (R88, R189-R192, R353, R482-R493, R514-R520): what the hardware finds is recorded and acted on; a copy
that has ended switches the map; a latched snapshot fills its bank; a lockstep mismatch halts control. -/
def Obligations.RepairsComplete : Prop := ∀ (s : State), s.dieOn = true →
  (∀ r p b w o x, s.faults.moving.contains (r, p, b, w) = true → s.ringAt r = some (o, x) → exec (.relocationSwitch r p b w) s = .next
    (((s.onFaults fun x => { x with moving := x.moving.filter (· != (r, p, b, w)) }).moveRow r p (b, w)).ringMoved r
      ((x.rows[p]?).getD (0, 0)).1 (b, w))) ∧
  (∀ es, exec (.scrubPass es) s = .next (es.foldl (fun s e => s.memError e) s)) ∧
  (∀ b, exec (.bankSpareSwitch b) s = .next (s.switchSpare 3 b)) ∧
  (∀ a, (s.faults.work.any fun w => w.kind == 2 && w.failed == a) = true → exec (.arraySpareSwitch a []) s = .next (s.switchSpare 2 a)) ∧
  (∀ a b l t, (s.moves.find? fun m => m.source == a && m.target == b) = some t → exec (.transplantSwitch a b false l) s =
    .next (s.switchMove t l)) ∧
  (∀ k u, s.serving = true → idleUnit s k u = true → exec (.backgroundTest k u false) s = .next (s.lasting k u 0) ∧
    exec (.backgroundTest k u true) s = .next (if k = 1 then s.setCore u fun c => { c with suspect := false } else s)) ∧
  (∀ k u t, s.serving = true → (s.faults.work.any fun w => w.kind == k && w.test) = false →
    (s.faults.tests.find? fun t => t.1 == k && t.2.1 == u) = some t →
    exec (.spareTestComplete k u true) s = .next (s.startSwap k t.2.2.1 u true) ∧
    exec (.spareTestComplete k u false) s = .next (s.lasting k u 0)) ∧
  (∃ t, exec .lockstepMismatch s = .next t ∧ t.halted = true) ∧
  (∀ b p, (s.snap.pending.find? fun p => p.bank == b) = some p → p.counts = none → (s.dom 0).runs = true → p.gap = false →
    p.ashlar < (s.dom 0).next → exec (.snapshotLatch b) s = .next
      ((s.carryTo (instantOf (8 * (p.ashlar + 1)) (s.fs 0))).writeBank p (s.carryTo (instantOf (8 * (p.ashlar + 1)) (s.fs 0))).ctrs)) ∧
  (∀ b a k n, s.extId ≠ 0 → exec (.quarrySnapshotRecord b a k n) s = .next (
    if b ≤ 1 ∧ s.now + 2 ≤ a ∧ s.snap.busy b = false then s.takeSnapshot b a 2 k n else s))

/-- Clocks and references (R403-R410, R436-R444): an update of the loop, an event of a reference, a candidate found or lost, a step
applied, the end of holdover, the calibration record. -/
def Obligations.ClockEventsComplete : Prop := ∀ (s : State), s.dieOn = true →
  (∀ f t, s.decides = true → s.timing.selected.isSome = true → (s.timing.st = .acquiring ∨ s.timing.st = .locked) → s.drawInt = (f, t) →
    exec .pllUpdate s = .next (if (t.steerBy f true).timing.st = .locked then
      (t.steerBy f true).onTiming fun x => { x with fPast := (f :: x.fPast).take 61000 } else t.steerBy f true)) ∧
  (∀ c e q, c < 8 → exec (.referenceEvent c e q) s = .next (s.referenceIn c e q)) ∧
  (∀ c, c < 8 → (s.cand c).enable = true → (s.cand c).present = true → 0 < s.candQuality c → exec (.candidateValid c) s =
    .next (s.setCand c fun c => { c with valid := true }).reselect) ∧
  (∀ c, c < 8 → ((s.cand c).valid = true ∨ (s.cand c).present = true) → exec (.candidateLost c) s = .next (s.loseCand c)) ∧
  (∀ e i a b, s.timing.stepDue = some (e, i, a, b) → s.setting = false → exec .phaseStepApply s =
    .next ((s.onTiming fun t => { t with stepDue := none }).phaseStep e i a b)) ∧
  (∀ t, holdExpiry s.timing = some t → s.timing.st = .holdover → s.timing.expired = false → exec .holdoverExpiry s =
    .next ((s.carryTo (s.timing.holdFrom + t)).expireHold).reselect) ∧
  (s.timing.st = .locked → ∃ h t, exec .calibrationWrite s = .next t ∧ t.journal.calib = [h] ∧
    (s.timing.fPast.drop 1000 = [] → h = s.timing.f))

/-- Field and TDM ports (R142, R411-R434): a frame moves its port's words; a lost clock, and one that has come back for 16 frames, is
decided; a sample debounces every input; a tripped output is retried once and latched off when it trips again. -/
def Obligations.PortEventsComplete : Prop := ∀ (s : State), s.dieOn = true →
  (∀ p f, exec (.tdmFrame p f) s = .next (s.tdmFrame p f)) ∧
  (∀ p, p < 128 → (s.port p).configured = true → (s.port p).lost = false → s.red.role = .single →
    exec (.tdmClockLoss p) s = .next (s.clockLost p)) ∧
  (∀ p, p < 128 → (s.port p).lost = true → 16 ≤ (s.port p).valid → s.red.role = .single → p / 16 ∉ s.host.bankLost →
    exec (.portClockRecovered p) s = .next (s.setPort p fun t =>
      { t with lost := false, paired := false, ages := [], slipDue := [], slipSinceCentre := false,
               fade := if t.dir == 0 then GainRec.start oneW t.fade.value 48 else t.fade })) ∧
  (∀ mv, s.serving = true → exec (.gpiSample mv) s = .next ((mv.take 32).zipIdx.foldl (fun s m => s.sampleGpi m.2 m.1) s)) ∧
  (∀ g, s.serving = true → g < 32 → (s.gpiAt g).seen = true → (s.gpiAt g).reading ≠ (s.gpiAt g).accepted → exec (.gpiChangeAccepted g) s =
    .next ((s.carryTo ((s.gpiAt g).since + (s.gpiAt g).debounce * (secondQ / 1000))).acceptGpi g)) ∧
  (∀ g, g < 32 → (s.gpoAt g).on = true → (s.gpoAt g).trip ≠ 2 → ∃ t, exec (.gpoOvercurrent g) s = .next t ∧
    t = (s.addCtr (ctrGpo g 0) 1).setGpo g fun x => { x with on := false, trip := 1, tripAt := s.q }) ∧
  (∀ g, g < 32 → (s.gpoAt g).trip = 1 → (s.gpoAt g).latched = false → (s.gpoAt g).commanded = true → exec (.gpoRetry g) s =
    .next (s.setGpo g fun x => { x with on := true, trip := 2, retryAt := s.q })) ∧
  (∀ g, g < 32 → (s.gpoAt g).trip = 2 → (s.gpoAt g).on = true → exec (.gpoRetryHeld g) s = .next (s.gpoTrip g 1)) ∧
  (∀ g, s.serving = true → g < 32 → (s.gpoAt g).on = false → (s.gpoAt g).stuckTold = false → exec (.gpoStuckLowTimeout g) s =
    .next (((s.setGpo g fun x => { x with stuckTold := true }).addCtr (ctrGpo g 2) 1).raiseObj (s.gpoAt g).owner 0x0906
      (le 4 (portHandle (1056 + g)))))

/-- Seam lanes (R92, R94, R357-R377): what a lane hears and sends, how it trains, comes up and falls, its repeats and its relays. -/
def Obligations.LaneEventsComplete : Prop := ∀ (s : State) (l : Nat), s.dieOn = true →
  (∀ h, hears s l = true → (h.ok && h.ashOk) = false → exec (.seamHeaderReceived l h) s = .next (s.headerBad l)) ∧
  (∀ h, hears s l = true → h.ok = true → h.ashOk = true → loopsBack (s.headerIn l h) l = false → ((s.headerIn l h).lane l).isUp = true →
    exec (.seamHeaderReceived l h) s = .next ((s.headerIn l h).recordsIn l h.records)) ∧
  (∀ p g, hears s l = true → loopsBack s l = false → (s.lane l).isUp = true → exec (.segmentReceived l p g) s =
    .next ((s.segmentIn l p g).2.recordsIn l (s.segmentIn l p g).1)) ∧
  (∀ p fr x, (s.lane l).isUp = true → (s.lane l).resendable p fr s.frame = some x → exec (.nakReceived l p fr true) s =
    .next ((s.setLane l fun y => { y with owed := y.owed ++ [(p, x)] }).fillFrame l)) ∧
  (∀ p fr, (s.lane l).isUp = true → exec (.nakReceived l p fr false) s = .next (s.addCtr (ctrLane l 4) 1)) ∧
  (∀ g a, ((s.lane l).windows.any fun w => w.seg == g && w.ashlar == a) = true → 28 ≤ g → exec (.retryWindowClose l g a) s =
    .next (s.setLane l fun x => { x with windows := x.windows.filter (fun w => !(w.seg == g && w.ashlar == a)),
                                         held := (g, a) :: x.held })) ∧
  (seamMode s l = true → (s.lane l).st = .down → exec (.laneSignalDetect l) s = .next ((s.setLane l Lane.train).laneTo l .training)) ∧
  ((s.lane l).st = .training → 3 ≤ (s.lane l).valid → s.extId ≠ 0 → (s.lane l).peer ≠ 0 → (s.lane l).peer ≠ s.extId →
    exec (.laneUp l) s = .next (s.laneTo l .up)) ∧
  ((s.lane l).isUp = true → exec (.laneAshTimeout l) s = .next (((s.laneTo l .down).setLane l Lane.train).laneTo l .training)) ∧
  (((s.lane l).relays.any fun r => decide (r.since + 32 ≤ s.now)) = true → exec (.ctrlRecordExpiry l) s =
    .next ((s.setLane l fun x => { x with relays := x.relays.filter fun r => !(r.since + 32 ≤ s.now) }).addCtr (ctrLane l 7)
      ((s.lane l).relays.filter fun r => r.since + 32 ≤ s.now).length))

/-- The quarry's control (R49-R53, R363, R377-R382): reports to the keeper, the proposal of a new P with its votes, its commit and the
instant it is in force. -/
def Obligations.QuarryControlCompletes : Prop := ∀ (s : State), s.dieOn = true → s.extId ≠ 0 →
  (exec .topologyReportSend s = .next s.sendReport) ∧
  (∀ e es, s.isKeeper = true → exec (.topologyReport e es) s = .next
    ((s.onQuarry fun q => { q with reports := (e, es) :: q.reports.filter fun r => r.1 != e }).settleTree)) ∧
  (∀ p src, s.isKeeper = false → exec (.pPropose p src) s =
    .next (s.sendCtrl 4 src (settingBody (if mayTakeP s p then 2 else 3) p 0))) ∧
  (∀ e, exec (.pAccept e false) s = .next (s.acceptIn e false) ∧ exec (.pAccept e true) s = .next (s.acceptIn e true)) ∧
  (∀ p order y w, s.quarry.proposal = some (p, order, y, w) → w ≠ [] → exec .pVoteTimeout s = .next (s.failP order)) ∧
  (∀ p a, s.isKeeper = false → exec (.pCommit p a) s = .next (s.onQuarry fun q => { q with nextP := p, nextAt := a })) ∧
  (∀ u, s.quarry.nextAt ≠ 0 → u = s.carryTo (instantOf (8 * s.quarry.nextAt) (s.fs 0)) → u.quarry.proposal = none → exec .pChangeApply s =
    .next ((u.onQuarry fun q => { q with p := q.nextP, nextAt := 0, proposal := none }).raise0 0x1304
      (le 2 u.quarry.nextP ++ le 2 0 ++ le 8 u.quarry.nextAt))) ∧
  (∀ u t p order y w j, s.quarry.nextAt ≠ 0 → u = s.carryTo (instantOf (8 * s.quarry.nextAt) (s.fs 0)) →
    u.quarry.proposal = some (p, order, y, w) →
    t = (u.onQuarry fun q => { q with p := q.nextP, nextAt := 0, proposal := none }).raise0 0x1304
      (le 2 u.quarry.nextP ++ le 2 0 ++ le 8 u.quarry.nextAt) → (t.jobs.find? fun j => some j.order == some order) = some j →
    exec .pChangeApply s = .next (t.done j 0))

/-- The redundancy pair (R454-R481): frames of a peer, its loss, the ownership wires, the fence and the roles they lead to. -/
def Obligations.RedundancyEventsComplete : Prop := ∀ (s : State), s.dieOn = true →
  (∀ i f, s.red.mode ≠ 0 → exec (.tetherFrameReceived i f) s = .next (s.tetherIn i f)) ∧
  (∀ i p, s.peer i = some p → p.seen = true → p.lost = false → exec (.peerLostTimeout i) s = .next (s.losePeer i p)) ∧
  (s.red.mode ≠ 0 → exec .tetherSelfRelease s = .next (s.onRed fun r => { r with ownOut := false, settle := false, backoff := false })) ∧
  (∀ i p, s.peer i = some p → s.red.role = .active → p.awaited = true → exec (.ackTimeout i) s =
    .next (s.setPeer i fun p => { p with hdr := { p.hdr with ready := false, role := 3 } }).releaseHeld) ∧
  (s.red.role = .forming → (s.red.peers.any fun p => p.seen) = false → exec .formationTimeout s =
    .next ((if s.red.ownIn.any id then s.goStale else s.goActive).redDone 0x0E01 0)) ∧
  (∀ i, i < 2 → s.red.ownIn.getD i false = true → exec (.ownReleaseSensed i) s =
    .next (s.onRed fun r => { r with ownIn := modAt r.ownIn i fun _ => false }).tryTakeover) ∧
  (∀ i, i < 2 → s.red.settle = false → exec (.ownAssertSensed i) s = .next (s.onRed fun r => { r with ownIn := modAt r.ownIn i fun _ => true })) ∧
  (∀ i, i < 2 → s.red.settle = true → exec (.ownAssertSensed i) s = .next (s.onRed fun r =>
    { r with ownIn := modAt r.ownIn i fun _ => true, ownOut := false, settle := false, backoff := true })) ∧
  (s.red.settle = true → s.red.ownOut = true → (s.red.ownIn.any id) = false → s.red.role ≠ .standby → exec .takeoverSettleEnd s =
    .next ((s.onRed fun r => { r with settle := false, switchDue := none }).setRole .active)) ∧
  (s.red.settle = true → s.red.ownOut = true → (s.red.ownIn.any id) = false → s.red.role = .standby → exec .takeoverSettleEnd s =
    .next ((({ s with desks := s.desks.map Desk.resume } : State).onRed fun r => { r with settle := false, switchDue := none }).setRole .active)) ∧
  (s.red.backoff = true → (s.red.ownIn.any id) = true → exec .ownCollisionBackoff s = .next (s.onRed fun r => { r with backoff := false })) ∧
  (s.red.backoff = true → (s.red.ownIn.any id) = false → s.red.fenced = false → exec .ownCollisionBackoff s =
    .next (s.onRed fun r => { r with ownOut := true, settle := true, backoff := false })) ∧
  (s.red.mode = 2 → exec .fenceAsserted s = .next (s.onRed fun r => { r with fenced := true }).goStale) ∧
  (s.red.fenced = true → exec .fenceReleased s = .next (s.onRed fun r => { r with fenced := false }))

/-- The network side (R383-R409, R449-R453): frames and link changes of a port, addresses, PTP messages and Stream packets. -/
def Obligations.NetworkEventsComplete : Prop := ∀ (s : State) (p : Nat), s.dieOn = true →
  (∀ f, (s.ethAt p).carries = true → (s.frameIn p f).1 = false → exec (.ethFrameReceived p f) s = .next (s.frameIn p f).2) ∧
  (∀ f d, (s.ethAt p).carries = true → (s.frameIn p f).1 = true → f.body = .ruzia d → exec (.ethFrameReceived p f) s =
    .next ((s.frameIn p f).2.datagramIn { d with port := p })) ∧
  (∀ f, (s.ethAt p).carries = true → (s.frameIn p f).1 = true → (∀ d, f.body ≠ .ruzia d) → exec (.ethFrameReceived p f) s =
    .next ((s.frameIn p f).2.netIn p f)) ∧
  (∀ u v t, (resolvePort s (portHandle (768 + p)) 0).toBool = true →
    t = (s.setEth p fun e => { e with link := u, speed := if u then v else 0 }) → (t.ethAt p).carries = false →
    exec (.ethLinkChange p u v) s = .next (t.raiseObj (t.ethAt p).owner 0x1401
      (le 4 (portHandle (768 + p)) ++ le 1 (if u then 1 else 0) ++ le 1 (t.ethAt p).speedByte ++ le 2 0))) ∧
  (∀ ip, (s.ethAt p).carries = true → ((s.ethAt p).arp.any fun a => a.1 == ip) = true → arpUsed s p ip = true → exec (.arpRefresh p ip) s =
    .next ((s.emit (.ethSend p 1 [ip])).txFrame p (64 + tagOctets s p))) ∧
  (∀ a m g, s.serving = true → (s.ethAt p).dhcp = true → (s.ethAt p).carries = true → (s.ethAt p).addr ≠ a →
    exec (.dhcpLeaseEvent p a m g) s = .next ((s.setEth p fun e => { e with addr := a, mask := m, gateway := g }).raiseObj (s.ethAt p).owner 0x1403
      (le 4 (portHandle (768 + p)) ++ le 4 a ++ le 4 m ++ le 4 g))) ∧
  (∀ e, s.ptp.on = true → s.ptp.ports.contains p = true → (s.ethAt p).carries = true → ptpStateOf (s.addCtr (ctrEth p 6) 1) p = ptpSlave →
    exec (.ptpMessageReceived p (.sync e)) s = .next ((s.addCtr (ctrEth p 6) 1).ptpMeasure p e)) ∧
  ((s.ethAt p).carries = true → ptpServes s.ptpRefresh p = true → s.ptpRefresh.ptp.step = 1 → exec (.ptpMessageInterval p ptpSync) s =
    .next (s.ptpRefresh.ptpOut p ptpSync 44 [])) ∧
  (s.ptp.on = true → s.ptp.ports.contains p = true → exec (.announceReceiptTimeout p) s = .next (State.ptpSettle
    { s with ptp := { s.ptp with foreign := s.ptp.foreign.filter (fun x => x.1 != p), silent := (p :: s.ptp.silent).eraseDups } })) ∧
  (∀ h o x, s.obj h = some o → o.stream? = some x → x.tx = true → (s.dom o.dom).runs = true →
    x.silentAt (x.next * x.n (s.mult o.dom)) = false → exec (.streamPacketLaunch h) s = .next (s.launchPacket o x)) ∧
  (∀ r, p < 32 → (s.ethAt p).carries = true → exec (.streamPacketReceived p r) s = .next (s.rtpIn p r)) ∧
  (∀ h o x k, s.obj h = some o → o.stream? = some x → x.hasPath k = true → x.up.getD (k - 1) false = true →
    exec (.streamPathDownTimeout h k) s = .next (s.setPath o k false)) ∧
  (∀ h o x k, s.obj h = some o → o.stream? = some x → x.hasPath k = true → x.up.getD (k - 1) true = false → 8 ≤ x.runs.getD (k - 1) 0 →
    exec (.streamPathUp h k) s = .next (s.setPath o k true))

/-- What ends a deferred command and what a quarry recall's messages do (R117, R166, R217, R229-R238, R278, R340): a node load, a package
check, a capture, a recall's plan point, and the keeper's and the other engines' records. -/
def Obligations.CompletionEventsComplete : Prop := ∀ (s : State), s.serving = true →
  (∀ n j o t l w u, (s.jobs.find? fun j => j.order == n && j.op == 0x0505 && j.stage == 1) = some j → s.obj j.handle = some o →
    o.tiles? = some t → nodeRecordsOk t 0 0 (nodeRecords (u32 j.frame 24) j.data) = .ok () → launchAt s j.frame 4 = .ok l →
    applyNodes s o j.frame l (u32 j.frame 20) (nodeRecords (u32 j.frame 24) j.data) = .ok (w, u) →
    exec (.nodeLoadComplete n) s = .next ((u.slipEvent j.frame 0x0505 1 w).nodeStaged j 0)) ∧
  (∀ a b j p, (s.jobs.find? fun j => j.op == 0x1102 && j.stage == 1) = some j → packageCheck s j.data a b = .ok p →
    exec (.packageCheckDone a b) s = .next (({ s with packages := s.packages ++ [p] } : State).complete j 0x1101 0
      (le 4 p.id ++ le 2 p.types.length ++ le 2 0))) ∧
  (∀ a b j n e, (s.jobs.find? fun j => j.op == 0x1102 && j.stage == 1) = some j → packageCheck s j.data a b = .error (n, e) →
    exec (.packageCheckDone a b) s = .next (s.complete j 0x1102 e (le 1 n ++ le 3 0))) ∧
  (∀ h o c, s.obj h = some o → o.capture? = some c → c.st = .freezing → c.f + c.post ≤ 8 * ((s.dom o.dom).next - 1) →
    exec (.captureStopIndexReached h) s = .next ((s.upd o.handle fun x => x.onCapture fun c => { c with st := .frozen }).raiseObj o.desk 0x1201
      (le 4 o.handle ++ le 4 0 ++ le 8 c.f))) ∧
  (∀ h o c p, s.obj h = some o → o.capture? = some c → c.play = some p → c.st = .playing → p.after c.tPlay ≤ 8 * (s.dom o.dom).next →
    exec (.capturePlayEnd h) s = .next ((s.upd o.handle fun x => x.onCapture fun c => { c with st := .frozen, play := none }).raiseObj o.desk 0x1203
      (le 4 o.handle ++ le 4 0 ++ le 8 (p.after c.tPlay)))) ∧
  (∀ i r, (s.recalls.find? fun r => r.id == i) = some r → r.plan ≠ noPlan → r.quarry = 0 → r.planned = false → storeFirst s r = false →
    exec (.recallPlanPoint i) s = .next ((s.carryTo (instantOf (8 * r.plan) (s.fs 0))).planPoint r)) ∧
  (∀ i a, s.arm i = some a → a.sent = false → exec (.keeperDecisionPoint i) s =
    .next ((s.carryTo (instantOf (8 * (a.s / 8 - 4 - s.quarry.p)) (s.fs 0))).decidePoint a)) ∧
  (∀ i r, (s.recalls.find? fun r => r.id == i) = some r → r.waits = true → exec (.recallOrphanDeadline i) s =
    .next ((s.carryTo (instantOf (8 * (r.ask s / 8)) (s.fs 0))).orphan r)) ∧
  (∀ m, s.extId ≠ 0 → s.isKeeper = false → exec (.quarryArm m) s = .next (s.armIn m 0xFFFFFFFF) ∧
    exec (.quarryRetarget m) s = .next (s.retargetIn m) ∧ exec (.quarryGo m) s = .next (s.goIn m) ∧ exec (.quarryAbort m) s = .next (s.abortIn m)) ∧
  (∀ m, s.extId ≠ 0 → s.isKeeper = true → exec (.quarryReady m) s = .next (s.keeperReady m.recallId m.engine m.s) ∧
    exec (.quarryLate m) s = .next (s.keeperLate m.recallId m.engine m.s))

/-- A step takes the command at the front of the queue and runs it with the queue's rest; on an empty queue a TIME cycle passes, which
is the model's choice (log entry 5): RAW of a RUNNING engine with no restart due and WAKE low counts one. -/
def Obligations.StepTakesTheFront : Prop := ∀ (s : State),
  (∀ c cs, step { s with pending := c :: cs } = exec c { s with pending := cs }) ∧
  (s.pending = [] → s.dieOn = true → s.host.restart = none → s.sv.wake = false → ∃ t, step s = .next t ∧ t.clk.raw = s.clk.raw + 1 ∧
    t.pending = [] ∧ t.mem = s.mem ∧ t.objs = s.objs ∧ t.desks = s.desks) ∧
  (s.pending = [] → s.sv.st = .watch → s.sv.wake = false → s.host.restart = none → step s = .next s)

/-- The machine after reset: every supervisor register as the table of R570 gives it with nothing supplied, no desk open, no object, an
empty memory in canonical form, nothing counted, and the engine die off. -/
def Obligations.ResetState : Prop :=
  offInert State.reset ∧ State.reset.pending = [] ∧ memWf State.reset.mem = true ∧ State.reset.objs = [] ∧ State.reset.ctrs = [] ∧
  State.reset.desks.length = 17 ∧ (∀ d, d < 17 → (State.reset.desk d).isOpen = false ∧ (State.reset.desk d).cmdTail = 0 ∧
    (State.reset.desk d).cmdHead = 0 ∧ (State.reset.desk d).protoErrCount = 0) ∧
  (∀ d, d < 3 → (State.reset.dom d).st = .stopped) ∧ State.reset.host.cpRemap = false ∧ State.reset.clk.raw = 0 ∧
  (State.reset.sv.vinGuard = 600 ∧ State.reset.sv.ilim = 11000 ∧ State.reset.sv.fsw = 1 ∧ State.reset.sv.spread = false ∧
    State.reset.sv.wakeAuto = true ∧ State.reset.sv.wakeLowShutdown = true ∧ State.reset.sv.fadeAtGuard = false ∧
    State.reset.sv.tempEngine = 0x8000 ∧ State.reset.sv.resetCause = 1 ∧ State.reset.sv.spiErr = 0 ∧ State.reset.sv.railReady = 0)

/-- With the engine die off, no command of the engine's side does anything: not one register, byte of memory or queue changes. -/
def Obligations.EngineOffIsInert : Prop := ∀ (s : State) (c : Instr), s.dieOn = false → supervisorSide c = false → exec c s = .next s

/-- While only commands of the engine's side wait, an engine die that is off stays off, whatever runs, idle cycles included. -/
def Obligations.OffStaysOff : Prop := ∀ (s t : State), offInert s → step s = .next t → offInert t

/-- The engine die comes on in one way only: the last step of the sequence is ready (R554). -/
def Obligations.OnlyTheSequencePowersTheDie : Prop := ∀ (s t : State) (c : Instr), s.dieOn = false → exec c s = .next t → t.dieOn = true →
  (∃ p k, c = .sequencingStepReady p k) ∧ s.sv.st = .sequencing ∧ s.sv.retryWait = false ∧ t.sv.st = .boot ∧ t.sv.dramReady = true

/-- Every command runs in every state: the machine stops only where the input voltage is above 48.00 V, where R573 states no function. -/
def Obligations.OnlyOverVoltageStops : Prop := ∀ (s : State) (c : Instr),
  (∃ t, exec c s = .next t) ∨ (exec c s = .fault .outsideRatings ∧ ∃ v, sensedVin c = some v ∧ 4800 < v)

/-- Steps 1, 2 and 5 to 7 of R309 for every Ruzia command: a frame is not taken unless the engine serves; its length, its reserved bits,
its opcode's length, the session, desk 0 and the standby rule are checked in this order, and a refusal has no other effect. -/
def Obligations.RuziaChecksInOrder : Prop := ∀ (s : State) (c : Instr) (op : Nat) (f : CmdFrame) (o : RuziaOp),
  ruziaOf c = some (op, f) → rowOf op = some o →
  (s.serving = false → exec c s = .next s) ∧
  (takeable s f = true → 240 < f.len → exec c s = .next (s.turnAway op f { status := eLength })) ∧
  (takeable s f = true → f.len ≤ 240 → f.payload.length = f.len → (8 ≤ f.flags ∨ f.res ≠ 0) →
    exec c s = .next (s.turnAway op f { status := eRange })) ∧
  (Arrived op f s → o.lenOk f = false → exec c s = .next (s.refusedWith op f { status := eLength })) ∧
  (Arrived op f s → o.lenOk f = true → (s.desk f.desk).isOpen = false → sessionFree op = false →
    exec c s = .next (s.refusedWith op f { status := eState })) ∧
  (Arrived op f s → o.lenOk f = true → ((s.desk f.desk).isOpen = true ∨ sessionFree op = true) → o.desk0 = true → f.desk ≠ 0 →
    exec c s = .next (s.refusedWith op f { status := eDenied })) ∧
  (Arrived op f s → o.lenOk f = true → ((s.desk f.desk).isOpen = true ∨ sessionFree op = true) → (o.desk0 = true → f.desk = 0) →
    o.acc = .change → (s.red.role = .standby ∨ s.red.role = .stale ∨ s.red.role = .forming) →
    exec c s = .next (s.refusedWith op f { status := eStandby }))

/-- Decoding the bytes of a command frame gives back its opcode and every field of it, whatever follows in the slot, and a carrier that
takes these bytes runs exactly the command of the opcode's row (R280, R310). -/
def Obligations.FramesRunTheirCommands : Prop := ∀ (op : Nat) (f : CmdFrame) (rest : List Byte), FitsHeader op f →
  frameOf f.via (cmdBytes op f ++ rest) = (op, f) ∧
  (∀ c s, ruziaOf c = some (op, f) → exec c s = .next (s.frameBytes f.via (cmdBytes op f ++ rest)))

/-- A response frame carries its opcode, length, sequence, desk, status and the low half of the ashlar where the table of R281 puts them,
and a handle its type, generation and index (R281, R284). -/
def Obligations.ResponseAndHandleFields : Prop :=
  (∀ op (f : CmdFrame) st a p, op < 2 ^ 16 → p.length < 2 ^ 16 → f.seq < 2 ^ 32 → f.desk < 2 ^ 16 → st < 2 ^ 16 →
    fieldAt (responseBytes op f st a p) 0 2 = op ∧ fieldAt (responseBytes op f st a p) 2 2 = p.length ∧
    fieldAt (responseBytes op f st a p) 4 4 = f.seq ∧ fieldAt (responseBytes op f st a p) 8 2 = f.desk ∧
    fieldAt (responseBytes op f st a p) 10 2 = st ∧ fieldAt (responseBytes op f st a p) 12 4 = a % 2 ^ 32 ∧
    (responseBytes op f st a p).drop 16 = p) ∧
  (∀ ty gen idx, ty < 64 → gen < 64 → idx < 2 ^ 20 →
    hType (mkHandle ty gen idx) = ty ∧ hGen (mkHandle ty gen idx) = gen ∧ hIdx (mkHandle ty gen idx) = idx ∧ mkHandle ty gen idx < 2 ^ 32)

/-- R37: a domain runs at one of six rates, its index is floor(Q × fs / (10^9 × 65,536)), and the instant of sample n is the smallest Q
whose index is n; R41: its ashlar is eight of its samples, its tick 48 base-rate samples, and a tick boundary is an ashlar boundary. -/
def Obligations.IndexAndInstant : Prop := ∀ (s : State) (d : Nat),
  s.fs d ∈ [44100, 48000, 88200, 96000, 176400, 192000] ∧ s.idx d = s.q * s.fs d / (10 ^ 9 * 65536) ∧
  (∀ n, indexAt (instantOf n (s.fs d)) (s.fs d) = n ∧ ∀ q, q < instantOf n (s.fs d) → indexAt q (s.fs d) < n) ∧
  (∀ i, s.idx d = i → (8 * s.ash d ≤ i ∧ i ≤ 8 * s.ash d + 7)) ∧ s.tickLen d = 48 * s.mult d ∧ (∀ k, k * s.tickLen d % 8 = 0)

/-- R34: RATE changes only with OFFSET, from a stated RAW value on; quarry time is continuous there (OFFSET is kept in 96 bits, R33). -/
def Obligations.RateChangeIsContinuous : Prop := ∀ (s : State) (r c : Nat),
  (s.setRate r c).clk.rate = r ∧
  (s.clk.offset + s.clk.rate * c / 2 ^ 24) % 2 ^ 96 = ((s.setRate r c).clk.offset + r * c / 2 ^ 24) % 2 ^ 96 ∧
  quarryAt (s.setRate r c).clk c = quarryAt s.clk c ∧ (s.setRate r c).clk.raw = s.clk.raw ∧ (s.setRate r s.clk.raw).q = s.q

/-- R141: with HPF_ORDER 0 and DC_BLOCK 0, outside a transition between its two sets, the Sieve passes every sample unchanged bit for bit
and changes nothing of its state. -/
def Obligations.SievePassesUnchanged : Prop := ∀ (e : ChainEnv) (c : Chan) (ended : List Twin) (r : Run), liveTwin c.twins 1 e.j = none →
  (ended.filter fun t => t.page == 1) = [] → c.useAt e.m ended 0x0100 = 0 → c.useAt e.m ended 0x0102 = 0 → sieveStep e c ended r = r

/-- A host write of whole words into the mailbox window of a RUNNING engine (R286): the bytes that fall on command slots are stored, every
other byte of memory stays, and memory keeps its canonical form. -/
def Obligations.MailboxWriteStores : Prop := ∀ (s : State) (a : Access) (o : Nat), s.sv.st = .running → memWf s.mem = true →
  a.master = 1 → a.write = true →
  (∀ i, i < a.bytes → a.enables.getD i true = true) → 4 ≤ a.bytes → a.bytes ≤ 512 → a.bytes % 4 = 0 → o % 4 = 0 → a.addr = 0x10040000 + o →
  o + a.bytes ≤ 0x20000 → a.data.length = a.bytes → ∃ t, exec (.matrixAccess a) s = .next t ∧ memWf t.mem = true ∧
    (∀ i, i < a.bytes → o + i < 0x19800 → (o + i) % 0x1800 < 0x800 → memRead t.mem (mailboxBase + (o + i)) = a.data.getD i 0) ∧
    (∀ x, (∀ i, i < a.bytes → o + i < 0x19800 → (o + i) % 0x1800 < 0x800 → x ≠ mailboxBase + (o + i)) → memRead t.mem x = memRead s.mem x)

/-- Step 9 of R309 (R285): a handle of another type or of an index that is not allocated is refused with E_HANDLE, one of another
generation with E_STALE_HANDLE, and the refusal has no other effect. -/
def Obligations.HandlesAreChecked : Prop := ∀ p ∈ changeByHandle ++ askByHandle, ∀ (f : CmdFrame) (s : State), Taken p.1 f s →
  ((hType (u32 f 0) ∉ p.2.1 ∨ s.objAt (hType (u32 f 0)) (hIdx (u32 f 0)) = none) →
    exec (p.2.2 f) s = turnedDown p.1 f s { status := eHandle, field := 0, handle := u32 f 0 }) ∧
  (∀ o, hType (u32 f 0) ∈ p.2.1 → s.objAt (hType (u32 f 0)) (hIdx (u32 f 0)) = some o → o.gen ≠ hGen (u32 f 0) →
    exec (p.2.2 f) s = turnedDown p.1 f s { status := eStale, field := 0, handle := u32 f 0 })

/-- Step 10 of R309 (R304): only the owning desk and desk 0 may change an object; any other desk is refused with E_DENIED, and the refusal
has no other effect. -/
def Obligations.OnlyTheOwnerChanges : Prop := ∀ p ∈ changeByHandle, ∀ (f : CmdFrame) (s : State) (o : Obj), Taken p.1 f s →
  names s (u32 f 0) p.2.1 o → f.desk ≠ o.desk → f.desk ≠ 0 →
  exec (p.2.2 f) s = turnedDown p.1 f s { status := eDenied, field := 0, handle := o.handle }
end

