-- ==== Sys2Proof/Laws/Bytes.lean ====
section
/-! SUPPORT. Little-endian fields (R10) and memory (R535): reading back what was written, and the canonical form. -/
namespace Sys2Proof.Laws
open Sys2Proof.Machine

@[simp] theorem le_length (k n : Nat) : (le k n).length = k := by
  induction k generalizing n with
  | zero => rfl
  | succ k ih => simp [le, ih]

theorem leNat_le (k n : Nat) : leNat (le k n) = n % 256 ^ k := by
  induction k generalizing n with
  | zero => simp [le, leNat, Nat.mod_one]
  | succ k ih =>
    have h : (BitVec.ofNat 8 n).toNat = n % 256 := by simp
    simp only [le, leNat, ih, h]
    rw [Nat.pow_succ', Nat.mod_mul]

/-- A field at the front of a payload. -/
theorem fieldAt_front (k n : Nat) (bs : List Byte) : fieldAt (le k n ++ bs) 0 k = n % 256 ^ k := by
  simp [fieldAt, ← leNat_le]

/-- A field behind a part of known length. -/
theorem fieldAt_skip (as bs : List Byte) (o k : Nat) (h : as.length ≤ o) :
    fieldAt (as ++ bs) o k = fieldAt bs (o - as.length) k := by
  simp [fieldAt, List.drop_append, List.drop_eq_nil_of_le h]

/-! ## Memory -/

/-- A cell of a canonical list is no default, and every later cell lies above it. -/
theorem memWf_cons {c : Host.Cell} {m : List Host.Cell} (h : memWf (c :: m) = true) :
    c.2 ≠ memDefault ∧ memWf m = true ∧ ∀ d ∈ m, c.1 < d.1 := by
  induction m generalizing c with
  | nil => simp [memWf] at h; simp [h, memWf]
  | cons d m ih =>
    simp [memWf] at h
    obtain ⟨⟨h1, h2⟩, h3⟩ := h
    refine ⟨h1, h3, fun e he => ?_⟩
    rcases List.mem_cons.1 he with rfl | he
    · exact h2
    · exact Nat.lt_trans h2 ((ih h3).2.2 e he)

theorem memWf_of {c : Host.Cell} {m : List Host.Cell} (h1 : c.2 ≠ memDefault) (h2 : memWf m = true) (h3 : ∀ d ∈ m, c.1 < d.1) :
    memWf (c :: m) = true := by
  cases m with
  | nil => simp [memWf, h1]
  | cons d m => simp [memWf, h1, h2, h3 d (by simp)]

/-- An address below every cell reads the default. -/
theorem memRead_below (m : List Host.Cell) (a : Nat) (h : ∀ d ∈ m, a < d.1) : memRead m a = memDefault := by
  cases m with
  | nil => rfl
  | cons c m =>
    have := h c (by simp)
    simp only [memRead]
    rw [if_neg (by simp; omega), if_pos this]

theorem mem_memWrite {m : List Host.Cell} {a : Nat} {b : Byte} {d : Host.Cell} (h : d ∈ memWrite m a b) : d = (a, b) ∨ d ∈ m := by
  induction m with
  | nil =>
    simp only [memWrite] at h
    split at h <;> simp_all
  | cons c m ih =>
    simp only [memWrite] at h
    split at h
    · split at h
      · exact .inr (List.mem_cons_of_mem _ h)
      · rcases List.mem_cons.1 h with h | h
        · exact .inl h
        · exact .inr (List.mem_cons_of_mem _ h)
    · split at h
      · split at h
        · exact .inr h
        · rcases List.mem_cons.1 h with h | h
          · exact .inl h
          · exact .inr h
      · rcases List.mem_cons.1 h with rfl | h
        · exact .inr (by simp)
        · rcases ih h with h | h
          · exact .inl h
          · exact .inr (List.mem_cons_of_mem _ h)

/-- Writing a byte keeps the canonical form. -/
theorem memWf_memWrite (m : List Host.Cell) (a : Nat) (b : Byte) (w : memWf m = true) : memWf (memWrite m a b) = true := by
  induction m with
  | nil => simp only [memWrite]; split <;> simp_all [memWf]
  | cons c m ih =>
    obtain ⟨h1, h2, h3⟩ := memWf_cons w
    simp only [memWrite]
    split
    · rename_i e
      have e : c.1 = a := by simpa using e
      split
      · exact h2
      · exact memWf_of (by simp_all) h2 (fun d hd => by rw [← e]; exact h3 d hd)
    · rename_i e
      have e : c.1 ≠ a := by simpa using e
      split
      · rename_i l
        split
        · exact w
        · exact memWf_of (by simp_all) w (fun d hd => by
            rcases List.mem_cons.1 hd with rfl | hd
            · exact l
            · exact Nat.lt_trans l (h3 d hd))
      · exact memWf_of h1 (ih h2) (fun d hd => by
          rcases mem_memWrite hd with rfl | hd
          · simp only; omega
          · exact h3 d hd)

/-- Writing one byte: that address reads it, every other as before. -/
theorem memRead_memWrite (m : List Host.Cell) (a x : Nat) (b : Byte) (w : memWf m = true) :
    memRead (memWrite m a b) x = if x = a then b else memRead m x := by
  induction m with
  | nil =>
    simp only [memWrite]
    split
    · simp_all [memRead]
    · simp only [memRead]
      by_cases h : x = a
      · simp [h]
      · rw [if_neg (by simp; omega), if_neg h]; simp
  | cons c m ih =>
    obtain ⟨h1, h2, h3⟩ := memWf_cons w
    simp only [memWrite]
    by_cases hc : c.1 = a
    · simp only [hc, beq_self_eq_true, if_true]
      by_cases h : x = a
      · subst h
        split
        · rename_i hb
          rw [memRead_below m x (fun d hd => by rw [← hc]; exact h3 d hd)]
          simp_all
        · simp [memRead]
      · rw [if_neg h]
        have hx : (a == x) = false := by simp; omega
        split
        · simp only [memRead, hc, hx, Bool.false_eq_true, if_false]
          split
          · rename_i l
            exact memRead_below m x (fun d hd => Nat.lt_trans l (by rw [← hc]; exact h3 d hd))
          · rfl
        · simp [memRead, hc, hx]
    · have hca : (c.1 == a) = false := by simp [hc]
      simp only [hca, Bool.false_eq_true, if_false]
      by_cases l : a < c.1
      · simp only [l, if_true]
        by_cases h : x = a
        · subst h
          split
          · rename_i hb
            simp only [memRead, hca, Bool.false_eq_true, if_false, l, if_true]
            simp_all
          · simp [memRead]
        · rw [if_neg h]
          split
          · rfl
          · simp only [memRead]
            rw [if_neg (by simp; omega)]
            split
            · rw [if_neg (by simp; omega), if_pos (by omega)]
            · rfl
      · simp only [l, if_false, memRead, ih h2]
        by_cases h : x = a
        · subst h
          simp [hca, l]
        · simp [h]

theorem memWf_memWriteAll (bs : List Byte) (m : List Host.Cell) (a : Nat) (w : memWf m = true) :
    memWf (memWriteAll m a bs) = true := by
  induction bs generalizing m a with
  | nil => exact w
  | cons b bs ih => exact ih _ _ (memWf_memWrite m a b w)

/-- A run of bytes written: each address of the run reads its byte, every other as before. -/
theorem memRead_memWriteAll (bs : List Byte) (m : List Host.Cell) (a x : Nat) (w : memWf m = true) :
    memRead (memWriteAll m a bs) x = if h : a ≤ x ∧ x < a + bs.length then bs[x - a]'(by omega) else memRead m x := by
  induction bs generalizing m a with
  | nil => simp [memWriteAll]
  | cons b bs ih =>
    simp only [memWriteAll]
    rw [ih _ _ (memWf_memWrite m a b w), memRead_memWrite m a x b w]
    by_cases h : x = a
    · subst h
      rw [dif_neg (by omega), dif_pos (by simp)]
      simp
    · by_cases h2 : a + 1 ≤ x ∧ x < a + 1 + bs.length
      · rw [dif_pos h2, dif_pos (by simp; omega)]
        have : x - a = (x - (a + 1)) + 1 := by omega
        simp [this]
      · rw [dif_neg h2, if_neg h, dif_neg (by simp; omega)]

theorem memWf_memClear (m : List Host.Cell) (a n : Nat) (w : memWf m = true) : memWf (memClear m a n) = true := by
  induction m with
  | nil => rfl
  | cons c m ih =>
    obtain ⟨h1, h2, h3⟩ := memWf_cons w
    simp only [memClear, List.filter] at *
    split
    · exact memWf_of h1 (ih h2) (fun d hd => h3 d ((List.mem_filter.1 hd).1))
    · exact ih h2

/-- Every write of memory keeps the canonical form. -/
theorem write_memWf (s : State) (a : Nat) (bs : List Byte) (w : memWf s.mem = true) : memWf (s.write a bs).mem = true :=
  memWf_memWriteAll bs s.mem a w

end Sys2Proof.Laws
end

