-- ==== Sys2Proof/Laws/Ruzia.lean ====
section
/-! SUPPORT. What the operation every Ruzia command shares can do (R309): a frame that passes steps 1 to 8 is decided by its
command's own checks alone. -/
namespace Sys2Proof.Laws
open Sys2Proof.Machine

theorem need_true (b : Bool) (st fi h : Nat) (hb : b = true) : need b st fi h = .ok () := by simp [need, hb]

theorem need_ok (st fi h : Nat) : need true st fi h = .ok () := rfl

theorem need_fail (st fi h : Nat) : need false st fi h = .error { status := st, field := fi, handle := h } := rfl

theorem takeable_of {op : Nat} {f : CmdFrame} {s : State} (a : Arrived op f s) : takeable s f = true := by
  have h1 := a.serving
  have h2 := a.desk
  have h3 := a.slot
  by_cases hv : f.via = .pcie
  · simp [takeable, h1, h2, h3 hv]
  · simp [takeable, h1, h2, hv]

theorem frameCheck_of {op : Nat} {f : CmdFrame} {s : State} (a : Arrived op f s) : frameCheck f = .ok () := by
  simp [frameCheck, need, a.short, a.whole, a.flags, a.res, bind, Except.bind]

theorem repeated_of {op : Nat} {f : CmdFrame} {s : State} (a : Arrived op f s) : repeated s op f = none := by
  rcases a.fresh with h | h | h <;> simp [repeated, h, a.attached]

theorem admit_of {o : RuziaOp} {f : CmdFrame} {s : State} (t : Taken o f s) :
    clears s o.op o.acc o.desk0 o.lenOk f = .ok () := by
  have h1 := t.length
  have h2 := t.arrived.attached
  have h3 : ((s.desk f.desk).isOpen || sessionFree o.op) = true := by
    rcases t.session with h | h <;> simp [h]
  have h4 : (!o.desk0 || f.desk == 0) = true := by
    cases hd : o.desk0 with
    | false => rfl
    | true => simp [t.desk0 hd]
  have h5 : (!(o.acc == .change && (s.red.role == .standby || s.red.role == .stale || s.red.role == .forming))) = true := by
    by_cases ha : o.acc = .change
    · rcases t.member ha with h | h <;> simp [h]
    · simp [ha]
  simp only [clears, h1, h2, h3, h4, h5, need_ok, bind, Except.bind]

/-- A command that passes steps 1 to 8 is answered as its body decides. -/
theorem ruzia_taken {o : RuziaOp} {f : CmdFrame} {s : State} (t : Taken o f s) :
    ruzia o f s = match o.body s f with
      | .ok (u, r) => answered o f u r.status r.payload
      | .error e => turnedDown o f s e := by
  have hu : ¬ (s.unanswered f.desk ≥ 8) := by have := t.arrived.few; omega
  simp only [ruzia, ruziaState, takeable_of t.arrived, frameCheck_of t.arrived, repeated_of t.arrived, admit_of t, Bool.not_true,
    State.answer, answered, turnedDown]
  cases o.body s f with
  | ok p => obtain ⟨u, r⟩ := p; simp [hu]
  | error e => simp

/-- The body accepts: the command is answered with its state change in force. -/
theorem ruzia_ok {o : RuziaOp} {f : CmdFrame} {s u : State} {r : Resp} (t : Taken o f s) (h : o.body s f = .ok (u, r)) :
    ruzia o f s = answered o f u r.status r.payload := by rw [ruzia_taken t, h]

/-- The body refuses: the command is refused and nothing else happens. -/
theorem ruzia_refused {o : RuziaOp} {f : CmdFrame} {s : State} {e : Err} (t : Taken o f s) (h : o.body s f = .error e) :
    ruzia o f s = turnedDown o f s e := by rw [ruzia_taken t, h]

/-- A frame the engine cannot take now changes nothing. -/
theorem ruzia_waits {o : RuziaOp} {f : CmdFrame} {s : State} (h : takeable s f = false) : ruzia o f s = .next s := by
  simp [ruzia, ruziaState, h]

theorem resolve_names {s : State} {h : Nat} {tys : List Nat} {o : Obj} (field : Nat) (n : names s h tys o) :
    resolve s tys h field = .ok o := by
  obtain ⟨h1, h2, h3⟩ := n
  simp [resolve, h1, h2, h3]

theorem owned_of {f : CmdFrame} {o : Obj} (field : Nat) (m : mayChange f o) : owned f o.desk o.handle field = .ok () := by
  rcases m with h | h <;> simp [owned, need, h]

theorem settled_of {o : Obj} (field : Nat) (h : open' o) : settled o field = .ok () := by
  simp [settled, need, h.1, h.2, bind, Except.bind]

/-! ## Walking through a body's checks: each lemma passes one check that holds -/

section
variable {α β : Type} {g : α → Except Err β} {r : Except Err β}

theorem ok_then {e : Except Err α} {a : α} (h : e = .ok a) (k : g a = r) : (e >>= g) = r := by rw [h]; exact k

theorem resolve_then {g : Obj → Except Err β} {s : State} {tys : List Nat} {h field : Nat} {o : Obj} (n : names s h tys o) (k : g o = r) :
    (resolve s tys h field >>= g) = r := ok_then (resolve_names field n) k

variable {u : Unit → Except Err β}

theorem need_then {b : Bool} {st fi h : Nat} (hb : b = true) (k : u () = r) : (need b st fi h >>= u) = r :=
  ok_then (need_true b st fi h hb) k

theorem reserved_then {f : CmdFrame} {o n : Nat} (h : fld f o n = 0) (k : u () = r) : (reserved f o n >>= u) = r :=
  ok_then (by simp [reserved, need, h]) k

theorem owned_then {f : CmdFrame} {d h fi : Nat} (m : f.desk = d ∨ f.desk = 0) (k : u () = r) : (owned f d h fi >>= u) = r :=
  ok_then (by rcases m with h | h <;> simp [owned, need, h]) k

theorem settled_then {o : Obj} {fi : Nat} (h : open' o) (k : u () = r) : (settled o fi >>= u) = r := ok_then (settled_of fi h) k

theorem mayDefer_then {s : State} {f : CmdFrame} (h : s.jobsOf f.desk < 32) (k : u () = r) : (mayDefer s f >>= u) = r :=
  ok_then (by simp [mayDefer, need, h]) k

end

end Sys2Proof.Laws
end

