-- ==== Sys2Proof/Laws/State.lean ====
section
/-! SUPPORT. What each update of one field leaves in every field of `State`, so that no proof unfolds a record update. -/
namespace Sys2Proof.Laws
open Sys2Proof.Machine

variable (s : State)

/-! `State.write` -/

@[simp] theorem write_pending (a : Nat) (bs : List Byte) : (s.write a bs).pending = s.pending := rfl
@[simp] theorem write_clk (a : Nat) (bs : List Byte) : (s.write a bs).clk = s.clk := rfl
@[simp] theorem write_doms (a : Nat) (bs : List Byte) : (s.write a bs).doms = s.doms := rfl
@[simp] theorem write_desks (a : Nat) (bs : List Byte) : (s.write a bs).desks = s.desks := rfl
@[simp] theorem write_objs (a : Nat) (bs : List Byte) : (s.write a bs).objs = s.objs := rfl
@[simp] theorem write_tabs (a : Nat) (bs : List Byte) : (s.write a bs).tabs = s.tabs := rfl
@[simp] theorem write_jobs (a : Nat) (bs : List Byte) : (s.write a bs).jobs = s.jobs := rfl
@[simp] theorem write_orderCtr (a : Nat) (bs : List Byte) : (s.write a bs).orderCtr = s.orderCtr := rfl
@[simp] theorem write_recallCtr (a : Nat) (bs : List Byte) : (s.write a bs).recallCtr = s.recallCtr := rfl
@[simp] theorem write_epoch (a : Nat) (bs : List Byte) : (s.write a bs).epoch = s.epoch := rfl
@[simp] theorem write_recalls (a : Nat) (bs : List Byte) : (s.write a bs).recalls = s.recalls := rfl
@[simp] theorem write_arms (a : Nat) (bs : List Byte) : (s.write a bs).arms = s.arms := rfl
@[simp] theorem write_cores (a : Nat) (bs : List Byte) : (s.write a bs).cores = s.cores := rfl
@[simp] theorem write_moves (a : Nat) (bs : List Byte) : (s.write a bs).moves = s.moves := rfl
@[simp] theorem write_ceiling (a : Nat) (bs : List Byte) : (s.write a bs).ceiling = s.ceiling := rfl
@[simp] theorem write_packages (a : Nat) (bs : List Byte) : (s.write a bs).packages = s.packages := rfl
@[simp] theorem write_keySlots (a : Nat) (bs : List Byte) : (s.write a bs).keySlots = s.keySlots := rfl
@[simp] theorem write_mem (a : Nat) (bs : List Byte) : (s.write a bs).mem = memWriteAll s.mem a bs := rfl
@[simp] theorem write_ctrs (a : Nat) (bs : List Byte) : (s.write a bs).ctrs = s.ctrs := rfl
@[simp] theorem write_snap (a : Nat) (bs : List Byte) : (s.write a bs).snap = s.snap := rfl
@[simp] theorem write_host (a : Nat) (bs : List Byte) : (s.write a bs).host = s.host := rfl
@[simp] theorem write_lanes (a : Nat) (bs : List Byte) : (s.write a bs).lanes = s.lanes := rfl
@[simp] theorem write_quadModes (a : Nat) (bs : List Byte) : (s.write a bs).quadModes = s.quadModes := rfl
@[simp] theorem write_quarry (a : Nat) (bs : List Byte) : (s.write a bs).quarry = s.quarry := rfl
@[simp] theorem write_engineId (a : Nat) (bs : List Byte) : (s.write a bs).engineId = s.engineId := rfl
@[simp] theorem write_eth (a : Nat) (bs : List Byte) : (s.write a bs).eth = s.eth := rfl
@[simp] theorem write_ptp (a : Nat) (bs : List Byte) : (s.write a bs).ptp = s.ptp := rfl
@[simp] theorem write_tdm (a : Nat) (bs : List Byte) : (s.write a bs).tdm = s.tdm := rfl
@[simp] theorem write_gpi (a : Nat) (bs : List Byte) : (s.write a bs).gpi = s.gpi := rfl
@[simp] theorem write_gpo (a : Nat) (bs : List Byte) : (s.write a bs).gpo = s.gpo := rfl
@[simp] theorem write_timing (a : Nat) (bs : List Byte) : (s.write a bs).timing = s.timing := rfl
@[simp] theorem write_red (a : Nat) (bs : List Byte) : (s.write a bs).red = s.red := rfl
@[simp] theorem write_faults (a : Nat) (bs : List Byte) : (s.write a bs).faults = s.faults := rfl
@[simp] theorem write_halted (a : Nat) (bs : List Byte) : (s.write a bs).halted = s.halted := rfl
@[simp] theorem write_meterSeq (a : Nat) (bs : List Byte) : (s.write a bs).meterSeq = s.meterSeq := rfl
@[simp] theorem write_loudSeq (a : Nat) (bs : List Byte) : (s.write a bs).loudSeq = s.loudSeq := rfl
@[simp] theorem write_loudStepped (a : Nat) (bs : List Byte) : (s.write a bs).loudStepped = s.loudStepped := rfl
@[simp] theorem write_sv (a : Nat) (bs : List Byte) : (s.write a bs).sv = s.sv := rfl
@[simp] theorem write_journal (a : Nat) (bs : List Byte) : (s.write a bs).journal = s.journal := rfl
@[simp] theorem write_flash (a : Nat) (bs : List Byte) : (s.write a bs).flash = s.flash := rfl
@[simp] theorem write_outbox (a : Nat) (bs : List Byte) : (s.write a bs).outbox = s.outbox := rfl
@[simp] theorem write_freeCtr (a : Nat) (bs : List Byte) : (s.write a bs).freeCtr = s.freeCtr := rfl

/-! `State.setDesk` -/

@[simp] theorem setDesk_pending (d : Nat) (f : Desk → Desk) : (s.setDesk d f).pending = s.pending := rfl
@[simp] theorem setDesk_clk (d : Nat) (f : Desk → Desk) : (s.setDesk d f).clk = s.clk := rfl
@[simp] theorem setDesk_doms (d : Nat) (f : Desk → Desk) : (s.setDesk d f).doms = s.doms := rfl
@[simp] theorem setDesk_desks (d : Nat) (f : Desk → Desk) : (s.setDesk d f).desks = modAt s.desks d f := rfl
@[simp] theorem setDesk_objs (d : Nat) (f : Desk → Desk) : (s.setDesk d f).objs = s.objs := rfl
@[simp] theorem setDesk_tabs (d : Nat) (f : Desk → Desk) : (s.setDesk d f).tabs = s.tabs := rfl
@[simp] theorem setDesk_jobs (d : Nat) (f : Desk → Desk) : (s.setDesk d f).jobs = s.jobs := rfl
@[simp] theorem setDesk_orderCtr (d : Nat) (f : Desk → Desk) : (s.setDesk d f).orderCtr = s.orderCtr := rfl
@[simp] theorem setDesk_recallCtr (d : Nat) (f : Desk → Desk) : (s.setDesk d f).recallCtr = s.recallCtr := rfl
@[simp] theorem setDesk_epoch (d : Nat) (f : Desk → Desk) : (s.setDesk d f).epoch = s.epoch := rfl
@[simp] theorem setDesk_recalls (d : Nat) (f : Desk → Desk) : (s.setDesk d f).recalls = s.recalls := rfl
@[simp] theorem setDesk_arms (d : Nat) (f : Desk → Desk) : (s.setDesk d f).arms = s.arms := rfl
@[simp] theorem setDesk_cores (d : Nat) (f : Desk → Desk) : (s.setDesk d f).cores = s.cores := rfl
@[simp] theorem setDesk_moves (d : Nat) (f : Desk → Desk) : (s.setDesk d f).moves = s.moves := rfl
@[simp] theorem setDesk_ceiling (d : Nat) (f : Desk → Desk) : (s.setDesk d f).ceiling = s.ceiling := rfl
@[simp] theorem setDesk_packages (d : Nat) (f : Desk → Desk) : (s.setDesk d f).packages = s.packages := rfl
@[simp] theorem setDesk_keySlots (d : Nat) (f : Desk → Desk) : (s.setDesk d f).keySlots = s.keySlots := rfl
@[simp] theorem setDesk_mem (d : Nat) (f : Desk → Desk) : (s.setDesk d f).mem = s.mem := rfl
@[simp] theorem setDesk_ctrs (d : Nat) (f : Desk → Desk) : (s.setDesk d f).ctrs = s.ctrs := rfl
@[simp] theorem setDesk_snap (d : Nat) (f : Desk → Desk) : (s.setDesk d f).snap = s.snap := rfl
@[simp] theorem setDesk_host (d : Nat) (f : Desk → Desk) : (s.setDesk d f).host = s.host := rfl
@[simp] theorem setDesk_lanes (d : Nat) (f : Desk → Desk) : (s.setDesk d f).lanes = s.lanes := rfl
@[simp] theorem setDesk_quadModes (d : Nat) (f : Desk → Desk) : (s.setDesk d f).quadModes = s.quadModes := rfl
@[simp] theorem setDesk_quarry (d : Nat) (f : Desk → Desk) : (s.setDesk d f).quarry = s.quarry := rfl
@[simp] theorem setDesk_engineId (d : Nat) (f : Desk → Desk) : (s.setDesk d f).engineId = s.engineId := rfl
@[simp] theorem setDesk_eth (d : Nat) (f : Desk → Desk) : (s.setDesk d f).eth = s.eth := rfl
@[simp] theorem setDesk_ptp (d : Nat) (f : Desk → Desk) : (s.setDesk d f).ptp = s.ptp := rfl
@[simp] theorem setDesk_tdm (d : Nat) (f : Desk → Desk) : (s.setDesk d f).tdm = s.tdm := rfl
@[simp] theorem setDesk_gpi (d : Nat) (f : Desk → Desk) : (s.setDesk d f).gpi = s.gpi := rfl
@[simp] theorem setDesk_gpo (d : Nat) (f : Desk → Desk) : (s.setDesk d f).gpo = s.gpo := rfl
@[simp] theorem setDesk_timing (d : Nat) (f : Desk → Desk) : (s.setDesk d f).timing = s.timing := rfl
@[simp] theorem setDesk_red (d : Nat) (f : Desk → Desk) : (s.setDesk d f).red = s.red := rfl
@[simp] theorem setDesk_faults (d : Nat) (f : Desk → Desk) : (s.setDesk d f).faults = s.faults := rfl
@[simp] theorem setDesk_halted (d : Nat) (f : Desk → Desk) : (s.setDesk d f).halted = s.halted := rfl
@[simp] theorem setDesk_meterSeq (d : Nat) (f : Desk → Desk) : (s.setDesk d f).meterSeq = s.meterSeq := rfl
@[simp] theorem setDesk_loudSeq (d : Nat) (f : Desk → Desk) : (s.setDesk d f).loudSeq = s.loudSeq := rfl
@[simp] theorem setDesk_loudStepped (d : Nat) (f : Desk → Desk) : (s.setDesk d f).loudStepped = s.loudStepped := rfl
@[simp] theorem setDesk_sv (d : Nat) (f : Desk → Desk) : (s.setDesk d f).sv = s.sv := rfl
@[simp] theorem setDesk_journal (d : Nat) (f : Desk → Desk) : (s.setDesk d f).journal = s.journal := rfl
@[simp] theorem setDesk_flash (d : Nat) (f : Desk → Desk) : (s.setDesk d f).flash = s.flash := rfl
@[simp] theorem setDesk_outbox (d : Nat) (f : Desk → Desk) : (s.setDesk d f).outbox = s.outbox := rfl
@[simp] theorem setDesk_freeCtr (d : Nat) (f : Desk → Desk) : (s.setDesk d f).freeCtr = s.freeCtr := rfl

/-! `State.setDom` -/

@[simp] theorem setDom_pending (d : Nat) (f : Dom → Dom) : (s.setDom d f).pending = s.pending := rfl
@[simp] theorem setDom_clk (d : Nat) (f : Dom → Dom) : (s.setDom d f).clk = s.clk := rfl
@[simp] theorem setDom_doms (d : Nat) (f : Dom → Dom) : (s.setDom d f).doms = modAt s.doms d f := rfl
@[simp] theorem setDom_desks (d : Nat) (f : Dom → Dom) : (s.setDom d f).desks = s.desks := rfl
@[simp] theorem setDom_objs (d : Nat) (f : Dom → Dom) : (s.setDom d f).objs = s.objs := rfl
@[simp] theorem setDom_tabs (d : Nat) (f : Dom → Dom) : (s.setDom d f).tabs = s.tabs := rfl
@[simp] theorem setDom_jobs (d : Nat) (f : Dom → Dom) : (s.setDom d f).jobs = s.jobs := rfl
@[simp] theorem setDom_orderCtr (d : Nat) (f : Dom → Dom) : (s.setDom d f).orderCtr = s.orderCtr := rfl
@[simp] theorem setDom_recallCtr (d : Nat) (f : Dom → Dom) : (s.setDom d f).recallCtr = s.recallCtr := rfl
@[simp] theorem setDom_epoch (d : Nat) (f : Dom → Dom) : (s.setDom d f).epoch = s.epoch := rfl
@[simp] theorem setDom_recalls (d : Nat) (f : Dom → Dom) : (s.setDom d f).recalls = s.recalls := rfl
@[simp] theorem setDom_arms (d : Nat) (f : Dom → Dom) : (s.setDom d f).arms = s.arms := rfl
@[simp] theorem setDom_cores (d : Nat) (f : Dom → Dom) : (s.setDom d f).cores = s.cores := rfl
@[simp] theorem setDom_moves (d : Nat) (f : Dom → Dom) : (s.setDom d f).moves = s.moves := rfl
@[simp] theorem setDom_ceiling (d : Nat) (f : Dom → Dom) : (s.setDom d f).ceiling = s.ceiling := rfl
@[simp] theorem setDom_packages (d : Nat) (f : Dom → Dom) : (s.setDom d f).packages = s.packages := rfl
@[simp] theorem setDom_keySlots (d : Nat) (f : Dom → Dom) : (s.setDom d f).keySlots = s.keySlots := rfl
@[simp] theorem setDom_mem (d : Nat) (f : Dom → Dom) : (s.setDom d f).mem = s.mem := rfl
@[simp] theorem setDom_ctrs (d : Nat) (f : Dom → Dom) : (s.setDom d f).ctrs = s.ctrs := rfl
@[simp] theorem setDom_snap (d : Nat) (f : Dom → Dom) : (s.setDom d f).snap = s.snap := rfl
@[simp] theorem setDom_host (d : Nat) (f : Dom → Dom) : (s.setDom d f).host = s.host := rfl
@[simp] theorem setDom_lanes (d : Nat) (f : Dom → Dom) : (s.setDom d f).lanes = s.lanes := rfl
@[simp] theorem setDom_quadModes (d : Nat) (f : Dom → Dom) : (s.setDom d f).quadModes = s.quadModes := rfl
@[simp] theorem setDom_quarry (d : Nat) (f : Dom → Dom) : (s.setDom d f).quarry = s.quarry := rfl
@[simp] theorem setDom_engineId (d : Nat) (f : Dom → Dom) : (s.setDom d f).engineId = s.engineId := rfl
@[simp] theorem setDom_eth (d : Nat) (f : Dom → Dom) : (s.setDom d f).eth = s.eth := rfl
@[simp] theorem setDom_ptp (d : Nat) (f : Dom → Dom) : (s.setDom d f).ptp = s.ptp := rfl
@[simp] theorem setDom_tdm (d : Nat) (f : Dom → Dom) : (s.setDom d f).tdm = s.tdm := rfl
@[simp] theorem setDom_gpi (d : Nat) (f : Dom → Dom) : (s.setDom d f).gpi = s.gpi := rfl
@[simp] theorem setDom_gpo (d : Nat) (f : Dom → Dom) : (s.setDom d f).gpo = s.gpo := rfl
@[simp] theorem setDom_timing (d : Nat) (f : Dom → Dom) : (s.setDom d f).timing = s.timing := rfl
@[simp] theorem setDom_red (d : Nat) (f : Dom → Dom) : (s.setDom d f).red = s.red := rfl
@[simp] theorem setDom_faults (d : Nat) (f : Dom → Dom) : (s.setDom d f).faults = s.faults := rfl
@[simp] theorem setDom_halted (d : Nat) (f : Dom → Dom) : (s.setDom d f).halted = s.halted := rfl
@[simp] theorem setDom_meterSeq (d : Nat) (f : Dom → Dom) : (s.setDom d f).meterSeq = s.meterSeq := rfl
@[simp] theorem setDom_loudSeq (d : Nat) (f : Dom → Dom) : (s.setDom d f).loudSeq = s.loudSeq := rfl
@[simp] theorem setDom_loudStepped (d : Nat) (f : Dom → Dom) : (s.setDom d f).loudStepped = s.loudStepped := rfl
@[simp] theorem setDom_sv (d : Nat) (f : Dom → Dom) : (s.setDom d f).sv = s.sv := rfl
@[simp] theorem setDom_journal (d : Nat) (f : Dom → Dom) : (s.setDom d f).journal = s.journal := rfl
@[simp] theorem setDom_flash (d : Nat) (f : Dom → Dom) : (s.setDom d f).flash = s.flash := rfl
@[simp] theorem setDom_outbox (d : Nat) (f : Dom → Dom) : (s.setDom d f).outbox = s.outbox := rfl
@[simp] theorem setDom_freeCtr (d : Nat) (f : Dom → Dom) : (s.setDom d f).freeCtr = s.freeCtr := rfl

/-! `State.emit` -/

@[simp] theorem emit_pending (o : Output) : (s.emit o).pending = s.pending := rfl
@[simp] theorem emit_clk (o : Output) : (s.emit o).clk = s.clk := rfl
@[simp] theorem emit_doms (o : Output) : (s.emit o).doms = s.doms := rfl
@[simp] theorem emit_desks (o : Output) : (s.emit o).desks = s.desks := rfl
@[simp] theorem emit_objs (o : Output) : (s.emit o).objs = s.objs := rfl
@[simp] theorem emit_tabs (o : Output) : (s.emit o).tabs = s.tabs := rfl
@[simp] theorem emit_jobs (o : Output) : (s.emit o).jobs = s.jobs := rfl
@[simp] theorem emit_orderCtr (o : Output) : (s.emit o).orderCtr = s.orderCtr := rfl
@[simp] theorem emit_recallCtr (o : Output) : (s.emit o).recallCtr = s.recallCtr := rfl
@[simp] theorem emit_epoch (o : Output) : (s.emit o).epoch = s.epoch := rfl
@[simp] theorem emit_recalls (o : Output) : (s.emit o).recalls = s.recalls := rfl
@[simp] theorem emit_arms (o : Output) : (s.emit o).arms = s.arms := rfl
@[simp] theorem emit_cores (o : Output) : (s.emit o).cores = s.cores := rfl
@[simp] theorem emit_moves (o : Output) : (s.emit o).moves = s.moves := rfl
@[simp] theorem emit_ceiling (o : Output) : (s.emit o).ceiling = s.ceiling := rfl
@[simp] theorem emit_packages (o : Output) : (s.emit o).packages = s.packages := rfl
@[simp] theorem emit_keySlots (o : Output) : (s.emit o).keySlots = s.keySlots := rfl
@[simp] theorem emit_mem (o : Output) : (s.emit o).mem = s.mem := rfl
@[simp] theorem emit_ctrs (o : Output) : (s.emit o).ctrs = s.ctrs := rfl
@[simp] theorem emit_snap (o : Output) : (s.emit o).snap = s.snap := rfl
@[simp] theorem emit_host (o : Output) : (s.emit o).host = s.host := rfl
@[simp] theorem emit_lanes (o : Output) : (s.emit o).lanes = s.lanes := rfl
@[simp] theorem emit_quadModes (o : Output) : (s.emit o).quadModes = s.quadModes := rfl
@[simp] theorem emit_quarry (o : Output) : (s.emit o).quarry = s.quarry := rfl
@[simp] theorem emit_engineId (o : Output) : (s.emit o).engineId = s.engineId := rfl
@[simp] theorem emit_eth (o : Output) : (s.emit o).eth = s.eth := rfl
@[simp] theorem emit_ptp (o : Output) : (s.emit o).ptp = s.ptp := rfl
@[simp] theorem emit_tdm (o : Output) : (s.emit o).tdm = s.tdm := rfl
@[simp] theorem emit_gpi (o : Output) : (s.emit o).gpi = s.gpi := rfl
@[simp] theorem emit_gpo (o : Output) : (s.emit o).gpo = s.gpo := rfl
@[simp] theorem emit_timing (o : Output) : (s.emit o).timing = s.timing := rfl
@[simp] theorem emit_red (o : Output) : (s.emit o).red = s.red := rfl
@[simp] theorem emit_faults (o : Output) : (s.emit o).faults = s.faults := rfl
@[simp] theorem emit_halted (o : Output) : (s.emit o).halted = s.halted := rfl
@[simp] theorem emit_meterSeq (o : Output) : (s.emit o).meterSeq = s.meterSeq := rfl
@[simp] theorem emit_loudSeq (o : Output) : (s.emit o).loudSeq = s.loudSeq := rfl
@[simp] theorem emit_loudStepped (o : Output) : (s.emit o).loudStepped = s.loudStepped := rfl
@[simp] theorem emit_sv (o : Output) : (s.emit o).sv = s.sv := rfl
@[simp] theorem emit_journal (o : Output) : (s.emit o).journal = s.journal := rfl
@[simp] theorem emit_flash (o : Output) : (s.emit o).flash = s.flash := rfl
@[simp] theorem emit_outbox (o : Output) : (s.emit o).outbox = s.outbox ++ [o] := rfl
@[simp] theorem emit_freeCtr (o : Output) : (s.emit o).freeCtr = s.freeCtr := rfl

/-! `State.emitAll` -/

@[simp] theorem emitAll_pending (os : List Output) : (s.emitAll os).pending = s.pending := rfl
@[simp] theorem emitAll_clk (os : List Output) : (s.emitAll os).clk = s.clk := rfl
@[simp] theorem emitAll_doms (os : List Output) : (s.emitAll os).doms = s.doms := rfl
@[simp] theorem emitAll_desks (os : List Output) : (s.emitAll os).desks = s.desks := rfl
@[simp] theorem emitAll_objs (os : List Output) : (s.emitAll os).objs = s.objs := rfl
@[simp] theorem emitAll_tabs (os : List Output) : (s.emitAll os).tabs = s.tabs := rfl
@[simp] theorem emitAll_jobs (os : List Output) : (s.emitAll os).jobs = s.jobs := rfl
@[simp] theorem emitAll_orderCtr (os : List Output) : (s.emitAll os).orderCtr = s.orderCtr := rfl
@[simp] theorem emitAll_recallCtr (os : List Output) : (s.emitAll os).recallCtr = s.recallCtr := rfl
@[simp] theorem emitAll_epoch (os : List Output) : (s.emitAll os).epoch = s.epoch := rfl
@[simp] theorem emitAll_recalls (os : List Output) : (s.emitAll os).recalls = s.recalls := rfl
@[simp] theorem emitAll_arms (os : List Output) : (s.emitAll os).arms = s.arms := rfl
@[simp] theorem emitAll_cores (os : List Output) : (s.emitAll os).cores = s.cores := rfl
@[simp] theorem emitAll_moves (os : List Output) : (s.emitAll os).moves = s.moves := rfl
@[simp] theorem emitAll_ceiling (os : List Output) : (s.emitAll os).ceiling = s.ceiling := rfl
@[simp] theorem emitAll_packages (os : List Output) : (s.emitAll os).packages = s.packages := rfl
@[simp] theorem emitAll_keySlots (os : List Output) : (s.emitAll os).keySlots = s.keySlots := rfl
@[simp] theorem emitAll_mem (os : List Output) : (s.emitAll os).mem = s.mem := rfl
@[simp] theorem emitAll_ctrs (os : List Output) : (s.emitAll os).ctrs = s.ctrs := rfl
@[simp] theorem emitAll_snap (os : List Output) : (s.emitAll os).snap = s.snap := rfl
@[simp] theorem emitAll_host (os : List Output) : (s.emitAll os).host = s.host := rfl
@[simp] theorem emitAll_lanes (os : List Output) : (s.emitAll os).lanes = s.lanes := rfl
@[simp] theorem emitAll_quadModes (os : List Output) : (s.emitAll os).quadModes = s.quadModes := rfl
@[simp] theorem emitAll_quarry (os : List Output) : (s.emitAll os).quarry = s.quarry := rfl
@[simp] theorem emitAll_engineId (os : List Output) : (s.emitAll os).engineId = s.engineId := rfl
@[simp] theorem emitAll_eth (os : List Output) : (s.emitAll os).eth = s.eth := rfl
@[simp] theorem emitAll_ptp (os : List Output) : (s.emitAll os).ptp = s.ptp := rfl
@[simp] theorem emitAll_tdm (os : List Output) : (s.emitAll os).tdm = s.tdm := rfl
@[simp] theorem emitAll_gpi (os : List Output) : (s.emitAll os).gpi = s.gpi := rfl
@[simp] theorem emitAll_gpo (os : List Output) : (s.emitAll os).gpo = s.gpo := rfl
@[simp] theorem emitAll_timing (os : List Output) : (s.emitAll os).timing = s.timing := rfl
@[simp] theorem emitAll_red (os : List Output) : (s.emitAll os).red = s.red := rfl
@[simp] theorem emitAll_faults (os : List Output) : (s.emitAll os).faults = s.faults := rfl
@[simp] theorem emitAll_halted (os : List Output) : (s.emitAll os).halted = s.halted := rfl
@[simp] theorem emitAll_meterSeq (os : List Output) : (s.emitAll os).meterSeq = s.meterSeq := rfl
@[simp] theorem emitAll_loudSeq (os : List Output) : (s.emitAll os).loudSeq = s.loudSeq := rfl
@[simp] theorem emitAll_loudStepped (os : List Output) : (s.emitAll os).loudStepped = s.loudStepped := rfl
@[simp] theorem emitAll_sv (os : List Output) : (s.emitAll os).sv = s.sv := rfl
@[simp] theorem emitAll_journal (os : List Output) : (s.emitAll os).journal = s.journal := rfl
@[simp] theorem emitAll_flash (os : List Output) : (s.emitAll os).flash = s.flash := rfl
@[simp] theorem emitAll_outbox (os : List Output) : (s.emitAll os).outbox = s.outbox ++ os := rfl
@[simp] theorem emitAll_freeCtr (os : List Output) : (s.emitAll os).freeCtr = s.freeCtr := rfl

/-! `State.setLane` -/

@[simp] theorem setLane_pending (i : Nat) (f : Lane → Lane) : (s.setLane i f).pending = s.pending := rfl
@[simp] theorem setLane_clk (i : Nat) (f : Lane → Lane) : (s.setLane i f).clk = s.clk := rfl
@[simp] theorem setLane_doms (i : Nat) (f : Lane → Lane) : (s.setLane i f).doms = s.doms := rfl
@[simp] theorem setLane_desks (i : Nat) (f : Lane → Lane) : (s.setLane i f).desks = s.desks := rfl
@[simp] theorem setLane_objs (i : Nat) (f : Lane → Lane) : (s.setLane i f).objs = s.objs := rfl
@[simp] theorem setLane_tabs (i : Nat) (f : Lane → Lane) : (s.setLane i f).tabs = s.tabs := rfl
@[simp] theorem setLane_jobs (i : Nat) (f : Lane → Lane) : (s.setLane i f).jobs = s.jobs := rfl
@[simp] theorem setLane_orderCtr (i : Nat) (f : Lane → Lane) : (s.setLane i f).orderCtr = s.orderCtr := rfl
@[simp] theorem setLane_recallCtr (i : Nat) (f : Lane → Lane) : (s.setLane i f).recallCtr = s.recallCtr := rfl
@[simp] theorem setLane_epoch (i : Nat) (f : Lane → Lane) : (s.setLane i f).epoch = s.epoch := rfl
@[simp] theorem setLane_recalls (i : Nat) (f : Lane → Lane) : (s.setLane i f).recalls = s.recalls := rfl
@[simp] theorem setLane_arms (i : Nat) (f : Lane → Lane) : (s.setLane i f).arms = s.arms := rfl
@[simp] theorem setLane_cores (i : Nat) (f : Lane → Lane) : (s.setLane i f).cores = s.cores := rfl
@[simp] theorem setLane_moves (i : Nat) (f : Lane → Lane) : (s.setLane i f).moves = s.moves := rfl
@[simp] theorem setLane_ceiling (i : Nat) (f : Lane → Lane) : (s.setLane i f).ceiling = s.ceiling := rfl
@[simp] theorem setLane_packages (i : Nat) (f : Lane → Lane) : (s.setLane i f).packages = s.packages := rfl
@[simp] theorem setLane_keySlots (i : Nat) (f : Lane → Lane) : (s.setLane i f).keySlots = s.keySlots := rfl
@[simp] theorem setLane_mem (i : Nat) (f : Lane → Lane) : (s.setLane i f).mem = s.mem := rfl
@[simp] theorem setLane_ctrs (i : Nat) (f : Lane → Lane) : (s.setLane i f).ctrs = s.ctrs := rfl
@[simp] theorem setLane_snap (i : Nat) (f : Lane → Lane) : (s.setLane i f).snap = s.snap := rfl
@[simp] theorem setLane_host (i : Nat) (f : Lane → Lane) : (s.setLane i f).host = s.host := rfl
@[simp] theorem setLane_lanes (i : Nat) (f : Lane → Lane) : (s.setLane i f).lanes = modAt s.lanes i f := rfl
@[simp] theorem setLane_quadModes (i : Nat) (f : Lane → Lane) : (s.setLane i f).quadModes = s.quadModes := rfl
@[simp] theorem setLane_quarry (i : Nat) (f : Lane → Lane) : (s.setLane i f).quarry = s.quarry := rfl
@[simp] theorem setLane_engineId (i : Nat) (f : Lane → Lane) : (s.setLane i f).engineId = s.engineId := rfl
@[simp] theorem setLane_eth (i : Nat) (f : Lane → Lane) : (s.setLane i f).eth = s.eth := rfl
@[simp] theorem setLane_ptp (i : Nat) (f : Lane → Lane) : (s.setLane i f).ptp = s.ptp := rfl
@[simp] theorem setLane_tdm (i : Nat) (f : Lane → Lane) : (s.setLane i f).tdm = s.tdm := rfl
@[simp] theorem setLane_gpi (i : Nat) (f : Lane → Lane) : (s.setLane i f).gpi = s.gpi := rfl
@[simp] theorem setLane_gpo (i : Nat) (f : Lane → Lane) : (s.setLane i f).gpo = s.gpo := rfl
@[simp] theorem setLane_timing (i : Nat) (f : Lane → Lane) : (s.setLane i f).timing = s.timing := rfl
@[simp] theorem setLane_red (i : Nat) (f : Lane → Lane) : (s.setLane i f).red = s.red := rfl
@[simp] theorem setLane_faults (i : Nat) (f : Lane → Lane) : (s.setLane i f).faults = s.faults := rfl
@[simp] theorem setLane_halted (i : Nat) (f : Lane → Lane) : (s.setLane i f).halted = s.halted := rfl
@[simp] theorem setLane_meterSeq (i : Nat) (f : Lane → Lane) : (s.setLane i f).meterSeq = s.meterSeq := rfl
@[simp] theorem setLane_loudSeq (i : Nat) (f : Lane → Lane) : (s.setLane i f).loudSeq = s.loudSeq := rfl
@[simp] theorem setLane_loudStepped (i : Nat) (f : Lane → Lane) : (s.setLane i f).loudStepped = s.loudStepped := rfl
@[simp] theorem setLane_sv (i : Nat) (f : Lane → Lane) : (s.setLane i f).sv = s.sv := rfl
@[simp] theorem setLane_journal (i : Nat) (f : Lane → Lane) : (s.setLane i f).journal = s.journal := rfl
@[simp] theorem setLane_flash (i : Nat) (f : Lane → Lane) : (s.setLane i f).flash = s.flash := rfl
@[simp] theorem setLane_outbox (i : Nat) (f : Lane → Lane) : (s.setLane i f).outbox = s.outbox := rfl
@[simp] theorem setLane_freeCtr (i : Nat) (f : Lane → Lane) : (s.setLane i f).freeCtr = s.freeCtr := rfl

/-! `State.setPort` -/

@[simp] theorem setPort_pending (p : Nat) (f : Tdm → Tdm) : (s.setPort p f).pending = s.pending := rfl
@[simp] theorem setPort_clk (p : Nat) (f : Tdm → Tdm) : (s.setPort p f).clk = s.clk := rfl
@[simp] theorem setPort_doms (p : Nat) (f : Tdm → Tdm) : (s.setPort p f).doms = s.doms := rfl
@[simp] theorem setPort_desks (p : Nat) (f : Tdm → Tdm) : (s.setPort p f).desks = s.desks := rfl
@[simp] theorem setPort_objs (p : Nat) (f : Tdm → Tdm) : (s.setPort p f).objs = s.objs := rfl
@[simp] theorem setPort_tabs (p : Nat) (f : Tdm → Tdm) : (s.setPort p f).tabs = s.tabs := rfl
@[simp] theorem setPort_jobs (p : Nat) (f : Tdm → Tdm) : (s.setPort p f).jobs = s.jobs := rfl
@[simp] theorem setPort_orderCtr (p : Nat) (f : Tdm → Tdm) : (s.setPort p f).orderCtr = s.orderCtr := rfl
@[simp] theorem setPort_recallCtr (p : Nat) (f : Tdm → Tdm) : (s.setPort p f).recallCtr = s.recallCtr := rfl
@[simp] theorem setPort_epoch (p : Nat) (f : Tdm → Tdm) : (s.setPort p f).epoch = s.epoch := rfl
@[simp] theorem setPort_recalls (p : Nat) (f : Tdm → Tdm) : (s.setPort p f).recalls = s.recalls := rfl
@[simp] theorem setPort_arms (p : Nat) (f : Tdm → Tdm) : (s.setPort p f).arms = s.arms := rfl
@[simp] theorem setPort_cores (p : Nat) (f : Tdm → Tdm) : (s.setPort p f).cores = s.cores := rfl
@[simp] theorem setPort_moves (p : Nat) (f : Tdm → Tdm) : (s.setPort p f).moves = s.moves := rfl
@[simp] theorem setPort_ceiling (p : Nat) (f : Tdm → Tdm) : (s.setPort p f).ceiling = s.ceiling := rfl
@[simp] theorem setPort_packages (p : Nat) (f : Tdm → Tdm) : (s.setPort p f).packages = s.packages := rfl
@[simp] theorem setPort_keySlots (p : Nat) (f : Tdm → Tdm) : (s.setPort p f).keySlots = s.keySlots := rfl
@[simp] theorem setPort_mem (p : Nat) (f : Tdm → Tdm) : (s.setPort p f).mem = s.mem := rfl
@[simp] theorem setPort_ctrs (p : Nat) (f : Tdm → Tdm) : (s.setPort p f).ctrs = s.ctrs := rfl
@[simp] theorem setPort_snap (p : Nat) (f : Tdm → Tdm) : (s.setPort p f).snap = s.snap := rfl
@[simp] theorem setPort_host (p : Nat) (f : Tdm → Tdm) : (s.setPort p f).host = s.host := rfl
@[simp] theorem setPort_lanes (p : Nat) (f : Tdm → Tdm) : (s.setPort p f).lanes = s.lanes := rfl
@[simp] theorem setPort_quadModes (p : Nat) (f : Tdm → Tdm) : (s.setPort p f).quadModes = s.quadModes := rfl
@[simp] theorem setPort_quarry (p : Nat) (f : Tdm → Tdm) : (s.setPort p f).quarry = s.quarry := rfl
@[simp] theorem setPort_engineId (p : Nat) (f : Tdm → Tdm) : (s.setPort p f).engineId = s.engineId := rfl
@[simp] theorem setPort_eth (p : Nat) (f : Tdm → Tdm) : (s.setPort p f).eth = s.eth := rfl
@[simp] theorem setPort_ptp (p : Nat) (f : Tdm → Tdm) : (s.setPort p f).ptp = s.ptp := rfl
@[simp] theorem setPort_tdm (p : Nat) (f : Tdm → Tdm) : (s.setPort p f).tdm = modAt s.tdm p f := rfl
@[simp] theorem setPort_gpi (p : Nat) (f : Tdm → Tdm) : (s.setPort p f).gpi = s.gpi := rfl
@[simp] theorem setPort_gpo (p : Nat) (f : Tdm → Tdm) : (s.setPort p f).gpo = s.gpo := rfl
@[simp] theorem setPort_timing (p : Nat) (f : Tdm → Tdm) : (s.setPort p f).timing = s.timing := rfl
@[simp] theorem setPort_red (p : Nat) (f : Tdm → Tdm) : (s.setPort p f).red = s.red := rfl
@[simp] theorem setPort_faults (p : Nat) (f : Tdm → Tdm) : (s.setPort p f).faults = s.faults := rfl
@[simp] theorem setPort_halted (p : Nat) (f : Tdm → Tdm) : (s.setPort p f).halted = s.halted := rfl
@[simp] theorem setPort_meterSeq (p : Nat) (f : Tdm → Tdm) : (s.setPort p f).meterSeq = s.meterSeq := rfl
@[simp] theorem setPort_loudSeq (p : Nat) (f : Tdm → Tdm) : (s.setPort p f).loudSeq = s.loudSeq := rfl
@[simp] theorem setPort_loudStepped (p : Nat) (f : Tdm → Tdm) : (s.setPort p f).loudStepped = s.loudStepped := rfl
@[simp] theorem setPort_sv (p : Nat) (f : Tdm → Tdm) : (s.setPort p f).sv = s.sv := rfl
@[simp] theorem setPort_journal (p : Nat) (f : Tdm → Tdm) : (s.setPort p f).journal = s.journal := rfl
@[simp] theorem setPort_flash (p : Nat) (f : Tdm → Tdm) : (s.setPort p f).flash = s.flash := rfl
@[simp] theorem setPort_outbox (p : Nat) (f : Tdm → Tdm) : (s.setPort p f).outbox = s.outbox := rfl
@[simp] theorem setPort_freeCtr (p : Nat) (f : Tdm → Tdm) : (s.setPort p f).freeCtr = s.freeCtr := rfl

/-! `State.setGpi` -/

@[simp] theorem setGpi_pending (g : Nat) (f : Gpi → Gpi) : (s.setGpi g f).pending = s.pending := rfl
@[simp] theorem setGpi_clk (g : Nat) (f : Gpi → Gpi) : (s.setGpi g f).clk = s.clk := rfl
@[simp] theorem setGpi_doms (g : Nat) (f : Gpi → Gpi) : (s.setGpi g f).doms = s.doms := rfl
@[simp] theorem setGpi_desks (g : Nat) (f : Gpi → Gpi) : (s.setGpi g f).desks = s.desks := rfl
@[simp] theorem setGpi_objs (g : Nat) (f : Gpi → Gpi) : (s.setGpi g f).objs = s.objs := rfl
@[simp] theorem setGpi_tabs (g : Nat) (f : Gpi → Gpi) : (s.setGpi g f).tabs = s.tabs := rfl
@[simp] theorem setGpi_jobs (g : Nat) (f : Gpi → Gpi) : (s.setGpi g f).jobs = s.jobs := rfl
@[simp] theorem setGpi_orderCtr (g : Nat) (f : Gpi → Gpi) : (s.setGpi g f).orderCtr = s.orderCtr := rfl
@[simp] theorem setGpi_recallCtr (g : Nat) (f : Gpi → Gpi) : (s.setGpi g f).recallCtr = s.recallCtr := rfl
@[simp] theorem setGpi_epoch (g : Nat) (f : Gpi → Gpi) : (s.setGpi g f).epoch = s.epoch := rfl
@[simp] theorem setGpi_recalls (g : Nat) (f : Gpi → Gpi) : (s.setGpi g f).recalls = s.recalls := rfl
@[simp] theorem setGpi_arms (g : Nat) (f : Gpi → Gpi) : (s.setGpi g f).arms = s.arms := rfl
@[simp] theorem setGpi_cores (g : Nat) (f : Gpi → Gpi) : (s.setGpi g f).cores = s.cores := rfl
@[simp] theorem setGpi_moves (g : Nat) (f : Gpi → Gpi) : (s.setGpi g f).moves = s.moves := rfl
@[simp] theorem setGpi_ceiling (g : Nat) (f : Gpi → Gpi) : (s.setGpi g f).ceiling = s.ceiling := rfl
@[simp] theorem setGpi_packages (g : Nat) (f : Gpi → Gpi) : (s.setGpi g f).packages = s.packages := rfl
@[simp] theorem setGpi_keySlots (g : Nat) (f : Gpi → Gpi) : (s.setGpi g f).keySlots = s.keySlots := rfl
@[simp] theorem setGpi_mem (g : Nat) (f : Gpi → Gpi) : (s.setGpi g f).mem = s.mem := rfl
@[simp] theorem setGpi_ctrs (g : Nat) (f : Gpi → Gpi) : (s.setGpi g f).ctrs = s.ctrs := rfl
@[simp] theorem setGpi_snap (g : Nat) (f : Gpi → Gpi) : (s.setGpi g f).snap = s.snap := rfl
@[simp] theorem setGpi_host (g : Nat) (f : Gpi → Gpi) : (s.setGpi g f).host = s.host := rfl
@[simp] theorem setGpi_lanes (g : Nat) (f : Gpi → Gpi) : (s.setGpi g f).lanes = s.lanes := rfl
@[simp] theorem setGpi_quadModes (g : Nat) (f : Gpi → Gpi) : (s.setGpi g f).quadModes = s.quadModes := rfl
@[simp] theorem setGpi_quarry (g : Nat) (f : Gpi → Gpi) : (s.setGpi g f).quarry = s.quarry := rfl
@[simp] theorem setGpi_engineId (g : Nat) (f : Gpi → Gpi) : (s.setGpi g f).engineId = s.engineId := rfl
@[simp] theorem setGpi_eth (g : Nat) (f : Gpi → Gpi) : (s.setGpi g f).eth = s.eth := rfl
@[simp] theorem setGpi_ptp (g : Nat) (f : Gpi → Gpi) : (s.setGpi g f).ptp = s.ptp := rfl
@[simp] theorem setGpi_tdm (g : Nat) (f : Gpi → Gpi) : (s.setGpi g f).tdm = s.tdm := rfl
@[simp] theorem setGpi_gpi (g : Nat) (f : Gpi → Gpi) : (s.setGpi g f).gpi = modAt s.gpi g f := rfl
@[simp] theorem setGpi_gpo (g : Nat) (f : Gpi → Gpi) : (s.setGpi g f).gpo = s.gpo := rfl
@[simp] theorem setGpi_timing (g : Nat) (f : Gpi → Gpi) : (s.setGpi g f).timing = s.timing := rfl
@[simp] theorem setGpi_red (g : Nat) (f : Gpi → Gpi) : (s.setGpi g f).red = s.red := rfl
@[simp] theorem setGpi_faults (g : Nat) (f : Gpi → Gpi) : (s.setGpi g f).faults = s.faults := rfl
@[simp] theorem setGpi_halted (g : Nat) (f : Gpi → Gpi) : (s.setGpi g f).halted = s.halted := rfl
@[simp] theorem setGpi_meterSeq (g : Nat) (f : Gpi → Gpi) : (s.setGpi g f).meterSeq = s.meterSeq := rfl
@[simp] theorem setGpi_loudSeq (g : Nat) (f : Gpi → Gpi) : (s.setGpi g f).loudSeq = s.loudSeq := rfl
@[simp] theorem setGpi_loudStepped (g : Nat) (f : Gpi → Gpi) : (s.setGpi g f).loudStepped = s.loudStepped := rfl
@[simp] theorem setGpi_sv (g : Nat) (f : Gpi → Gpi) : (s.setGpi g f).sv = s.sv := rfl
@[simp] theorem setGpi_journal (g : Nat) (f : Gpi → Gpi) : (s.setGpi g f).journal = s.journal := rfl
@[simp] theorem setGpi_flash (g : Nat) (f : Gpi → Gpi) : (s.setGpi g f).flash = s.flash := rfl
@[simp] theorem setGpi_outbox (g : Nat) (f : Gpi → Gpi) : (s.setGpi g f).outbox = s.outbox := rfl
@[simp] theorem setGpi_freeCtr (g : Nat) (f : Gpi → Gpi) : (s.setGpi g f).freeCtr = s.freeCtr := rfl

/-! `State.setGpo` -/

@[simp] theorem setGpo_pending (g : Nat) (f : Gpo → Gpo) : (s.setGpo g f).pending = s.pending := rfl
@[simp] theorem setGpo_clk (g : Nat) (f : Gpo → Gpo) : (s.setGpo g f).clk = s.clk := rfl
@[simp] theorem setGpo_doms (g : Nat) (f : Gpo → Gpo) : (s.setGpo g f).doms = s.doms := rfl
@[simp] theorem setGpo_desks (g : Nat) (f : Gpo → Gpo) : (s.setGpo g f).desks = s.desks := rfl
@[simp] theorem setGpo_objs (g : Nat) (f : Gpo → Gpo) : (s.setGpo g f).objs = s.objs := rfl
@[simp] theorem setGpo_tabs (g : Nat) (f : Gpo → Gpo) : (s.setGpo g f).tabs = s.tabs := rfl
@[simp] theorem setGpo_jobs (g : Nat) (f : Gpo → Gpo) : (s.setGpo g f).jobs = s.jobs := rfl
@[simp] theorem setGpo_orderCtr (g : Nat) (f : Gpo → Gpo) : (s.setGpo g f).orderCtr = s.orderCtr := rfl
@[simp] theorem setGpo_recallCtr (g : Nat) (f : Gpo → Gpo) : (s.setGpo g f).recallCtr = s.recallCtr := rfl
@[simp] theorem setGpo_epoch (g : Nat) (f : Gpo → Gpo) : (s.setGpo g f).epoch = s.epoch := rfl
@[simp] theorem setGpo_recalls (g : Nat) (f : Gpo → Gpo) : (s.setGpo g f).recalls = s.recalls := rfl
@[simp] theorem setGpo_arms (g : Nat) (f : Gpo → Gpo) : (s.setGpo g f).arms = s.arms := rfl
@[simp] theorem setGpo_cores (g : Nat) (f : Gpo → Gpo) : (s.setGpo g f).cores = s.cores := rfl
@[simp] theorem setGpo_moves (g : Nat) (f : Gpo → Gpo) : (s.setGpo g f).moves = s.moves := rfl
@[simp] theorem setGpo_ceiling (g : Nat) (f : Gpo → Gpo) : (s.setGpo g f).ceiling = s.ceiling := rfl
@[simp] theorem setGpo_packages (g : Nat) (f : Gpo → Gpo) : (s.setGpo g f).packages = s.packages := rfl
@[simp] theorem setGpo_keySlots (g : Nat) (f : Gpo → Gpo) : (s.setGpo g f).keySlots = s.keySlots := rfl
@[simp] theorem setGpo_mem (g : Nat) (f : Gpo → Gpo) : (s.setGpo g f).mem = s.mem := rfl
@[simp] theorem setGpo_ctrs (g : Nat) (f : Gpo → Gpo) : (s.setGpo g f).ctrs = s.ctrs := rfl
@[simp] theorem setGpo_snap (g : Nat) (f : Gpo → Gpo) : (s.setGpo g f).snap = s.snap := rfl
@[simp] theorem setGpo_host (g : Nat) (f : Gpo → Gpo) : (s.setGpo g f).host = s.host := rfl
@[simp] theorem setGpo_lanes (g : Nat) (f : Gpo → Gpo) : (s.setGpo g f).lanes = s.lanes := rfl
@[simp] theorem setGpo_quadModes (g : Nat) (f : Gpo → Gpo) : (s.setGpo g f).quadModes = s.quadModes := rfl
@[simp] theorem setGpo_quarry (g : Nat) (f : Gpo → Gpo) : (s.setGpo g f).quarry = s.quarry := rfl
@[simp] theorem setGpo_engineId (g : Nat) (f : Gpo → Gpo) : (s.setGpo g f).engineId = s.engineId := rfl
@[simp] theorem setGpo_eth (g : Nat) (f : Gpo → Gpo) : (s.setGpo g f).eth = s.eth := rfl
@[simp] theorem setGpo_ptp (g : Nat) (f : Gpo → Gpo) : (s.setGpo g f).ptp = s.ptp := rfl
@[simp] theorem setGpo_tdm (g : Nat) (f : Gpo → Gpo) : (s.setGpo g f).tdm = s.tdm := rfl
@[simp] theorem setGpo_gpi (g : Nat) (f : Gpo → Gpo) : (s.setGpo g f).gpi = s.gpi := rfl
@[simp] theorem setGpo_gpo (g : Nat) (f : Gpo → Gpo) : (s.setGpo g f).gpo = modAt s.gpo g f := rfl
@[simp] theorem setGpo_timing (g : Nat) (f : Gpo → Gpo) : (s.setGpo g f).timing = s.timing := rfl
@[simp] theorem setGpo_red (g : Nat) (f : Gpo → Gpo) : (s.setGpo g f).red = s.red := rfl
@[simp] theorem setGpo_faults (g : Nat) (f : Gpo → Gpo) : (s.setGpo g f).faults = s.faults := rfl
@[simp] theorem setGpo_halted (g : Nat) (f : Gpo → Gpo) : (s.setGpo g f).halted = s.halted := rfl
@[simp] theorem setGpo_meterSeq (g : Nat) (f : Gpo → Gpo) : (s.setGpo g f).meterSeq = s.meterSeq := rfl
@[simp] theorem setGpo_loudSeq (g : Nat) (f : Gpo → Gpo) : (s.setGpo g f).loudSeq = s.loudSeq := rfl
@[simp] theorem setGpo_loudStepped (g : Nat) (f : Gpo → Gpo) : (s.setGpo g f).loudStepped = s.loudStepped := rfl
@[simp] theorem setGpo_sv (g : Nat) (f : Gpo → Gpo) : (s.setGpo g f).sv = s.sv := rfl
@[simp] theorem setGpo_journal (g : Nat) (f : Gpo → Gpo) : (s.setGpo g f).journal = s.journal := rfl
@[simp] theorem setGpo_flash (g : Nat) (f : Gpo → Gpo) : (s.setGpo g f).flash = s.flash := rfl
@[simp] theorem setGpo_outbox (g : Nat) (f : Gpo → Gpo) : (s.setGpo g f).outbox = s.outbox := rfl
@[simp] theorem setGpo_freeCtr (g : Nat) (f : Gpo → Gpo) : (s.setGpo g f).freeCtr = s.freeCtr := rfl

/-! `State.setEth` -/

@[simp] theorem setEth_pending (p : Nat) (f : EthPort → EthPort) : (s.setEth p f).pending = s.pending := rfl
@[simp] theorem setEth_clk (p : Nat) (f : EthPort → EthPort) : (s.setEth p f).clk = s.clk := rfl
@[simp] theorem setEth_doms (p : Nat) (f : EthPort → EthPort) : (s.setEth p f).doms = s.doms := rfl
@[simp] theorem setEth_desks (p : Nat) (f : EthPort → EthPort) : (s.setEth p f).desks = s.desks := rfl
@[simp] theorem setEth_objs (p : Nat) (f : EthPort → EthPort) : (s.setEth p f).objs = s.objs := rfl
@[simp] theorem setEth_tabs (p : Nat) (f : EthPort → EthPort) : (s.setEth p f).tabs = s.tabs := rfl
@[simp] theorem setEth_jobs (p : Nat) (f : EthPort → EthPort) : (s.setEth p f).jobs = s.jobs := rfl
@[simp] theorem setEth_orderCtr (p : Nat) (f : EthPort → EthPort) : (s.setEth p f).orderCtr = s.orderCtr := rfl
@[simp] theorem setEth_recallCtr (p : Nat) (f : EthPort → EthPort) : (s.setEth p f).recallCtr = s.recallCtr := rfl
@[simp] theorem setEth_epoch (p : Nat) (f : EthPort → EthPort) : (s.setEth p f).epoch = s.epoch := rfl
@[simp] theorem setEth_recalls (p : Nat) (f : EthPort → EthPort) : (s.setEth p f).recalls = s.recalls := rfl
@[simp] theorem setEth_arms (p : Nat) (f : EthPort → EthPort) : (s.setEth p f).arms = s.arms := rfl
@[simp] theorem setEth_cores (p : Nat) (f : EthPort → EthPort) : (s.setEth p f).cores = s.cores := rfl
@[simp] theorem setEth_moves (p : Nat) (f : EthPort → EthPort) : (s.setEth p f).moves = s.moves := rfl
@[simp] theorem setEth_ceiling (p : Nat) (f : EthPort → EthPort) : (s.setEth p f).ceiling = s.ceiling := rfl
@[simp] theorem setEth_packages (p : Nat) (f : EthPort → EthPort) : (s.setEth p f).packages = s.packages := rfl
@[simp] theorem setEth_keySlots (p : Nat) (f : EthPort → EthPort) : (s.setEth p f).keySlots = s.keySlots := rfl
@[simp] theorem setEth_mem (p : Nat) (f : EthPort → EthPort) : (s.setEth p f).mem = s.mem := rfl
@[simp] theorem setEth_ctrs (p : Nat) (f : EthPort → EthPort) : (s.setEth p f).ctrs = s.ctrs := rfl
@[simp] theorem setEth_snap (p : Nat) (f : EthPort → EthPort) : (s.setEth p f).snap = s.snap := rfl
@[simp] theorem setEth_host (p : Nat) (f : EthPort → EthPort) : (s.setEth p f).host = s.host := rfl
@[simp] theorem setEth_lanes (p : Nat) (f : EthPort → EthPort) : (s.setEth p f).lanes = s.lanes := rfl
@[simp] theorem setEth_quadModes (p : Nat) (f : EthPort → EthPort) : (s.setEth p f).quadModes = s.quadModes := rfl
@[simp] theorem setEth_quarry (p : Nat) (f : EthPort → EthPort) : (s.setEth p f).quarry = s.quarry := rfl
@[simp] theorem setEth_engineId (p : Nat) (f : EthPort → EthPort) : (s.setEth p f).engineId = s.engineId := rfl
@[simp] theorem setEth_eth (p : Nat) (f : EthPort → EthPort) : (s.setEth p f).eth = modAt s.eth p f := rfl
@[simp] theorem setEth_ptp (p : Nat) (f : EthPort → EthPort) : (s.setEth p f).ptp = s.ptp := rfl
@[simp] theorem setEth_tdm (p : Nat) (f : EthPort → EthPort) : (s.setEth p f).tdm = s.tdm := rfl
@[simp] theorem setEth_gpi (p : Nat) (f : EthPort → EthPort) : (s.setEth p f).gpi = s.gpi := rfl
@[simp] theorem setEth_gpo (p : Nat) (f : EthPort → EthPort) : (s.setEth p f).gpo = s.gpo := rfl
@[simp] theorem setEth_timing (p : Nat) (f : EthPort → EthPort) : (s.setEth p f).timing = s.timing := rfl
@[simp] theorem setEth_red (p : Nat) (f : EthPort → EthPort) : (s.setEth p f).red = s.red := rfl
@[simp] theorem setEth_faults (p : Nat) (f : EthPort → EthPort) : (s.setEth p f).faults = s.faults := rfl
@[simp] theorem setEth_halted (p : Nat) (f : EthPort → EthPort) : (s.setEth p f).halted = s.halted := rfl
@[simp] theorem setEth_meterSeq (p : Nat) (f : EthPort → EthPort) : (s.setEth p f).meterSeq = s.meterSeq := rfl
@[simp] theorem setEth_loudSeq (p : Nat) (f : EthPort → EthPort) : (s.setEth p f).loudSeq = s.loudSeq := rfl
@[simp] theorem setEth_loudStepped (p : Nat) (f : EthPort → EthPort) : (s.setEth p f).loudStepped = s.loudStepped := rfl
@[simp] theorem setEth_sv (p : Nat) (f : EthPort → EthPort) : (s.setEth p f).sv = s.sv := rfl
@[simp] theorem setEth_journal (p : Nat) (f : EthPort → EthPort) : (s.setEth p f).journal = s.journal := rfl
@[simp] theorem setEth_flash (p : Nat) (f : EthPort → EthPort) : (s.setEth p f).flash = s.flash := rfl
@[simp] theorem setEth_outbox (p : Nat) (f : EthPort → EthPort) : (s.setEth p f).outbox = s.outbox := rfl
@[simp] theorem setEth_freeCtr (p : Nat) (f : EthPort → EthPort) : (s.setEth p f).freeCtr = s.freeCtr := rfl

/-! `State.setCore` -/

@[simp] theorem setCore_pending (c : Nat) (f : Core → Core) : (s.setCore c f).pending = s.pending := rfl
@[simp] theorem setCore_clk (c : Nat) (f : Core → Core) : (s.setCore c f).clk = s.clk := rfl
@[simp] theorem setCore_doms (c : Nat) (f : Core → Core) : (s.setCore c f).doms = s.doms := rfl
@[simp] theorem setCore_desks (c : Nat) (f : Core → Core) : (s.setCore c f).desks = s.desks := rfl
@[simp] theorem setCore_objs (c : Nat) (f : Core → Core) : (s.setCore c f).objs = s.objs := rfl
@[simp] theorem setCore_tabs (c : Nat) (f : Core → Core) : (s.setCore c f).tabs = s.tabs := rfl
@[simp] theorem setCore_jobs (c : Nat) (f : Core → Core) : (s.setCore c f).jobs = s.jobs := rfl
@[simp] theorem setCore_orderCtr (c : Nat) (f : Core → Core) : (s.setCore c f).orderCtr = s.orderCtr := rfl
@[simp] theorem setCore_recallCtr (c : Nat) (f : Core → Core) : (s.setCore c f).recallCtr = s.recallCtr := rfl
@[simp] theorem setCore_epoch (c : Nat) (f : Core → Core) : (s.setCore c f).epoch = s.epoch := rfl
@[simp] theorem setCore_recalls (c : Nat) (f : Core → Core) : (s.setCore c f).recalls = s.recalls := rfl
@[simp] theorem setCore_arms (c : Nat) (f : Core → Core) : (s.setCore c f).arms = s.arms := rfl
@[simp] theorem setCore_cores (c : Nat) (f : Core → Core) : (s.setCore c f).cores = modAt s.cores c f := rfl
@[simp] theorem setCore_moves (c : Nat) (f : Core → Core) : (s.setCore c f).moves = s.moves := rfl
@[simp] theorem setCore_ceiling (c : Nat) (f : Core → Core) : (s.setCore c f).ceiling = s.ceiling := rfl
@[simp] theorem setCore_packages (c : Nat) (f : Core → Core) : (s.setCore c f).packages = s.packages := rfl
@[simp] theorem setCore_keySlots (c : Nat) (f : Core → Core) : (s.setCore c f).keySlots = s.keySlots := rfl
@[simp] theorem setCore_mem (c : Nat) (f : Core → Core) : (s.setCore c f).mem = s.mem := rfl
@[simp] theorem setCore_ctrs (c : Nat) (f : Core → Core) : (s.setCore c f).ctrs = s.ctrs := rfl
@[simp] theorem setCore_snap (c : Nat) (f : Core → Core) : (s.setCore c f).snap = s.snap := rfl
@[simp] theorem setCore_host (c : Nat) (f : Core → Core) : (s.setCore c f).host = s.host := rfl
@[simp] theorem setCore_lanes (c : Nat) (f : Core → Core) : (s.setCore c f).lanes = s.lanes := rfl
@[simp] theorem setCore_quadModes (c : Nat) (f : Core → Core) : (s.setCore c f).quadModes = s.quadModes := rfl
@[simp] theorem setCore_quarry (c : Nat) (f : Core → Core) : (s.setCore c f).quarry = s.quarry := rfl
@[simp] theorem setCore_engineId (c : Nat) (f : Core → Core) : (s.setCore c f).engineId = s.engineId := rfl
@[simp] theorem setCore_eth (c : Nat) (f : Core → Core) : (s.setCore c f).eth = s.eth := rfl
@[simp] theorem setCore_ptp (c : Nat) (f : Core → Core) : (s.setCore c f).ptp = s.ptp := rfl
@[simp] theorem setCore_tdm (c : Nat) (f : Core → Core) : (s.setCore c f).tdm = s.tdm := rfl
@[simp] theorem setCore_gpi (c : Nat) (f : Core → Core) : (s.setCore c f).gpi = s.gpi := rfl
@[simp] theorem setCore_gpo (c : Nat) (f : Core → Core) : (s.setCore c f).gpo = s.gpo := rfl
@[simp] theorem setCore_timing (c : Nat) (f : Core → Core) : (s.setCore c f).timing = s.timing := rfl
@[simp] theorem setCore_red (c : Nat) (f : Core → Core) : (s.setCore c f).red = s.red := rfl
@[simp] theorem setCore_faults (c : Nat) (f : Core → Core) : (s.setCore c f).faults = s.faults := rfl
@[simp] theorem setCore_halted (c : Nat) (f : Core → Core) : (s.setCore c f).halted = s.halted := rfl
@[simp] theorem setCore_meterSeq (c : Nat) (f : Core → Core) : (s.setCore c f).meterSeq = s.meterSeq := rfl
@[simp] theorem setCore_loudSeq (c : Nat) (f : Core → Core) : (s.setCore c f).loudSeq = s.loudSeq := rfl
@[simp] theorem setCore_loudStepped (c : Nat) (f : Core → Core) : (s.setCore c f).loudStepped = s.loudStepped := rfl
@[simp] theorem setCore_sv (c : Nat) (f : Core → Core) : (s.setCore c f).sv = s.sv := rfl
@[simp] theorem setCore_journal (c : Nat) (f : Core → Core) : (s.setCore c f).journal = s.journal := rfl
@[simp] theorem setCore_flash (c : Nat) (f : Core → Core) : (s.setCore c f).flash = s.flash := rfl
@[simp] theorem setCore_outbox (c : Nat) (f : Core → Core) : (s.setCore c f).outbox = s.outbox := rfl
@[simp] theorem setCore_freeCtr (c : Nat) (f : Core → Core) : (s.setCore c f).freeCtr = s.freeCtr := rfl

/-! `State.onSv` -/

@[simp] theorem onSv_pending (f : Sv → Sv) : (s.onSv f).pending = s.pending := rfl
@[simp] theorem onSv_clk (f : Sv → Sv) : (s.onSv f).clk = s.clk := rfl
@[simp] theorem onSv_doms (f : Sv → Sv) : (s.onSv f).doms = s.doms := rfl
@[simp] theorem onSv_desks (f : Sv → Sv) : (s.onSv f).desks = s.desks := rfl
@[simp] theorem onSv_objs (f : Sv → Sv) : (s.onSv f).objs = s.objs := rfl
@[simp] theorem onSv_tabs (f : Sv → Sv) : (s.onSv f).tabs = s.tabs := rfl
@[simp] theorem onSv_jobs (f : Sv → Sv) : (s.onSv f).jobs = s.jobs := rfl
@[simp] theorem onSv_orderCtr (f : Sv → Sv) : (s.onSv f).orderCtr = s.orderCtr := rfl
@[simp] theorem onSv_recallCtr (f : Sv → Sv) : (s.onSv f).recallCtr = s.recallCtr := rfl
@[simp] theorem onSv_epoch (f : Sv → Sv) : (s.onSv f).epoch = s.epoch := rfl
@[simp] theorem onSv_recalls (f : Sv → Sv) : (s.onSv f).recalls = s.recalls := rfl
@[simp] theorem onSv_arms (f : Sv → Sv) : (s.onSv f).arms = s.arms := rfl
@[simp] theorem onSv_cores (f : Sv → Sv) : (s.onSv f).cores = s.cores := rfl
@[simp] theorem onSv_moves (f : Sv → Sv) : (s.onSv f).moves = s.moves := rfl
@[simp] theorem onSv_ceiling (f : Sv → Sv) : (s.onSv f).ceiling = s.ceiling := rfl
@[simp] theorem onSv_packages (f : Sv → Sv) : (s.onSv f).packages = s.packages := rfl
@[simp] theorem onSv_keySlots (f : Sv → Sv) : (s.onSv f).keySlots = s.keySlots := rfl
@[simp] theorem onSv_mem (f : Sv → Sv) : (s.onSv f).mem = s.mem := rfl
@[simp] theorem onSv_ctrs (f : Sv → Sv) : (s.onSv f).ctrs = s.ctrs := rfl
@[simp] theorem onSv_snap (f : Sv → Sv) : (s.onSv f).snap = s.snap := rfl
@[simp] theorem onSv_host (f : Sv → Sv) : (s.onSv f).host = s.host := rfl
@[simp] theorem onSv_lanes (f : Sv → Sv) : (s.onSv f).lanes = s.lanes := rfl
@[simp] theorem onSv_quadModes (f : Sv → Sv) : (s.onSv f).quadModes = s.quadModes := rfl
@[simp] theorem onSv_quarry (f : Sv → Sv) : (s.onSv f).quarry = s.quarry := rfl
@[simp] theorem onSv_engineId (f : Sv → Sv) : (s.onSv f).engineId = s.engineId := rfl
@[simp] theorem onSv_eth (f : Sv → Sv) : (s.onSv f).eth = s.eth := rfl
@[simp] theorem onSv_ptp (f : Sv → Sv) : (s.onSv f).ptp = s.ptp := rfl
@[simp] theorem onSv_tdm (f : Sv → Sv) : (s.onSv f).tdm = s.tdm := rfl
@[simp] theorem onSv_gpi (f : Sv → Sv) : (s.onSv f).gpi = s.gpi := rfl
@[simp] theorem onSv_gpo (f : Sv → Sv) : (s.onSv f).gpo = s.gpo := rfl
@[simp] theorem onSv_timing (f : Sv → Sv) : (s.onSv f).timing = s.timing := rfl
@[simp] theorem onSv_red (f : Sv → Sv) : (s.onSv f).red = s.red := rfl
@[simp] theorem onSv_faults (f : Sv → Sv) : (s.onSv f).faults = s.faults := rfl
@[simp] theorem onSv_halted (f : Sv → Sv) : (s.onSv f).halted = s.halted := rfl
@[simp] theorem onSv_meterSeq (f : Sv → Sv) : (s.onSv f).meterSeq = s.meterSeq := rfl
@[simp] theorem onSv_loudSeq (f : Sv → Sv) : (s.onSv f).loudSeq = s.loudSeq := rfl
@[simp] theorem onSv_loudStepped (f : Sv → Sv) : (s.onSv f).loudStepped = s.loudStepped := rfl
@[simp] theorem onSv_sv (f : Sv → Sv) : (s.onSv f).sv = f s.sv := rfl
@[simp] theorem onSv_journal (f : Sv → Sv) : (s.onSv f).journal = s.journal := rfl
@[simp] theorem onSv_flash (f : Sv → Sv) : (s.onSv f).flash = s.flash := rfl
@[simp] theorem onSv_outbox (f : Sv → Sv) : (s.onSv f).outbox = s.outbox := rfl
@[simp] theorem onSv_freeCtr (f : Sv → Sv) : (s.onSv f).freeCtr = s.freeCtr := rfl

/-! `State.onRed` -/

@[simp] theorem onRed_pending (f : Red → Red) : (s.onRed f).pending = s.pending := rfl
@[simp] theorem onRed_clk (f : Red → Red) : (s.onRed f).clk = s.clk := rfl
@[simp] theorem onRed_doms (f : Red → Red) : (s.onRed f).doms = s.doms := rfl
@[simp] theorem onRed_desks (f : Red → Red) : (s.onRed f).desks = s.desks := rfl
@[simp] theorem onRed_objs (f : Red → Red) : (s.onRed f).objs = s.objs := rfl
@[simp] theorem onRed_tabs (f : Red → Red) : (s.onRed f).tabs = s.tabs := rfl
@[simp] theorem onRed_jobs (f : Red → Red) : (s.onRed f).jobs = s.jobs := rfl
@[simp] theorem onRed_orderCtr (f : Red → Red) : (s.onRed f).orderCtr = s.orderCtr := rfl
@[simp] theorem onRed_recallCtr (f : Red → Red) : (s.onRed f).recallCtr = s.recallCtr := rfl
@[simp] theorem onRed_epoch (f : Red → Red) : (s.onRed f).epoch = s.epoch := rfl
@[simp] theorem onRed_recalls (f : Red → Red) : (s.onRed f).recalls = s.recalls := rfl
@[simp] theorem onRed_arms (f : Red → Red) : (s.onRed f).arms = s.arms := rfl
@[simp] theorem onRed_cores (f : Red → Red) : (s.onRed f).cores = s.cores := rfl
@[simp] theorem onRed_moves (f : Red → Red) : (s.onRed f).moves = s.moves := rfl
@[simp] theorem onRed_ceiling (f : Red → Red) : (s.onRed f).ceiling = s.ceiling := rfl
@[simp] theorem onRed_packages (f : Red → Red) : (s.onRed f).packages = s.packages := rfl
@[simp] theorem onRed_keySlots (f : Red → Red) : (s.onRed f).keySlots = s.keySlots := rfl
@[simp] theorem onRed_mem (f : Red → Red) : (s.onRed f).mem = s.mem := rfl
@[simp] theorem onRed_ctrs (f : Red → Red) : (s.onRed f).ctrs = s.ctrs := rfl
@[simp] theorem onRed_snap (f : Red → Red) : (s.onRed f).snap = s.snap := rfl
@[simp] theorem onRed_host (f : Red → Red) : (s.onRed f).host = s.host := rfl
@[simp] theorem onRed_lanes (f : Red → Red) : (s.onRed f).lanes = s.lanes := rfl
@[simp] theorem onRed_quadModes (f : Red → Red) : (s.onRed f).quadModes = s.quadModes := rfl
@[simp] theorem onRed_quarry (f : Red → Red) : (s.onRed f).quarry = s.quarry := rfl
@[simp] theorem onRed_engineId (f : Red → Red) : (s.onRed f).engineId = s.engineId := rfl
@[simp] theorem onRed_eth (f : Red → Red) : (s.onRed f).eth = s.eth := rfl
@[simp] theorem onRed_ptp (f : Red → Red) : (s.onRed f).ptp = s.ptp := rfl
@[simp] theorem onRed_tdm (f : Red → Red) : (s.onRed f).tdm = s.tdm := rfl
@[simp] theorem onRed_gpi (f : Red → Red) : (s.onRed f).gpi = s.gpi := rfl
@[simp] theorem onRed_gpo (f : Red → Red) : (s.onRed f).gpo = s.gpo := rfl
@[simp] theorem onRed_timing (f : Red → Red) : (s.onRed f).timing = s.timing := rfl
@[simp] theorem onRed_red (f : Red → Red) : (s.onRed f).red = f s.red := rfl
@[simp] theorem onRed_faults (f : Red → Red) : (s.onRed f).faults = s.faults := rfl
@[simp] theorem onRed_halted (f : Red → Red) : (s.onRed f).halted = s.halted := rfl
@[simp] theorem onRed_meterSeq (f : Red → Red) : (s.onRed f).meterSeq = s.meterSeq := rfl
@[simp] theorem onRed_loudSeq (f : Red → Red) : (s.onRed f).loudSeq = s.loudSeq := rfl
@[simp] theorem onRed_loudStepped (f : Red → Red) : (s.onRed f).loudStepped = s.loudStepped := rfl
@[simp] theorem onRed_sv (f : Red → Red) : (s.onRed f).sv = s.sv := rfl
@[simp] theorem onRed_journal (f : Red → Red) : (s.onRed f).journal = s.journal := rfl
@[simp] theorem onRed_flash (f : Red → Red) : (s.onRed f).flash = s.flash := rfl
@[simp] theorem onRed_outbox (f : Red → Red) : (s.onRed f).outbox = s.outbox := rfl
@[simp] theorem onRed_freeCtr (f : Red → Red) : (s.onRed f).freeCtr = s.freeCtr := rfl

/-! `State.onHost` -/

@[simp] theorem onHost_pending (f : HostRegs → HostRegs) : (s.onHost f).pending = s.pending := rfl
@[simp] theorem onHost_clk (f : HostRegs → HostRegs) : (s.onHost f).clk = s.clk := rfl
@[simp] theorem onHost_doms (f : HostRegs → HostRegs) : (s.onHost f).doms = s.doms := rfl
@[simp] theorem onHost_desks (f : HostRegs → HostRegs) : (s.onHost f).desks = s.desks := rfl
@[simp] theorem onHost_objs (f : HostRegs → HostRegs) : (s.onHost f).objs = s.objs := rfl
@[simp] theorem onHost_tabs (f : HostRegs → HostRegs) : (s.onHost f).tabs = s.tabs := rfl
@[simp] theorem onHost_jobs (f : HostRegs → HostRegs) : (s.onHost f).jobs = s.jobs := rfl
@[simp] theorem onHost_orderCtr (f : HostRegs → HostRegs) : (s.onHost f).orderCtr = s.orderCtr := rfl
@[simp] theorem onHost_recallCtr (f : HostRegs → HostRegs) : (s.onHost f).recallCtr = s.recallCtr := rfl
@[simp] theorem onHost_epoch (f : HostRegs → HostRegs) : (s.onHost f).epoch = s.epoch := rfl
@[simp] theorem onHost_recalls (f : HostRegs → HostRegs) : (s.onHost f).recalls = s.recalls := rfl
@[simp] theorem onHost_arms (f : HostRegs → HostRegs) : (s.onHost f).arms = s.arms := rfl
@[simp] theorem onHost_cores (f : HostRegs → HostRegs) : (s.onHost f).cores = s.cores := rfl
@[simp] theorem onHost_moves (f : HostRegs → HostRegs) : (s.onHost f).moves = s.moves := rfl
@[simp] theorem onHost_ceiling (f : HostRegs → HostRegs) : (s.onHost f).ceiling = s.ceiling := rfl
@[simp] theorem onHost_packages (f : HostRegs → HostRegs) : (s.onHost f).packages = s.packages := rfl
@[simp] theorem onHost_keySlots (f : HostRegs → HostRegs) : (s.onHost f).keySlots = s.keySlots := rfl
@[simp] theorem onHost_mem (f : HostRegs → HostRegs) : (s.onHost f).mem = s.mem := rfl
@[simp] theorem onHost_ctrs (f : HostRegs → HostRegs) : (s.onHost f).ctrs = s.ctrs := rfl
@[simp] theorem onHost_snap (f : HostRegs → HostRegs) : (s.onHost f).snap = s.snap := rfl
@[simp] theorem onHost_host (f : HostRegs → HostRegs) : (s.onHost f).host = f s.host := rfl
@[simp] theorem onHost_lanes (f : HostRegs → HostRegs) : (s.onHost f).lanes = s.lanes := rfl
@[simp] theorem onHost_quadModes (f : HostRegs → HostRegs) : (s.onHost f).quadModes = s.quadModes := rfl
@[simp] theorem onHost_quarry (f : HostRegs → HostRegs) : (s.onHost f).quarry = s.quarry := rfl
@[simp] theorem onHost_engineId (f : HostRegs → HostRegs) : (s.onHost f).engineId = s.engineId := rfl
@[simp] theorem onHost_eth (f : HostRegs → HostRegs) : (s.onHost f).eth = s.eth := rfl
@[simp] theorem onHost_ptp (f : HostRegs → HostRegs) : (s.onHost f).ptp = s.ptp := rfl
@[simp] theorem onHost_tdm (f : HostRegs → HostRegs) : (s.onHost f).tdm = s.tdm := rfl
@[simp] theorem onHost_gpi (f : HostRegs → HostRegs) : (s.onHost f).gpi = s.gpi := rfl
@[simp] theorem onHost_gpo (f : HostRegs → HostRegs) : (s.onHost f).gpo = s.gpo := rfl
@[simp] theorem onHost_timing (f : HostRegs → HostRegs) : (s.onHost f).timing = s.timing := rfl
@[simp] theorem onHost_red (f : HostRegs → HostRegs) : (s.onHost f).red = s.red := rfl
@[simp] theorem onHost_faults (f : HostRegs → HostRegs) : (s.onHost f).faults = s.faults := rfl
@[simp] theorem onHost_halted (f : HostRegs → HostRegs) : (s.onHost f).halted = s.halted := rfl
@[simp] theorem onHost_meterSeq (f : HostRegs → HostRegs) : (s.onHost f).meterSeq = s.meterSeq := rfl
@[simp] theorem onHost_loudSeq (f : HostRegs → HostRegs) : (s.onHost f).loudSeq = s.loudSeq := rfl
@[simp] theorem onHost_loudStepped (f : HostRegs → HostRegs) : (s.onHost f).loudStepped = s.loudStepped := rfl
@[simp] theorem onHost_sv (f : HostRegs → HostRegs) : (s.onHost f).sv = s.sv := rfl
@[simp] theorem onHost_journal (f : HostRegs → HostRegs) : (s.onHost f).journal = s.journal := rfl
@[simp] theorem onHost_flash (f : HostRegs → HostRegs) : (s.onHost f).flash = s.flash := rfl
@[simp] theorem onHost_outbox (f : HostRegs → HostRegs) : (s.onHost f).outbox = s.outbox := rfl
@[simp] theorem onHost_freeCtr (f : HostRegs → HostRegs) : (s.onHost f).freeCtr = s.freeCtr := rfl

/-! `State.onFaults` -/

@[simp] theorem onFaults_pending (f : Faults → Faults) : (s.onFaults f).pending = s.pending := rfl
@[simp] theorem onFaults_clk (f : Faults → Faults) : (s.onFaults f).clk = s.clk := rfl
@[simp] theorem onFaults_doms (f : Faults → Faults) : (s.onFaults f).doms = s.doms := rfl
@[simp] theorem onFaults_desks (f : Faults → Faults) : (s.onFaults f).desks = s.desks := rfl
@[simp] theorem onFaults_objs (f : Faults → Faults) : (s.onFaults f).objs = s.objs := rfl
@[simp] theorem onFaults_tabs (f : Faults → Faults) : (s.onFaults f).tabs = s.tabs := rfl
@[simp] theorem onFaults_jobs (f : Faults → Faults) : (s.onFaults f).jobs = s.jobs := rfl
@[simp] theorem onFaults_orderCtr (f : Faults → Faults) : (s.onFaults f).orderCtr = s.orderCtr := rfl
@[simp] theorem onFaults_recallCtr (f : Faults → Faults) : (s.onFaults f).recallCtr = s.recallCtr := rfl
@[simp] theorem onFaults_epoch (f : Faults → Faults) : (s.onFaults f).epoch = s.epoch := rfl
@[simp] theorem onFaults_recalls (f : Faults → Faults) : (s.onFaults f).recalls = s.recalls := rfl
@[simp] theorem onFaults_arms (f : Faults → Faults) : (s.onFaults f).arms = s.arms := rfl
@[simp] theorem onFaults_cores (f : Faults → Faults) : (s.onFaults f).cores = s.cores := rfl
@[simp] theorem onFaults_moves (f : Faults → Faults) : (s.onFaults f).moves = s.moves := rfl
@[simp] theorem onFaults_ceiling (f : Faults → Faults) : (s.onFaults f).ceiling = s.ceiling := rfl
@[simp] theorem onFaults_packages (f : Faults → Faults) : (s.onFaults f).packages = s.packages := rfl
@[simp] theorem onFaults_keySlots (f : Faults → Faults) : (s.onFaults f).keySlots = s.keySlots := rfl
@[simp] theorem onFaults_mem (f : Faults → Faults) : (s.onFaults f).mem = s.mem := rfl
@[simp] theorem onFaults_ctrs (f : Faults → Faults) : (s.onFaults f).ctrs = s.ctrs := rfl
@[simp] theorem onFaults_snap (f : Faults → Faults) : (s.onFaults f).snap = s.snap := rfl
@[simp] theorem onFaults_host (f : Faults → Faults) : (s.onFaults f).host = s.host := rfl
@[simp] theorem onFaults_lanes (f : Faults → Faults) : (s.onFaults f).lanes = s.lanes := rfl
@[simp] theorem onFaults_quadModes (f : Faults → Faults) : (s.onFaults f).quadModes = s.quadModes := rfl
@[simp] theorem onFaults_quarry (f : Faults → Faults) : (s.onFaults f).quarry = s.quarry := rfl
@[simp] theorem onFaults_engineId (f : Faults → Faults) : (s.onFaults f).engineId = s.engineId := rfl
@[simp] theorem onFaults_eth (f : Faults → Faults) : (s.onFaults f).eth = s.eth := rfl
@[simp] theorem onFaults_ptp (f : Faults → Faults) : (s.onFaults f).ptp = s.ptp := rfl
@[simp] theorem onFaults_tdm (f : Faults → Faults) : (s.onFaults f).tdm = s.tdm := rfl
@[simp] theorem onFaults_gpi (f : Faults → Faults) : (s.onFaults f).gpi = s.gpi := rfl
@[simp] theorem onFaults_gpo (f : Faults → Faults) : (s.onFaults f).gpo = s.gpo := rfl
@[simp] theorem onFaults_timing (f : Faults → Faults) : (s.onFaults f).timing = s.timing := rfl
@[simp] theorem onFaults_red (f : Faults → Faults) : (s.onFaults f).red = s.red := rfl
@[simp] theorem onFaults_faults (f : Faults → Faults) : (s.onFaults f).faults = f s.faults := rfl
@[simp] theorem onFaults_halted (f : Faults → Faults) : (s.onFaults f).halted = s.halted := rfl
@[simp] theorem onFaults_meterSeq (f : Faults → Faults) : (s.onFaults f).meterSeq = s.meterSeq := rfl
@[simp] theorem onFaults_loudSeq (f : Faults → Faults) : (s.onFaults f).loudSeq = s.loudSeq := rfl
@[simp] theorem onFaults_loudStepped (f : Faults → Faults) : (s.onFaults f).loudStepped = s.loudStepped := rfl
@[simp] theorem onFaults_sv (f : Faults → Faults) : (s.onFaults f).sv = s.sv := rfl
@[simp] theorem onFaults_journal (f : Faults → Faults) : (s.onFaults f).journal = s.journal := rfl
@[simp] theorem onFaults_flash (f : Faults → Faults) : (s.onFaults f).flash = s.flash := rfl
@[simp] theorem onFaults_outbox (f : Faults → Faults) : (s.onFaults f).outbox = s.outbox := rfl
@[simp] theorem onFaults_freeCtr (f : Faults → Faults) : (s.onFaults f).freeCtr = s.freeCtr := rfl

/-! `State.onQuarry` -/

@[simp] theorem onQuarry_pending (f : Quarry → Quarry) : (s.onQuarry f).pending = s.pending := rfl
@[simp] theorem onQuarry_clk (f : Quarry → Quarry) : (s.onQuarry f).clk = s.clk := rfl
@[simp] theorem onQuarry_doms (f : Quarry → Quarry) : (s.onQuarry f).doms = s.doms := rfl
@[simp] theorem onQuarry_desks (f : Quarry → Quarry) : (s.onQuarry f).desks = s.desks := rfl
@[simp] theorem onQuarry_objs (f : Quarry → Quarry) : (s.onQuarry f).objs = s.objs := rfl
@[simp] theorem onQuarry_tabs (f : Quarry → Quarry) : (s.onQuarry f).tabs = s.tabs := rfl
@[simp] theorem onQuarry_jobs (f : Quarry → Quarry) : (s.onQuarry f).jobs = s.jobs := rfl
@[simp] theorem onQuarry_orderCtr (f : Quarry → Quarry) : (s.onQuarry f).orderCtr = s.orderCtr := rfl
@[simp] theorem onQuarry_recallCtr (f : Quarry → Quarry) : (s.onQuarry f).recallCtr = s.recallCtr := rfl
@[simp] theorem onQuarry_epoch (f : Quarry → Quarry) : (s.onQuarry f).epoch = s.epoch := rfl
@[simp] theorem onQuarry_recalls (f : Quarry → Quarry) : (s.onQuarry f).recalls = s.recalls := rfl
@[simp] theorem onQuarry_arms (f : Quarry → Quarry) : (s.onQuarry f).arms = s.arms := rfl
@[simp] theorem onQuarry_cores (f : Quarry → Quarry) : (s.onQuarry f).cores = s.cores := rfl
@[simp] theorem onQuarry_moves (f : Quarry → Quarry) : (s.onQuarry f).moves = s.moves := rfl
@[simp] theorem onQuarry_ceiling (f : Quarry → Quarry) : (s.onQuarry f).ceiling = s.ceiling := rfl
@[simp] theorem onQuarry_packages (f : Quarry → Quarry) : (s.onQuarry f).packages = s.packages := rfl
@[simp] theorem onQuarry_keySlots (f : Quarry → Quarry) : (s.onQuarry f).keySlots = s.keySlots := rfl
@[simp] theorem onQuarry_mem (f : Quarry → Quarry) : (s.onQuarry f).mem = s.mem := rfl
@[simp] theorem onQuarry_ctrs (f : Quarry → Quarry) : (s.onQuarry f).ctrs = s.ctrs := rfl
@[simp] theorem onQuarry_snap (f : Quarry → Quarry) : (s.onQuarry f).snap = s.snap := rfl
@[simp] theorem onQuarry_host (f : Quarry → Quarry) : (s.onQuarry f).host = s.host := rfl
@[simp] theorem onQuarry_lanes (f : Quarry → Quarry) : (s.onQuarry f).lanes = s.lanes := rfl
@[simp] theorem onQuarry_quadModes (f : Quarry → Quarry) : (s.onQuarry f).quadModes = s.quadModes := rfl
@[simp] theorem onQuarry_quarry (f : Quarry → Quarry) : (s.onQuarry f).quarry = f s.quarry := rfl
@[simp] theorem onQuarry_engineId (f : Quarry → Quarry) : (s.onQuarry f).engineId = s.engineId := rfl
@[simp] theorem onQuarry_eth (f : Quarry → Quarry) : (s.onQuarry f).eth = s.eth := rfl
@[simp] theorem onQuarry_ptp (f : Quarry → Quarry) : (s.onQuarry f).ptp = s.ptp := rfl
@[simp] theorem onQuarry_tdm (f : Quarry → Quarry) : (s.onQuarry f).tdm = s.tdm := rfl
@[simp] theorem onQuarry_gpi (f : Quarry → Quarry) : (s.onQuarry f).gpi = s.gpi := rfl
@[simp] theorem onQuarry_gpo (f : Quarry → Quarry) : (s.onQuarry f).gpo = s.gpo := rfl
@[simp] theorem onQuarry_timing (f : Quarry → Quarry) : (s.onQuarry f).timing = s.timing := rfl
@[simp] theorem onQuarry_red (f : Quarry → Quarry) : (s.onQuarry f).red = s.red := rfl
@[simp] theorem onQuarry_faults (f : Quarry → Quarry) : (s.onQuarry f).faults = s.faults := rfl
@[simp] theorem onQuarry_halted (f : Quarry → Quarry) : (s.onQuarry f).halted = s.halted := rfl
@[simp] theorem onQuarry_meterSeq (f : Quarry → Quarry) : (s.onQuarry f).meterSeq = s.meterSeq := rfl
@[simp] theorem onQuarry_loudSeq (f : Quarry → Quarry) : (s.onQuarry f).loudSeq = s.loudSeq := rfl
@[simp] theorem onQuarry_loudStepped (f : Quarry → Quarry) : (s.onQuarry f).loudStepped = s.loudStepped := rfl
@[simp] theorem onQuarry_sv (f : Quarry → Quarry) : (s.onQuarry f).sv = s.sv := rfl
@[simp] theorem onQuarry_journal (f : Quarry → Quarry) : (s.onQuarry f).journal = s.journal := rfl
@[simp] theorem onQuarry_flash (f : Quarry → Quarry) : (s.onQuarry f).flash = s.flash := rfl
@[simp] theorem onQuarry_outbox (f : Quarry → Quarry) : (s.onQuarry f).outbox = s.outbox := rfl
@[simp] theorem onQuarry_freeCtr (f : Quarry → Quarry) : (s.onQuarry f).freeCtr = s.freeCtr := rfl

/-! `State.onTiming` -/

@[simp] theorem onTiming_pending (f : Timing → Timing) : (s.onTiming f).pending = s.pending := rfl
@[simp] theorem onTiming_clk (f : Timing → Timing) : (s.onTiming f).clk = s.clk := rfl
@[simp] theorem onTiming_doms (f : Timing → Timing) : (s.onTiming f).doms = s.doms := rfl
@[simp] theorem onTiming_desks (f : Timing → Timing) : (s.onTiming f).desks = s.desks := rfl
@[simp] theorem onTiming_objs (f : Timing → Timing) : (s.onTiming f).objs = s.objs := rfl
@[simp] theorem onTiming_tabs (f : Timing → Timing) : (s.onTiming f).tabs = s.tabs := rfl
@[simp] theorem onTiming_jobs (f : Timing → Timing) : (s.onTiming f).jobs = s.jobs := rfl
@[simp] theorem onTiming_orderCtr (f : Timing → Timing) : (s.onTiming f).orderCtr = s.orderCtr := rfl
@[simp] theorem onTiming_recallCtr (f : Timing → Timing) : (s.onTiming f).recallCtr = s.recallCtr := rfl
@[simp] theorem onTiming_epoch (f : Timing → Timing) : (s.onTiming f).epoch = s.epoch := rfl
@[simp] theorem onTiming_recalls (f : Timing → Timing) : (s.onTiming f).recalls = s.recalls := rfl
@[simp] theorem onTiming_arms (f : Timing → Timing) : (s.onTiming f).arms = s.arms := rfl
@[simp] theorem onTiming_cores (f : Timing → Timing) : (s.onTiming f).cores = s.cores := rfl
@[simp] theorem onTiming_moves (f : Timing → Timing) : (s.onTiming f).moves = s.moves := rfl
@[simp] theorem onTiming_ceiling (f : Timing → Timing) : (s.onTiming f).ceiling = s.ceiling := rfl
@[simp] theorem onTiming_packages (f : Timing → Timing) : (s.onTiming f).packages = s.packages := rfl
@[simp] theorem onTiming_keySlots (f : Timing → Timing) : (s.onTiming f).keySlots = s.keySlots := rfl
@[simp] theorem onTiming_mem (f : Timing → Timing) : (s.onTiming f).mem = s.mem := rfl
@[simp] theorem onTiming_ctrs (f : Timing → Timing) : (s.onTiming f).ctrs = s.ctrs := rfl
@[simp] theorem onTiming_snap (f : Timing → Timing) : (s.onTiming f).snap = s.snap := rfl
@[simp] theorem onTiming_host (f : Timing → Timing) : (s.onTiming f).host = s.host := rfl
@[simp] theorem onTiming_lanes (f : Timing → Timing) : (s.onTiming f).lanes = s.lanes := rfl
@[simp] theorem onTiming_quadModes (f : Timing → Timing) : (s.onTiming f).quadModes = s.quadModes := rfl
@[simp] theorem onTiming_quarry (f : Timing → Timing) : (s.onTiming f).quarry = s.quarry := rfl
@[simp] theorem onTiming_engineId (f : Timing → Timing) : (s.onTiming f).engineId = s.engineId := rfl
@[simp] theorem onTiming_eth (f : Timing → Timing) : (s.onTiming f).eth = s.eth := rfl
@[simp] theorem onTiming_ptp (f : Timing → Timing) : (s.onTiming f).ptp = s.ptp := rfl
@[simp] theorem onTiming_tdm (f : Timing → Timing) : (s.onTiming f).tdm = s.tdm := rfl
@[simp] theorem onTiming_gpi (f : Timing → Timing) : (s.onTiming f).gpi = s.gpi := rfl
@[simp] theorem onTiming_gpo (f : Timing → Timing) : (s.onTiming f).gpo = s.gpo := rfl
@[simp] theorem onTiming_timing (f : Timing → Timing) : (s.onTiming f).timing = f s.timing := rfl
@[simp] theorem onTiming_red (f : Timing → Timing) : (s.onTiming f).red = s.red := rfl
@[simp] theorem onTiming_faults (f : Timing → Timing) : (s.onTiming f).faults = s.faults := rfl
@[simp] theorem onTiming_halted (f : Timing → Timing) : (s.onTiming f).halted = s.halted := rfl
@[simp] theorem onTiming_meterSeq (f : Timing → Timing) : (s.onTiming f).meterSeq = s.meterSeq := rfl
@[simp] theorem onTiming_loudSeq (f : Timing → Timing) : (s.onTiming f).loudSeq = s.loudSeq := rfl
@[simp] theorem onTiming_loudStepped (f : Timing → Timing) : (s.onTiming f).loudStepped = s.loudStepped := rfl
@[simp] theorem onTiming_sv (f : Timing → Timing) : (s.onTiming f).sv = s.sv := rfl
@[simp] theorem onTiming_journal (f : Timing → Timing) : (s.onTiming f).journal = s.journal := rfl
@[simp] theorem onTiming_flash (f : Timing → Timing) : (s.onTiming f).flash = s.flash := rfl
@[simp] theorem onTiming_outbox (f : Timing → Timing) : (s.onTiming f).outbox = s.outbox := rfl
@[simp] theorem onTiming_freeCtr (f : Timing → Timing) : (s.onTiming f).freeCtr = s.freeCtr := rfl

/-! `State.addCtr` -/

@[simp] theorem addCtr_pending (o n : Nat) : (s.addCtr o n).pending = s.pending := rfl
@[simp] theorem addCtr_clk (o n : Nat) : (s.addCtr o n).clk = s.clk := rfl
@[simp] theorem addCtr_doms (o n : Nat) : (s.addCtr o n).doms = s.doms := rfl
@[simp] theorem addCtr_desks (o n : Nat) : (s.addCtr o n).desks = s.desks := rfl
@[simp] theorem addCtr_objs (o n : Nat) : (s.addCtr o n).objs = s.objs := rfl
@[simp] theorem addCtr_tabs (o n : Nat) : (s.addCtr o n).tabs = s.tabs := rfl
@[simp] theorem addCtr_jobs (o n : Nat) : (s.addCtr o n).jobs = s.jobs := rfl
@[simp] theorem addCtr_orderCtr (o n : Nat) : (s.addCtr o n).orderCtr = s.orderCtr := rfl
@[simp] theorem addCtr_recallCtr (o n : Nat) : (s.addCtr o n).recallCtr = s.recallCtr := rfl
@[simp] theorem addCtr_epoch (o n : Nat) : (s.addCtr o n).epoch = s.epoch := rfl
@[simp] theorem addCtr_recalls (o n : Nat) : (s.addCtr o n).recalls = s.recalls := rfl
@[simp] theorem addCtr_arms (o n : Nat) : (s.addCtr o n).arms = s.arms := rfl
@[simp] theorem addCtr_cores (o n : Nat) : (s.addCtr o n).cores = s.cores := rfl
@[simp] theorem addCtr_moves (o n : Nat) : (s.addCtr o n).moves = s.moves := rfl
@[simp] theorem addCtr_ceiling (o n : Nat) : (s.addCtr o n).ceiling = s.ceiling := rfl
@[simp] theorem addCtr_packages (o n : Nat) : (s.addCtr o n).packages = s.packages := rfl
@[simp] theorem addCtr_keySlots (o n : Nat) : (s.addCtr o n).keySlots = s.keySlots := rfl
@[simp] theorem addCtr_mem (o n : Nat) : (s.addCtr o n).mem = s.mem := rfl
@[simp] theorem addCtr_ctrs (o n : Nat) : (s.addCtr o n).ctrs = assocSet s.ctrs o ((s.ctr o + n) % 2 ^ 64) := rfl
@[simp] theorem addCtr_snap (o n : Nat) : (s.addCtr o n).snap = s.snap := rfl
@[simp] theorem addCtr_host (o n : Nat) : (s.addCtr o n).host = s.host := rfl
@[simp] theorem addCtr_lanes (o n : Nat) : (s.addCtr o n).lanes = s.lanes := rfl
@[simp] theorem addCtr_quadModes (o n : Nat) : (s.addCtr o n).quadModes = s.quadModes := rfl
@[simp] theorem addCtr_quarry (o n : Nat) : (s.addCtr o n).quarry = s.quarry := rfl
@[simp] theorem addCtr_engineId (o n : Nat) : (s.addCtr o n).engineId = s.engineId := rfl
@[simp] theorem addCtr_eth (o n : Nat) : (s.addCtr o n).eth = s.eth := rfl
@[simp] theorem addCtr_ptp (o n : Nat) : (s.addCtr o n).ptp = s.ptp := rfl
@[simp] theorem addCtr_tdm (o n : Nat) : (s.addCtr o n).tdm = s.tdm := rfl
@[simp] theorem addCtr_gpi (o n : Nat) : (s.addCtr o n).gpi = s.gpi := rfl
@[simp] theorem addCtr_gpo (o n : Nat) : (s.addCtr o n).gpo = s.gpo := rfl
@[simp] theorem addCtr_timing (o n : Nat) : (s.addCtr o n).timing = s.timing := rfl
@[simp] theorem addCtr_red (o n : Nat) : (s.addCtr o n).red = s.red := rfl
@[simp] theorem addCtr_faults (o n : Nat) : (s.addCtr o n).faults = s.faults := rfl
@[simp] theorem addCtr_halted (o n : Nat) : (s.addCtr o n).halted = s.halted := rfl
@[simp] theorem addCtr_meterSeq (o n : Nat) : (s.addCtr o n).meterSeq = s.meterSeq := rfl
@[simp] theorem addCtr_loudSeq (o n : Nat) : (s.addCtr o n).loudSeq = s.loudSeq := rfl
@[simp] theorem addCtr_loudStepped (o n : Nat) : (s.addCtr o n).loudStepped = s.loudStepped := rfl
@[simp] theorem addCtr_sv (o n : Nat) : (s.addCtr o n).sv = s.sv := rfl
@[simp] theorem addCtr_journal (o n : Nat) : (s.addCtr o n).journal = s.journal := rfl
@[simp] theorem addCtr_flash (o n : Nat) : (s.addCtr o n).flash = s.flash := rfl
@[simp] theorem addCtr_outbox (o n : Nat) : (s.addCtr o n).outbox = s.outbox := rfl
@[simp] theorem addCtr_freeCtr (o n : Nat) : (s.addCtr o n).freeCtr = s.freeCtr := rfl

/-! `State.latchCounts` -/

@[simp] theorem latchCounts_pending (p : PendSnap → Bool) : (s.latchCounts p).pending = s.pending := rfl
@[simp] theorem latchCounts_clk (p : PendSnap → Bool) : (s.latchCounts p).clk = s.clk := rfl
@[simp] theorem latchCounts_doms (p : PendSnap → Bool) : (s.latchCounts p).doms = s.doms := rfl
@[simp] theorem latchCounts_desks (p : PendSnap → Bool) : (s.latchCounts p).desks = s.desks := rfl
@[simp] theorem latchCounts_objs (p : PendSnap → Bool) : (s.latchCounts p).objs = s.objs := rfl
@[simp] theorem latchCounts_tabs (p : PendSnap → Bool) : (s.latchCounts p).tabs = s.tabs := rfl
@[simp] theorem latchCounts_jobs (p : PendSnap → Bool) : (s.latchCounts p).jobs = s.jobs := rfl
@[simp] theorem latchCounts_orderCtr (p : PendSnap → Bool) : (s.latchCounts p).orderCtr = s.orderCtr := rfl
@[simp] theorem latchCounts_recallCtr (p : PendSnap → Bool) : (s.latchCounts p).recallCtr = s.recallCtr := rfl
@[simp] theorem latchCounts_epoch (p : PendSnap → Bool) : (s.latchCounts p).epoch = s.epoch := rfl
@[simp] theorem latchCounts_recalls (p : PendSnap → Bool) : (s.latchCounts p).recalls = s.recalls := rfl
@[simp] theorem latchCounts_arms (p : PendSnap → Bool) : (s.latchCounts p).arms = s.arms := rfl
@[simp] theorem latchCounts_cores (p : PendSnap → Bool) : (s.latchCounts p).cores = s.cores := rfl
@[simp] theorem latchCounts_moves (p : PendSnap → Bool) : (s.latchCounts p).moves = s.moves := rfl
@[simp] theorem latchCounts_ceiling (p : PendSnap → Bool) : (s.latchCounts p).ceiling = s.ceiling := rfl
@[simp] theorem latchCounts_packages (p : PendSnap → Bool) : (s.latchCounts p).packages = s.packages := rfl
@[simp] theorem latchCounts_keySlots (p : PendSnap → Bool) : (s.latchCounts p).keySlots = s.keySlots := rfl
@[simp] theorem latchCounts_mem (p : PendSnap → Bool) : (s.latchCounts p).mem = s.mem := rfl
@[simp] theorem latchCounts_ctrs (p : PendSnap → Bool) : (s.latchCounts p).ctrs = s.ctrs := rfl
@[simp] theorem latchCounts_host (p : PendSnap → Bool) : (s.latchCounts p).host = s.host := rfl
@[simp] theorem latchCounts_lanes (p : PendSnap → Bool) : (s.latchCounts p).lanes = s.lanes := rfl
@[simp] theorem latchCounts_quadModes (p : PendSnap → Bool) : (s.latchCounts p).quadModes = s.quadModes := rfl
@[simp] theorem latchCounts_quarry (p : PendSnap → Bool) : (s.latchCounts p).quarry = s.quarry := rfl
@[simp] theorem latchCounts_engineId (p : PendSnap → Bool) : (s.latchCounts p).engineId = s.engineId := rfl
@[simp] theorem latchCounts_eth (p : PendSnap → Bool) : (s.latchCounts p).eth = s.eth := rfl
@[simp] theorem latchCounts_ptp (p : PendSnap → Bool) : (s.latchCounts p).ptp = s.ptp := rfl
@[simp] theorem latchCounts_tdm (p : PendSnap → Bool) : (s.latchCounts p).tdm = s.tdm := rfl
@[simp] theorem latchCounts_gpi (p : PendSnap → Bool) : (s.latchCounts p).gpi = s.gpi := rfl
@[simp] theorem latchCounts_gpo (p : PendSnap → Bool) : (s.latchCounts p).gpo = s.gpo := rfl
@[simp] theorem latchCounts_timing (p : PendSnap → Bool) : (s.latchCounts p).timing = s.timing := rfl
@[simp] theorem latchCounts_red (p : PendSnap → Bool) : (s.latchCounts p).red = s.red := rfl
@[simp] theorem latchCounts_faults (p : PendSnap → Bool) : (s.latchCounts p).faults = s.faults := rfl
@[simp] theorem latchCounts_halted (p : PendSnap → Bool) : (s.latchCounts p).halted = s.halted := rfl
@[simp] theorem latchCounts_meterSeq (p : PendSnap → Bool) : (s.latchCounts p).meterSeq = s.meterSeq := rfl
@[simp] theorem latchCounts_loudSeq (p : PendSnap → Bool) : (s.latchCounts p).loudSeq = s.loudSeq := rfl
@[simp] theorem latchCounts_loudStepped (p : PendSnap → Bool) : (s.latchCounts p).loudStepped = s.loudStepped := rfl
@[simp] theorem latchCounts_sv (p : PendSnap → Bool) : (s.latchCounts p).sv = s.sv := rfl
@[simp] theorem latchCounts_journal (p : PendSnap → Bool) : (s.latchCounts p).journal = s.journal := rfl
@[simp] theorem latchCounts_flash (p : PendSnap → Bool) : (s.latchCounts p).flash = s.flash := rfl
@[simp] theorem latchCounts_outbox (p : PendSnap → Bool) : (s.latchCounts p).outbox = s.outbox := rfl
@[simp] theorem latchCounts_freeCtr (p : PendSnap → Bool) : (s.latchCounts p).freeCtr = s.freeCtr := rfl

end Sys2Proof.Laws
end

