-- ==== Sys2Proof/Laws/Off.lean ====
section
/-! SUPPORT. What an engine that does not serve, or whose die is off, leaves undone; and the frames of the operations that raise events,
draw free values and carry RAW forward. -/
namespace Sys2Proof.Laws
open Sys2Proof.Machine

theorem serving_of_off {s : State} (h : s.dieOn = false) : s.serving = false := by
  unfold State.dieOn at h
  unfold State.serving
  cases hs : s.sv.st <;> simp_all

theorem dieOn_of_serving {s : State} (h : s.serving = true) : s.dieOn = true := by
  unfold State.serving at h
  unfold State.dieOn
  cases hs : s.sv.st <;> simp_all

theorem takeable_of_idle {s : State} (h : s.serving = false) (f : CmdFrame) : takeable s f = false := by simp [takeable, h]

theorem takeSlot_idle {s : State} (h : s.serving = false) (d : Nat) : s.takeSlot d = s := if_pos (by simp [h])

theorem foldl_same {α β : Type} (g : β → α → β) (b : β) (l : List α) (h : ∀ a, g b a = b) : l.foldl g b = b := by
  induction l with
  | nil => rfl
  | cons a l ih => simp [h, ih]

theorem takeSlots_idle {s : State} (h : s.serving = false) (d : Nat) : s.takeSlots d = s :=
  foldl_same _ _ _ fun _ => takeSlot_idle h d

theorem deliver_idle {s : State} (h : s.serving = false) (d : Nat) : s.deliver d = s := if_pos (by simp [h])

theorem datagram_idle {s : State} (h : s.serving = false) (d : Datagram) : s.datagramIn d = s := if_pos (by simp [h])

/-- Raising an event to a desk changes its history and the counter of events lost, and nothing else. -/
theorem raiseTo_frame (s : State) (d code : Nat) (p : List Byte) :
    ∃ cs ds, s.raiseTo d code p = { s with ctrs := cs, desks := ds } := by
  unfold State.raiseTo
  dsimp only
  split
  · exact ⟨_, _, rfl⟩
  · exact ⟨s.ctrs, _, rfl⟩

theorem raise_frame (s : State) (ds : List Nat) (code : Nat) (p : List Byte) :
    ∃ cs ks, s.raise ds code p = { s with ctrs := cs, desks := ks } := by
  unfold State.raise
  generalize ds.eraseDups = l
  induction l generalizing s with
  | nil => exact ⟨s.ctrs, s.desks, rfl⟩
  | cons d l ih =>
    obtain ⟨cs, ks, h⟩ := raiseTo_frame s d code p
    obtain ⟨cs', ks', h'⟩ := ih (s.raiseTo d code p)
    exact ⟨cs', ks', by rw [List.foldl_cons, h', h]⟩

@[simp] theorem raise_mem (s : State) (ds : List Nat) (code : Nat) (p : List Byte) : (s.raise ds code p).mem = s.mem := by
  obtain ⟨cs, ks, h⟩ := raise_frame s ds code p
  rw [h]

/-- Carrying RAW forward changes the clock, the pulses sent and the record of the last pulse, and nothing else. -/
theorem toRaw_frame (s : State) (raw : Nat) :
    ∃ os pl, s.toRaw raw = { s with clk := { s.clk with raw := raw }, outbox := os, timing := { s.timing with ppsLast := pl } } := by
  suffices H : ∀ (l : List Nat) (g : Nat → Nat) (t : State), ∃ os pl, l.foldl (fun s i => s.pulse (g i)) t =
      { t with outbox := os, timing := { t.timing with ppsLast := pl } } by
    exact H _ (fun i => s.q / secondQ + 1 + i) { s with clk := { s.clk with raw := raw } }
  intro l g
  induction l with
  | nil => exact fun t => ⟨t.outbox, t.timing.ppsLast, rfl⟩
  | cons i l ih =>
    intro t
    have hp : ∃ os pl, t.pulse (g i) = { t with outbox := os, timing := { t.timing with ppsLast := pl } } := by
      unfold State.pulse
      dsimp only
      split
      · exact ⟨_, _, rfl⟩
      · exact ⟨t.outbox, t.timing.ppsLast, rfl⟩
    obtain ⟨os, pl, h⟩ := hp
    obtain ⟨os', pl', h'⟩ := ih (t.pulse (g i))
    exact ⟨os', pl', by rw [List.foldl_cons, h', h]⟩

theorem carryTo_frame (s : State) (q : Nat) :
    ∃ r os pl, s.carryTo q = { s with clk := { s.clk with raw := r }, outbox := os, timing := { s.timing with ppsLast := pl } } := by
  unfold State.carryTo
  split
  · exact ⟨s.clk.raw, s.outbox, s.timing.ppsLast, rfl⟩
  · obtain ⟨os, pl, h⟩ := toRaw_frame s (rawFor s.clk q)
    exact ⟨_, os, pl, h⟩

end Sys2Proof.Laws
end

