-- ==== Sys2Proof/Laws/Params.lean ====
section
/-! SUPPORT. A parameter write without block pages (R131-R135) opens no deferred command. -/
namespace Sys2Proof.Laws
open Sys2Proof.Machine

theorem raiseObj_jobs (s : State) (d code : Nat) (p : List Byte) : (s.raiseObj d code p).jobs = s.jobs := by
  obtain ⟨cs, ks, h⟩ := raise_frame s [d, 0] code p
  rw [State.raiseObj, h]

theorem slipEvent_jobs (s : State) (f : CmdFrame) (op r : Nat) (w : When) : (s.slipEvent f op r w).jobs = s.jobs := by
  unfold State.slipEvent
  split
  · obtain ⟨cs, ks, h⟩ := raise_frame s [f.desk] 0x0102 (le 2 op ++ le 1 r ++ le 1 0 ++ le 4 f.seq ++ le 8 w.asked ++ le 8 w.s)
    rw [h]
  · rfl

theorem bind_ok {ε α β : Type} {x : Except ε α} {g : α → Except ε β} {b : β} (h : (x >>= g) = .ok b) :
    ∃ a, x = .ok a ∧ g a = .ok b := by
  cases x with
  | error e => cases h
  | ok a => exact ⟨a, rfl, h⟩

theorem stagePlain_jobs {f : CmdFrame} {h : Nat} {x : Timing3} {w : When} {warm charge recallOf : Nat} {vals : List (Nat × Nat)}
    {s t : State} (e : stagePlain f h x w warm charge recallOf vals s = .ok t) : t.jobs = s.jobs := by
  unfold stagePlain at e
  split at e
  · cases e; rfl
  · dsimp only at e
    split at e
    · cases e; rfl
    · split at e
      · cases e
      · cases e
        split
        · exact raiseObj_jobs _ _ _ _
        · rfl

/-- A parameter write of a Meter, Service, Capture or package block leaves the deferred commands as they are. -/
theorem plainWrite_jobs {op law0 : Nat} {spec : State → Obj → Nat → Option PSpec} {s t : State} {f : CmdFrame} {o : Obj}
    {recs : List (Nat × Nat)} {w : When} (e : plainWrite op spec law0 s f o recs = .ok (w, t)) : t.jobs = s.jobs := by
  unfold plainWrite at e
  dsimp only at e
  obtain ⟨_, -, e⟩ := bind_ok e
  obtain ⟨x, -, e⟩ := bind_ok e
  obtain ⟨l, -, e⟩ := bind_ok e
  obtain ⟨_, -, e⟩ := bind_ok e
  obtain ⟨v, -, e⟩ := bind_ok e
  split at e
  all_goals
    obtain ⟨s₁, h₁, e⟩ := bind_ok e
    obtain ⟨_, -, e⟩ := bind_ok e
    cases e
    rw [slipEvent_jobs]
  · cases h₁
    rfl
  · have h := stagePlain_jobs h₁
    exact h

end Sys2Proof.Laws
end

