-- ==== Sys2Proof/Laws/PerInstr.lean ====
section
/-! SUPPORT. One lemma per command: a Ruzia command's opcode is the opcode of a row of the table (R310), and every other command has
no opcode. -/
namespace Sys2Proof.Laws.Opcode
open Sys2Proof Sys2Proof.Machine

/-- The opcode of a Ruzia command names a row of the opcode table. -/
def Statement (c : Instr) : Prop := ∀ op f, ruziaOf c = some (op, f) → ∃ o, rowOf op = some o ∧ o.op = op

theorem of_row {c : Instr} {n : Nat} {f : CmdFrame} {o : RuziaOp} (h : ruziaOf c = some (n, f)) (r : rowOf n = some o) (e : o.op = n) :
    Statement c := by
  intro op g hg
  rw [h] at hg
  cases hg
  exact ⟨o, r, e⟩

theorem of_none {c : Instr} (h : ruziaOf c = none) : Statement c := by
  intro op g hg
  rw [h] at hg
  cases hg

theorem sysInfo (f : CmdFrame) : Statement (.sysInfo f) := of_row rfl rfl rfl
theorem sysSnapshot (f : CmdFrame) : Statement (.sysSnapshot f) := of_row rfl rfl rfl
theorem sysRestart (f : CmdFrame) : Statement (.sysRestart f) := of_row rfl rfl rfl
theorem sysImageWrite (f : CmdFrame) : Statement (.sysImageWrite f) := of_row rfl rfl rfl
theorem deskInfo (f : CmdFrame) : Statement (.deskInfo f) := of_row rfl rfl rfl
theorem deskOpen (f : CmdFrame) : Statement (.deskOpen f) := of_row rfl rfl rfl
theorem deskClose (f : CmdFrame) : Statement (.deskClose f) := of_row rfl rfl rfl
theorem deskPing (f : CmdFrame) : Statement (.deskPing f) := of_row rfl rfl rfl
theorem deskAttach (f : CmdFrame) : Statement (.deskAttach f) := of_row rfl rfl rfl
theorem deskAttachEffect (desk : Nat) : Statement (.deskAttachEffect desk) := of_none rfl
theorem deskKeySet (f : CmdFrame) : Statement (.deskKeySet f) := of_row rfl rfl rfl
theorem deskQuotaSet (f : CmdFrame) : Statement (.deskQuotaSet f) := of_row rfl rfl rfl
theorem deskDefaultsSet (f : CmdFrame) : Statement (.deskDefaultsSet f) := of_row rfl rfl rfl
theorem deskEventReplay (f : CmdFrame) : Statement (.deskEventReplay f) := of_row rfl rfl rfl
theorem stripInfo (f : CmdFrame) : Statement (.stripInfo f) := of_row rfl rfl rfl
theorem stripAlloc (f : CmdFrame) : Statement (.stripAlloc f) := of_row rfl rfl rfl
theorem stripFree (f : CmdFrame) : Statement (.stripFree f) := of_row rfl rfl rfl
theorem stripParamSet (f : CmdFrame) : Statement (.stripParamSet f) := of_row rfl rfl rfl
theorem stripParamGet (f : CmdFrame) : Statement (.stripParamGet f) := of_row rfl rfl rfl
theorem busInfo (f : CmdFrame) : Statement (.busInfo f) := of_row rfl rfl rfl
theorem busAlloc (f : CmdFrame) : Statement (.busAlloc f) := of_row rfl rfl rfl
theorem busFree (f : CmdFrame) : Statement (.busFree f) := of_row rfl rfl rfl
theorem busParamSet (f : CmdFrame) : Statement (.busParamSet f) := of_row rfl rfl rfl
theorem busParamGet (f : CmdFrame) : Statement (.busParamGet f) := of_row rfl rfl rfl
theorem busAttrSet (f : CmdFrame) : Statement (.busAttrSet f) := of_row rfl rfl rfl
theorem busLayout (f : CmdFrame) : Statement (.busLayout f) := of_row rfl rfl rfl
theorem nodeTilesInfo (f : CmdFrame) : Statement (.nodeTilesInfo f) := of_row rfl rfl rfl
theorem nodeTilesAlloc (f : CmdFrame) : Statement (.nodeTilesAlloc f) := of_row rfl rfl rfl
theorem nodeTilesFree (f : CmdFrame) : Statement (.nodeTilesFree f) := of_row rfl rfl rfl
theorem nodeTilesDefault (f : CmdFrame) : Statement (.nodeTilesDefault f) := of_row rfl rfl rfl
theorem nodeSet (f : CmdFrame) : Statement (.nodeSet f) := of_row rfl rfl rfl
theorem nodeBulk (f : CmdFrame) : Statement (.nodeBulk f) := of_row rfl rfl rfl
theorem nodeGet (f : CmdFrame) : Statement (.nodeGet f) := of_row rfl rfl rfl
theorem nodeLoadComplete (order : Nat) : Statement (.nodeLoadComplete order) := of_none rfl
theorem groupInfo (f : CmdFrame) : Statement (.groupInfo f) := of_row rfl rfl rfl
theorem groupAlloc (f : CmdFrame) : Statement (.groupAlloc f) := of_row rfl rfl rfl
theorem groupFree (f : CmdFrame) : Statement (.groupFree f) := of_row rfl rfl rfl
theorem groupSet (f : CmdFrame) : Statement (.groupSet f) := of_row rfl rfl rfl
theorem groupMemberSet (f : CmdFrame) : Statement (.groupMemberSet f) := of_row rfl rfl rfl
theorem ringInfo (f : CmdFrame) : Statement (.ringInfo f) := of_row rfl rfl rfl
theorem ringAlloc (f : CmdFrame) : Statement (.ringAlloc f) := of_row rfl rfl rfl
theorem ringFree (f : CmdFrame) : Statement (.ringFree f) := of_row rfl rfl rfl
theorem ringDeep (f : CmdFrame) : Statement (.ringDeep f) := of_row rfl rfl rfl
theorem routeInfo (f : CmdFrame) : Statement (.routeInfo f) := of_row rfl rfl rfl
theorem routeCreate (f : CmdFrame) : Statement (.routeCreate f) := of_row rfl rfl rfl
theorem routeDelete (f : CmdFrame) : Statement (.routeDelete f) := of_row rfl rfl rfl
theorem routeCut (f : CmdFrame) : Statement (.routeCut f) := of_row rfl rfl rfl
theorem routeKerf (f : CmdFrame) : Statement (.routeKerf f) := of_row rfl rfl rfl
theorem routeSet (f : CmdFrame) : Statement (.routeSet f) := of_row rfl rfl rfl
theorem routePolicy (f : CmdFrame) : Statement (.routePolicy f) := of_row rfl rfl rfl
theorem portInfo (f : CmdFrame) : Statement (.portInfo f) := of_row rfl rfl rfl
theorem portAssign (f : CmdFrame) : Statement (.portAssign f) := of_row rfl rfl rfl
theorem portTdmConfig (f : CmdFrame) : Statement (.portTdmConfig f) := of_row rfl rfl rfl
theorem portSlotBind (f : CmdFrame) : Statement (.portSlotBind f) := of_row rfl rfl rfl
theorem portDitherSet (f : CmdFrame) : Statement (.portDitherSet f) := of_row rfl rfl rfl
theorem portQuadMode (f : CmdFrame) : Statement (.portQuadMode f) := of_row rfl rfl rfl
theorem portGpiBind (f : CmdFrame) : Statement (.portGpiBind f) := of_row rfl rfl rfl
theorem portGpoBind (f : CmdFrame) : Statement (.portGpoBind f) := of_row rfl rfl rfl
theorem portGpoSet (f : CmdFrame) : Statement (.portGpoSet f) := of_row rfl rfl rfl
theorem portGpoClear (f : CmdFrame) : Statement (.portGpoClear f) := of_row rfl rfl rfl
theorem streamInfo (f : CmdFrame) : Statement (.streamInfo f) := of_row rfl rfl rfl
theorem streamRxCreate (f : CmdFrame) : Statement (.streamRxCreate f) := of_row rfl rfl rfl
theorem streamTxCreate (f : CmdFrame) : Statement (.streamTxCreate f) := of_row rfl rfl rfl
theorem streamDelete (f : CmdFrame) : Statement (.streamDelete f) := of_row rfl rfl rfl
theorem streamSdpGet (f : CmdFrame) : Statement (.streamSdpGet f) := of_row rfl rfl rfl
theorem streamSdpSet (f : CmdFrame) : Statement (.streamSdpSet f) := of_row rfl rfl rfl
theorem sceneInfo (f : CmdFrame) : Statement (.sceneInfo f) := of_row rfl rfl rfl
theorem sceneStore (f : CmdFrame) : Statement (.sceneStore f) := of_row rfl rfl rfl
theorem sceneStoreComplete (desk seq : Nat) : Statement (.sceneStoreComplete desk seq) := of_none rfl
theorem sceneDelete (f : CmdFrame) : Statement (.sceneDelete f) := of_row rfl rfl rfl
theorem sceneRecall (f : CmdFrame) : Statement (.sceneRecall f) := of_row rfl rfl rfl
theorem sceneCancel (f : CmdFrame) : Statement (.sceneCancel f) := of_row rfl rfl rfl
theorem sceneArm (f : CmdFrame) : Statement (.sceneArm f) := of_row rfl rfl rfl
theorem sceneGo (f : CmdFrame) : Statement (.sceneGo f) := of_row rfl rfl rfl
theorem sceneSafeSet (f : CmdFrame) : Statement (.sceneSafeSet f) := of_row rfl rfl rfl
theorem sceneNumberSet (f : CmdFrame) : Statement (.sceneNumberSet f) := of_row rfl rfl rfl
theorem scenePlanGet (f : CmdFrame) : Statement (.scenePlanGet f) := of_row rfl rfl rfl
theorem recallPlanPoint (recallId : Nat) : Statement (.recallPlanPoint recallId) := of_none rfl
theorem quarryArm (m : QuarryMsg) : Statement (.quarryArm m) := of_none rfl
theorem quarryReady (m : QuarryMsg) : Statement (.quarryReady m) := of_none rfl
theorem quarryLate (m : QuarryMsg) : Statement (.quarryLate m) := of_none rfl
theorem quarryRetarget (m : QuarryMsg) : Statement (.quarryRetarget m) := of_none rfl
theorem quarryGo (m : QuarryMsg) : Statement (.quarryGo m) := of_none rfl
theorem quarryAbort (m : QuarryMsg) : Statement (.quarryAbort m) := of_none rfl
theorem keeperDecisionPoint (recallId : Nat) : Statement (.keeperDecisionPoint recallId) := of_none rfl
theorem recallOrphanDeadline (recallId : Nat) : Statement (.recallOrphanDeadline recallId) := of_none rfl
theorem domainInfo (f : CmdFrame) : Statement (.domainInfo f) := of_row rfl rfl rfl
theorem domainConfig (f : CmdFrame) : Statement (.domainConfig f) := of_row rfl rfl rfl
theorem domainStart (f : CmdFrame) : Statement (.domainStart f) := of_row rfl rfl rfl
theorem domainStop (f : CmdFrame) : Statement (.domainStop f) := of_row rfl rfl rfl
theorem domainRateSet (f : CmdFrame) : Statement (.domainRateSet f) := of_row rfl rfl rfl
theorem domainBridgeAlloc (f : CmdFrame) : Statement (.domainBridgeAlloc f) := of_row rfl rfl rfl
theorem domainBridgeFree (f : CmdFrame) : Statement (.domainBridgeFree f) := of_row rfl rfl rfl
theorem domainBridgeInfo (f : CmdFrame) : Statement (.domainBridgeInfo f) := of_row rfl rfl rfl
theorem domainStopInstant (dom : Nat) : Statement (.domainStopInstant dom) := of_none rfl
theorem domainRestartInstant (dom : Nat) : Statement (.domainRestartInstant dom) := of_none rfl
theorem domainFadeInEnd (dom : Nat) : Statement (.domainFadeInEnd dom) := of_none rfl
theorem timingInfo (f : CmdFrame) : Statement (.timingInfo f) := of_row rfl rfl rfl
theorem timingNow (f : CmdFrame) : Statement (.timingNow f) := of_row rfl rfl rfl
theorem timingRefConfig (f : CmdFrame) : Statement (.timingRefConfig f) := of_row rfl rfl rfl
theorem timingPllSet (f : CmdFrame) : Statement (.timingPllSet f) := of_row rfl rfl rfl
theorem timingHoldoverSet (f : CmdFrame) : Statement (.timingHoldoverSet f) := of_row rfl rfl rfl
theorem timingOffsetSet (f : CmdFrame) : Statement (.timingOffsetSet f) := of_row rfl rfl rfl
theorem timingSpliceSet (f : CmdFrame) : Statement (.timingSpliceSet f) := of_row rfl rfl rfl
theorem timingStickyClear (f : CmdFrame) : Statement (.timingStickyClear f) := of_row rfl rfl rfl
theorem timingSelect (f : CmdFrame) : Statement (.timingSelect f) := of_row rfl rfl rfl
theorem meterInfo (f : CmdFrame) : Statement (.meterInfo f) := of_row rfl rfl rfl
theorem meterAlloc (f : CmdFrame) : Statement (.meterAlloc f) := of_row rfl rfl rfl
theorem meterFree (f : CmdFrame) : Statement (.meterFree f) := of_row rfl rfl rfl
theorem meterTap (f : CmdFrame) : Statement (.meterTap f) := of_row rfl rfl rfl
theorem meterParamSet (f : CmdFrame) : Statement (.meterParamSet f) := of_row rfl rfl rfl
theorem meterLoudCtl (f : CmdFrame) : Statement (.meterLoudCtl f) := of_row rfl rfl rfl
theorem svcInfo (f : CmdFrame) : Statement (.svcInfo f) := of_row rfl rfl rfl
theorem svcAlloc (f : CmdFrame) : Statement (.svcAlloc f) := of_row rfl rfl rfl
theorem svcFree (f : CmdFrame) : Statement (.svcFree f) := of_row rfl rfl rfl
theorem svcParamSet (f : CmdFrame) : Statement (.svcParamSet f) := of_row rfl rfl rfl
theorem svcParamGet (f : CmdFrame) : Statement (.svcParamGet f) := of_row rfl rfl rfl
theorem svcTalk (f : CmdFrame) : Statement (.svcTalk f) := of_row rfl rfl rfl
theorem svcSoloSet (f : CmdFrame) : Statement (.svcSoloSet f) := of_row rfl rfl rfl
theorem captureInfo (f : CmdFrame) : Statement (.captureInfo f) := of_row rfl rfl rfl
theorem captureAlloc (f : CmdFrame) : Statement (.captureAlloc f) := of_row rfl rfl rfl
theorem captureFree (f : CmdFrame) : Statement (.captureFree f) := of_row rfl rfl rfl
theorem captureFreeze (f : CmdFrame) : Statement (.captureFreeze f) := of_row rfl rfl rfl
theorem capturePlay (f : CmdFrame) : Statement (.capturePlay f) := of_row rfl rfl rfl
theorem captureStop (f : CmdFrame) : Statement (.captureStop f) := of_row rfl rfl rfl
theorem captureRelease (f : CmdFrame) : Statement (.captureRelease f) := of_row rfl rfl rfl
theorem captureRead (f : CmdFrame) : Statement (.captureRead f) := of_row rfl rfl rfl
theorem captureParamSet (f : CmdFrame) : Statement (.captureParamSet f) := of_row rfl rfl rfl
theorem captureStopIndexReached (capture : Nat) : Statement (.captureStopIndexReached capture) := of_none rfl
theorem capturePlayEnd (capture : Nat) : Statement (.capturePlayEnd capture) := of_none rfl
theorem redInfo (f : CmdFrame) : Statement (.redInfo f) := of_row rfl rfl rfl
theorem redConfig (f : CmdFrame) : Statement (.redConfig f) := of_row rfl rfl rfl
theorem redSwitch (f : CmdFrame) : Statement (.redSwitch f) := of_row rfl rfl rfl
theorem redRejoin (f : CmdFrame) : Statement (.redRejoin f) := of_row rfl rfl rfl
theorem faultLogGet (f : CmdFrame) : Statement (.faultLogGet f) := of_row rfl rfl rfl
theorem faultClear (f : CmdFrame) : Statement (.faultClear f) := of_row rfl rfl rfl
theorem spareInfo (f : CmdFrame) : Statement (.spareInfo f) := of_row rfl rfl rfl
theorem spareTest (f : CmdFrame) : Statement (.spareTest f) := of_row rfl rfl rfl
theorem spareTestComplete (kind unit : Nat) (pass : Bool) : Statement (.spareTestComplete kind unit pass) := of_none rfl
theorem blockInfo (f : CmdFrame) : Statement (.blockInfo f) := of_row rfl rfl rfl
theorem blockCeilingSet (f : CmdFrame) : Statement (.blockCeilingSet f) := of_row rfl rfl rfl
theorem blockPkgLoad (f : CmdFrame) : Statement (.blockPkgLoad f) := of_row rfl rfl rfl
theorem packageCheckDone (signatureOk digestOk : Bool) : Statement (.packageCheckDone signatureOk digestOk) := of_none rfl
theorem blockPkgUnload (f : CmdFrame) : Statement (.blockPkgUnload f) := of_row rfl rfl rfl
theorem blockPkgList (f : CmdFrame) : Statement (.blockPkgList f) := of_row rfl rfl rfl
theorem blockKeyslotProgram (f : CmdFrame) : Statement (.blockKeyslotProgram f) := of_row rfl rfl rfl
theorem blockKeyslotRevoke (f : CmdFrame) : Statement (.blockKeyslotRevoke f) := of_row rfl rfl rfl
theorem blockCreate (f : CmdFrame) : Statement (.blockCreate f) := of_row rfl rfl rfl
theorem blockFree (f : CmdFrame) : Statement (.blockFree f) := of_row rfl rfl rfl
theorem blockParamSet (f : CmdFrame) : Statement (.blockParamSet f) := of_row rfl rfl rfl
theorem blockParamGet (f : CmdFrame) : Statement (.blockParamGet f) := of_row rfl rfl rfl
theorem seamInfo (f : CmdFrame) : Statement (.seamInfo f) := of_row rfl rfl rfl
theorem seamConfig (f : CmdFrame) : Statement (.seamConfig f) := of_row rfl rfl rfl
theorem seamLand (f : CmdFrame) : Statement (.seamLand f) := of_row rfl rfl rfl
theorem seamFwdSet (f : CmdFrame) : Statement (.seamFwdSet f) := of_row rfl rfl rfl
theorem seamFwdGet (f : CmdFrame) : Statement (.seamFwdGet f) := of_row rfl rfl rfl
theorem seamIdSet (f : CmdFrame) : Statement (.seamIdSet f) := of_row rfl rfl rfl
theorem seamPSet (f : CmdFrame) : Statement (.seamPSet f) := of_row rfl rfl rfl
theorem seamTest (f : CmdFrame) : Statement (.seamTest f) := of_row rfl rfl rfl
theorem ethInfo (f : CmdFrame) : Statement (.ethInfo f) := of_row rfl rfl rfl
theorem ethConfig (f : CmdFrame) : Statement (.ethConfig f) := of_row rfl rfl rfl
theorem ethPtpConfig (f : CmdFrame) : Statement (.ethPtpConfig f) := of_row rfl rfl rfl
theorem cmdTailWrite (desk value : Nat) : Statement (.cmdTailWrite desk value) := of_none rfl
theorem rspHeadWrite (desk value : Nat) : Statement (.rspHeadWrite desk value) := of_none rfl
theorem evtHeadWrite (desk value : Nat) : Statement (.evtHeadWrite desk value) := of_none rfl
theorem ringCmd (desk : Nat) : Statement (.ringCmd desk) := of_none rfl
theorem ringRsp (desk : Nat) : Statement (.ringRsp desk) := of_none rfl
theorem ringEvt (desk : Nat) : Statement (.ringEvt desk) := of_none rfl
theorem cmdTailPoll : Statement (.cmdTailPoll) := of_none rfl
theorem mailboxFlagsClear (desk mask : Nat) : Statement (.mailboxFlagsClear desk mask) := of_none rfl
theorem protoErrCountRead (desk : Nat) : Statement (.protoErrCountRead desk) := of_none rfl
theorem udpDatagramReceived (d : Datagram) : Statement (.udpDatagramReceived d) := of_none rfl
theorem seamControlRecord (lane : Nat) (r : CtrlRec) : Statement (.seamControlRecord lane r) := of_none rfl
theorem fragmentReceived (f : Fragment) : Statement (.fragmentReceived f) := of_none rfl
theorem fragmentTimeout (desk : Nat) : Statement (.fragmentTimeout desk) := of_none rfl
theorem bulkTransferDone (desk seq : Nat) (ok : Bool) (data : List Byte) : Statement (.bulkTransferDone desk seq ok data) := of_none rfl
theorem leaseExpired (desk : Nat) : Statement (.leaseExpired desk) := of_none rfl
theorem eventDelivery (desk : Nat) : Statement (.eventDelivery desk) := of_none rfl
theorem misfitCountRead : Statement (.misfitCountRead) := of_none rfl
theorem rvCountRead : Statement (.rvCountRead) := of_none rfl
theorem irqStatusClear (mask : Nat) : Statement (.irqStatusClear mask) := of_none rfl
theorem stickyWrite (mask : Nat) : Statement (.stickyWrite mask) := of_none rfl
theorem quarryTimeCapture : Statement (.quarryTimeCapture) := of_none rfl
theorem snapshotTake (bank : Nat) : Statement (.snapshotTake bank) := of_none rfl
theorem snapRefusedClear (mask : Nat) : Statement (.snapRefusedClear mask) := of_none rfl
theorem cpRemapWrite (value : Nat) : Statement (.cpRemapWrite value) := of_none rfl
theorem registerPairLowRead (cp : Bool) (offset : Nat) : Statement (.registerPairLowRead cp offset) := of_none rfl
theorem registerWrite (offset : Nat) (value : Word) : Statement (.registerWrite offset value) := of_none rfl
theorem matrixAccess (a : Access) : Statement (.matrixAccess a) := of_none rfl
theorem endpointReset : Statement (.endpointReset) := of_none rfl
theorem svRead (addr : Nat) : Statement (.svRead addr) := of_none rfl
theorem svWrite (addr : Nat) (data : Word) (chk : Byte) : Statement (.svWrite addr data chk) := of_none rfl
theorem spiErrRead : Statement (.spiErrRead) := of_none rfl
theorem commandWake : Statement (.commandWake) := of_none rfl
theorem commandDormant : Statement (.commandDormant) := of_none rfl
theorem commandRestart : Statement (.commandRestart) := of_none rfl
theorem commandClearStall : Statement (.commandClearStall) := of_none rfl
theorem commandDesk0Pcie : Statement (.commandDesk0Pcie) := of_none rfl
theorem supervisorPowerOn (vin : Nat) : Statement (.supervisorPowerOn vin) := of_none rfl
theorem supervisorPowerOff : Statement (.supervisorPowerOff) := of_none rfl
theorem wakeHigh : Statement (.wakeHigh) := of_none rfl
theorem svCsSelect : Statement (.svCsSelect) := of_none rfl
theorem wakeLowShutdown : Statement (.wakeLowShutdown) := of_none rfl
theorem watchIdleTimeout : Statement (.watchIdleTimeout) := of_none rfl
theorem vinRiseUvlo (vin : Nat) : Statement (.vinRiseUvlo vin) := of_none rfl
theorem brownoutTrigger (vin : Nat) : Statement (.brownoutTrigger vin) := of_none rfl
theorem vinGuardFall (vin : Nat) : Statement (.vinGuardFall vin) := of_none rfl
theorem vinGuardRise (vin : Nat) : Statement (.vinGuardRise vin) := of_none rfl
theorem ilimHeld : Statement (.ilimHeld) := of_none rfl
theorem overTemperature (temp : Int) : Statement (.overTemperature temp) := of_none rfl
theorem sequencingStepReady (phasesFailed strap : Nat) : Statement (.sequencingStepReady phasesFailed strap) := of_none rfl
theorem sequencingStepTimeout : Statement (.sequencingStepTimeout) := of_none rfl
theorem sequenceRetry : Statement (.sequenceRetry) := of_none rfl
theorem imageCheckDone (v : ImageVerdict) : Statement (.imageCheckDone v) := of_none rfl
theorem bootChunkPost (chunk len : Nat) (data : List Byte) : Statement (.bootChunkPost chunk len data) := of_none rfl
theorem hostLoadTimeout : Statement (.hostLoadTimeout) := of_none rfl
theorem firmwareWatchdogExpiry : Statement (.firmwareWatchdogExpiry) := of_none rfl
theorem firmwareReady (bankVio : List Nat) (rateA : Nat) (repairFailed : List Nat) : Statement (.firmwareReady bankVio rateA repairFailed) := of_none rfl
theorem antiRollbackBurn : Statement (.antiRollbackBurn) := of_none rfl
theorem phaseFault (phase : Nat) : Statement (.phaseFault phase) := of_none rfl
theorem phaseRetry (phase : Nat) : Statement (.phaseRetry phase) := of_none rfl
theorem phaseClean (phase : Nat) : Statement (.phaseClean phase) := of_none rfl
theorem ashlarSlot (dom : Nat) (bankVio : List Nat) (errors : List MemError) : Statement (.ashlarSlot dom bankVio errors) := of_none rfl
theorem controlTick (dom : Nat) : Statement (.controlTick dom) := of_none rfl
theorem loudnessBlockStep (meter : Nat) : Statement (.loudnessBlockStep meter) := of_none rfl
theorem scheduledLaunch (dom : Nat) : Statement (.scheduledLaunch dom) := of_none rfl
theorem twinWarmupStart (dom : Nat) : Statement (.twinWarmupStart dom) := of_none rfl
theorem kerfComplete (dom : Nat) : Statement (.kerfComplete dom) := of_none rfl
theorem writerSilenceTimeout (ring : Nat) : Statement (.writerSilenceTimeout ring) := of_none rfl
theorem relocationSwitch (ring part bank row : Nat) : Statement (.relocationSwitch ring part bank row) := of_none rfl
theorem bankSpareSwitch (failed : Nat) : Statement (.bankSpareSwitch failed) := of_none rfl
theorem arraySpareSwitch (failed : Nat) (mismatches : List Nat) : Statement (.arraySpareSwitch failed mismatches) := of_none rfl
theorem transplantSwitch (source target : Nat) (mismatch : Bool) (lost : List Nat) : Statement (.transplantSwitch source target mismatch lost) := of_none rfl
theorem scrubPass (errors : List MemError) : Statement (.scrubPass errors) := of_none rfl
theorem backgroundTest (kind unit : Nat) (pass : Bool) : Statement (.backgroundTest kind unit pass) := of_none rfl
theorem lockstepMismatch : Statement (.lockstepMismatch) := of_none rfl
theorem snapshotLatch (bank : Nat) : Statement (.snapshotLatch bank) := of_none rfl
theorem quarrySnapshotRecord (bank ashlar keeper keeperSeq : Nat) : Statement (.quarrySnapshotRecord bank ashlar keeper keeperSeq) := of_none rfl
theorem pllUpdate : Statement (.pllUpdate) := of_none rfl
theorem referenceEvent (cand : Nat) (e : Int) (quality : Nat) : Statement (.referenceEvent cand e quality) := of_none rfl
theorem candidateValid (cand : Nat) : Statement (.candidateValid cand) := of_none rfl
theorem candidateLost (cand : Nat) : Statement (.candidateLost cand) := of_none rfl
theorem phaseStepApply : Statement (.phaseStepApply) := of_none rfl
theorem holdoverExpiry : Statement (.holdoverExpiry) := of_none rfl
theorem calibrationWrite : Statement (.calibrationWrite) := of_none rfl
theorem tdmFrame (port : Nat) (f : TdmFrame) : Statement (.tdmFrame port f) := of_none rfl
theorem tdmClockLoss (port : Nat) : Statement (.tdmClockLoss port) := of_none rfl
theorem portClockRecovered (port : Nat) : Statement (.portClockRecovered port) := of_none rfl
theorem gpiSample (millivolts : List Int) : Statement (.gpiSample millivolts) := of_none rfl
theorem gpiChangeAccepted (gpi : Nat) : Statement (.gpiChangeAccepted gpi) := of_none rfl
theorem gpoOvercurrent (gpo : Nat) : Statement (.gpoOvercurrent gpo) := of_none rfl
theorem gpoRetry (gpo : Nat) : Statement (.gpoRetry gpo) := of_none rfl
theorem gpoRetryHeld (gpo : Nat) : Statement (.gpoRetryHeld gpo) := of_none rfl
theorem gpoStuckLowTimeout (gpo : Nat) : Statement (.gpoStuckLowTimeout gpo) := of_none rfl
theorem seamHeaderReceived (lane : Nat) (h : SeamHdr) : Statement (.seamHeaderReceived lane h) := of_none rfl
theorem segmentReceived (lane position : Nat) (g : Segment) : Statement (.segmentReceived lane position g) := of_none rfl
theorem nakReceived (lane pos frame : Nat) (chkOk : Bool) : Statement (.nakReceived lane pos frame chkOk) := of_none rfl
theorem retryWindowClose (lane seg ashlar : Nat) : Statement (.retryWindowClose lane seg ashlar) := of_none rfl
theorem laneSignalDetect (lane : Nat) : Statement (.laneSignalDetect lane) := of_none rfl
theorem laneUp (lane : Nat) : Statement (.laneUp lane) := of_none rfl
theorem laneAshTimeout (lane : Nat) : Statement (.laneAshTimeout lane) := of_none rfl
theorem ctrlRecordExpiry (lane : Nat) : Statement (.ctrlRecordExpiry lane) := of_none rfl
theorem topologyReportSend : Statement (.topologyReportSend) := of_none rfl
theorem topologyReport (engine : Nat) (entries : List TopoEntry) : Statement (.topologyReport engine entries) := of_none rfl
theorem pPropose (p src : Nat) : Statement (.pPropose p src) := of_none rfl
theorem pAccept (engine : Nat) (accept : Bool) : Statement (.pAccept engine accept) := of_none rfl
theorem pVoteTimeout : Statement (.pVoteTimeout) := of_none rfl
theorem pCommit (p ashlar : Nat) : Statement (.pCommit p ashlar) := of_none rfl
theorem pChangeApply : Statement (.pChangeApply) := of_none rfl
theorem tetherFrameReceived (peer : Nat) (f : TetherFrame) : Statement (.tetherFrameReceived peer f) := of_none rfl
theorem peerLostTimeout (peer : Nat) : Statement (.peerLostTimeout peer) := of_none rfl
theorem tetherSelfRelease : Statement (.tetherSelfRelease) := of_none rfl
theorem ackTimeout (peer : Nat) : Statement (.ackTimeout peer) := of_none rfl
theorem formationTimeout : Statement (.formationTimeout) := of_none rfl
theorem ownReleaseSensed (peer : Nat) : Statement (.ownReleaseSensed peer) := of_none rfl
theorem takeoverSettleEnd : Statement (.takeoverSettleEnd) := of_none rfl
theorem ownCollisionBackoff : Statement (.ownCollisionBackoff) := of_none rfl
theorem fenceAsserted : Statement (.fenceAsserted) := of_none rfl
theorem ethFrameReceived (port : Nat) (f : EthFrame) : Statement (.ethFrameReceived port f) := of_none rfl
theorem ethLinkChange (port : Nat) (up : Bool) (speed : Nat) : Statement (.ethLinkChange port up speed) := of_none rfl
theorem streamPacketLaunch (stream : Nat) : Statement (.streamPacketLaunch stream) := of_none rfl
theorem streamPacketReceived (port : Nat) (p : RtpPacket) : Statement (.streamPacketReceived port p) := of_none rfl
theorem streamPathDownTimeout (stream path : Nat) : Statement (.streamPathDownTimeout stream path) := of_none rfl
theorem streamPathUp (stream path : Nat) : Statement (.streamPathUp stream path) := of_none rfl
theorem ptpMessageReceived (port : Nat) (m : PtpMsg) : Statement (.ptpMessageReceived port m) := of_none rfl
theorem ptpMessageInterval (port kind : Nat) : Statement (.ptpMessageInterval port kind) := of_none rfl
theorem announceReceiptTimeout (port : Nat) : Statement (.announceReceiptTimeout port) := of_none rfl
theorem arpRefresh (port ip : Nat) : Statement (.arpRefresh port ip) := of_none rfl
theorem dhcpLeaseEvent (port addr mask gateway : Nat) : Statement (.dhcpLeaseEvent port addr mask gateway) := of_none rfl
theorem ownAssertSensed (peer : Nat) : Statement (.ownAssertSensed peer) := of_none rfl
theorem fenceReleased : Statement (.fenceReleased) := of_none rfl
theorem pcieLinkUp : Statement (.pcieLinkUp) := of_none rfl

end Sys2Proof.Laws.Opcode
end

