-- ==== Sys2Proof/Tests/States.lean ====
section
/-! SUPPORT. Small states and frames the tests are about, and the lemmas that show a hypothesis is met. -/
namespace Sys2Proof.Tests
set_option Elab.async false
open Sys2Proof.Machine

/-- The value of a computation that succeeds. -/
def okv {ε α : Type} (e : Except ε α) (h : e.isOk = true) : α :=
  match e, h with
  | .ok a, _ => a

theorem okv_eq {ε α : Type} (e : Except ε α) (h : e.isOk = true) : e = .ok (okv e h) := by
  cases e with
  | ok a => rfl
  | error x => cases h

theorem ok_unit {ε : Type} {e : Except ε Unit} (h : e.isOk = true) : e = .ok () := by
  cases e with
  | ok a => rfl
  | error x => cases h

theorem ex_ok {ε α : Type} {e : Except ε α} {P : α → Prop} (h : e.isOk = true) (k : P (okv e h)) : ∃ a, e = .ok a ∧ P a :=
  ⟨_, okv_eq e h, k⟩

theorem ex_okp {ε α β : Type} {e : Except ε (α × β)} {P : α → β → Prop} (h : e.isOk = true) (k : P (okv e h).1 (okv e h).2) :
    ∃ a b, e = .ok (a, b) ∧ P a b :=
  ⟨_, _, okv_eq e h, k⟩

theorem ex_okt {ε α β γ : Type} {e : Except ε (α × β × γ)} {P : α → β → γ → Prop} (h : e.isOk = true)
    (k : P (okv e h).1 (okv e h).2.1 (okv e h).2.2) : ∃ a b c, e = .ok (a, b, c) ∧ P a b c :=
  ⟨_, _, _, okv_eq e h, k⟩

theorem ex_some {α : Type} {e : Option α} {P : α → Prop} (h : e.isSome = true) (k : P (e.get h)) : ∃ a, e = some a ∧ P a :=
  ⟨_, (Option.some_get h).symm, k⟩

theorem ex_somep {α β : Type} {e : Option (α × β)} {P : α → β → Prop} (h : e.isSome = true) (k : P (e.get h).1 (e.get h).2) :
    ∃ a b, e = some (a, b) ∧ P a b :=
  ⟨_, _, (Option.some_get h).symm, k⟩

theorem ex_cons {α : Type} {e : List α} {P : α → List α → Prop} (h : e ≠ []) (k : P (e.head h) e.tail) : ∃ a l, e = a :: l ∧ P a l :=
  ⟨_, _, (List.cons_head_tail h).symm, k⟩

theorem ex_eq {α : Type} {e : α} {P : α → Prop} (k : P e) : ∃ a, a = e ∧ P a := ⟨_, rfl, k⟩

theorem ex_triple {α β γ : Type} {e : α × β × γ} {P : α → β → γ → Prop} (k : P e.1 e.2.1 e.2.2) : ∃ a b c, e = (a, b, c) ∧ P a b c :=
  ⟨_, _, _, rfl, k⟩

theorem ex_pair {α β : Type} {e : α × β} {P : α → β → Prop} (k : P e.1 e.2) : ∃ a b, e = (a, b) ∧ P a b := ⟨_, _, rfl, k⟩

/-- A handle names an object of the state. -/
def namesB (s : State) (h : Nat) (tys : List Nat) : Bool :=
  decide (hType h ∈ tys) && (match s.objAt (hType h) (hIdx h) with | some o => o.gen == hGen h | none => false)

theorem objAt_of {s : State} {h : Nat} {tys : List Nat} (hb : namesB s h tys = true) :
    (s.objAt (hType h) (hIdx h)).isSome = true := by
  unfold namesB at hb
  cases e : s.objAt (hType h) (hIdx h) with
  | none => simp [e] at hb
  | some o => rfl

theorem names_of {s : State} {h : Nat} {tys : List Nat} (hb : namesB s h tys = true) :
    names s h tys ((s.objAt (hType h) (hIdx h)).get (objAt_of hb)) := by
  have g := Option.some_get (objAt_of hb)
  have hb2 := hb
  unfold namesB at hb2
  simp only [Bool.and_eq_true, decide_eq_true_eq] at hb2
  refine ⟨hb2.1, g.symm, ?_⟩
  have h3 := hb2.2
  rw [← g] at h3
  exact beq_iff_eq.mp h3

theorem ex_names {s : State} {h : Nat} {tys : List Nat} {P : Obj → Prop} (hb : namesB s h tys = true)
    (k : P ((s.objAt (hType h) (hIdx h)).get (objAt_of hb))) : ∃ o, names s h tys o ∧ P o :=
  ⟨_, names_of hb, k⟩

/-- The transport checks as one test. -/
def arrivedB (op : Nat) (f : CmdFrame) (s : State) : Bool :=
  s.serving && decide (f.desk ≤ 16) && (f.via != .pcie || rspFree s f.desk) && decide (s.unanswered f.desk < 8) && decide (f.len ≤ 240) &&
  decide (f.payload.length = f.len) && decide (f.flags < 8) && decide (f.res = 0) && attached (s.desk f.desk) f.via &&
  (f.via == .pcie || op == 0x0201 || newer f.seq (s.desk f.desk).newest)

theorem arrived_of {op : Nat} {f : CmdFrame} {s : State} (h : arrivedB op f s = true) : Arrived op f s := by
  simp only [arrivedB, Bool.and_eq_true, decide_eq_true_eq, Bool.or_eq_true, beq_iff_eq, bne_iff_ne] at h
  obtain ⟨⟨⟨⟨⟨⟨⟨⟨⟨h1, h2⟩, h3⟩, h4⟩, h5⟩, h6⟩, h7⟩, h8⟩, h9⟩, h10⟩ := h
  exact ⟨h1, h2, fun e => h3.resolve_left (fun n => n e), h4, h5, h6, h7, h8, h9, or_assoc.mp h10⟩

/-- Steps 1 to 8 of R309 as one test. -/
def takenB (o : RuziaOp) (f : CmdFrame) (s : State) : Bool :=
  arrivedB o.op f s && o.lenOk f && ((s.desk f.desk).isOpen || sessionFree o.op) && (!o.desk0 || f.desk == 0) &&
  (o.acc != .change || s.red.role == .single || s.red.role == .active)

theorem taken_of {o : RuziaOp} {f : CmdFrame} {s : State} (h : takenB o f s = true) : Taken o f s := by
  simp only [takenB, Bool.and_eq_true, Bool.or_eq_true, beq_iff_eq, bne_iff_ne, Bool.not_eq_true'] at h
  obtain ⟨⟨⟨⟨h1, h2⟩, h3⟩, h4⟩, h5⟩ := h
  refine ⟨arrived_of h1, h2, h3, fun e => ?_, fun e => ?_⟩
  · rcases h4 with h | h
    · rw [e] at h; cases h
    · exact h
  · rcases h5 with (h | h) | h
    · exact absurd e h
    · exact .inl h
    · exact .inr h

/-- A PCIe frame of desk 0. -/
def fr (p : List Byte) : CmdFrame := { via := .pcie, desk := 0, seq := 5, flags := 0, res := 0, len := p.length, payload := p }

/-- A RUNNING engine one second after its start, with every desk open, domain A at 48 kHz, quad 0 an Ethernet port with
its link up, quad 1 in SEAM mode with lane 4 up, and TDM ports 0 (input) and 1 (output) configured. -/
def running : State :=
  { State.reset with
    clk := { State.reset.clk with raw := 250000000 }
    sv := { Sv.reset with st := .running, vin := 1200 }
    desks := List.replicate 17 { Desk.reset with isOpen := true }
    doms := [{ Dom.reset with st := .running, maxMult := 1, next := 6000, tick := 1000 }, Dom.reset, Dom.reset]
    flash := none
    quadModes := [1, 0, 4, 4, 4, 4, 4, 4]
    eth := (List.replicate 32 EthPort.reset).set 0 { EthPort.reset with link := true, speed := 10000, addr := 0x0A000001 }
    lanes := (List.replicate 32 Lane.reset).set 4 { Lane.reset with st := .up }
    host := { HostRegs.reset with bankVio := List.replicate 8 1 }
    tdm := [{ Tdm.reset with configured := true, slots := 8, dir := 0, valid := 4 },
            { Tdm.reset with configured := true, slots := 8, dir := 1 }] ++ List.replicate 126 Tdm.reset }

/-- An object of desk 0 in domain A. -/
def obj (ty idx : Nat) (k : ObjKind) : Obj :=
  { ty := ty, idx := idx, gen := 1, desk := 0, cls := 1, dom := 0, freeing := false, job := none, staged := 0, charge := 0,
    safe := 0, epoch := 0, kind := k }

def h (ty idx : Nat) : Nat := mkHandle ty 1 idx

/-- Objects of every kind, each the least of its kind: a Strip that writes ring 2, a Bus of 16 channels, a tile set of one tile that
writes rings 64 to 127, and a route that would feed row 0 of it. -/
def someObjs : List Obj :=
  [obj tStrip 0 (.chan { Chan.new 0 1 0 0 0 with outRing := 2 }),
   obj tBus 0 (.chan { Chan.new 1 16 0 0 0 with outRing := 2 }),
   obj tRing 1 (.ring (Ring.new 1 64 [(0, 1)] 0 0 0)),
   obj tRing 2 (.ring (Ring.new 1 64 [(0, 2)] (h tStrip 0) 4 0)),
   obj tBlock 0xF0000 (.tiles { tier := 1, rows := 64, cols := 64, firstRing := 64, tiles := [0], nodes := [], rowRecs := [],
                                pend := [], lastClip := none, release := none }),
   obj tRoute 0 (.route (Route.new 5 0 (h tBlock 0xF0000) 0 0 0)),
   { obj tGroup 0 (.group { offset := 0, offsetUse := [0, 0, 0], t := 480, members := [], pend := [] }) with dom := 3 },
   { obj tScene 0 (.scene { number := 7, body := { SceneBody.empty with scope := 1 }, ashlar := 0, coming := none }) with dom := 3 },
   obj tStream 0 (.stream { Stream.blank true with ethPort := portHandle 768, udp := 5004, ptime := 3 }),
   obj tStream 1 (.stream { Stream.blank false with ethPort := portHandle 768, udp := 5004, ptime := 3, linkOffset := 8 }),
   obj tBlock 0 (.block { Block.hosted 0 0 0 with package := 9, typ := 1, chIn := 1, chOut := 1, firstRing := 1 }),
   obj tMeter 0 (.meter { loud := false, paired := false, points := 1, firstSlot := 0, refresh := 0, taps := [],
                          state := [{ peak := 0, done := [], doneTick := 0 }], ld := Loud.reset 0 0, cores := [0], vals := [],
                          pend := [], ctl := [] }),
   obj tMeter 1 (.meter { loud := true, paired := false, points := 1, firstSlot := 0, refresh := 0, taps := [],
                          state := [{ peak := 0, done := [], doneTick := 0 }], ld := Loud.reset 0 0, cores := [0], vals := [],
                          pend := [], ctl := [] }),
   { obj tBridge 0 (.bridge { from_ := 0, to_ := 1, channels := 1, typ := 0, firstRing := 1, core := 0, start := 0, hist := [],
                              joints := [] }) with dom := 1 },
   obj tSvc 0 (.svc { kind := 5, mode := 0, size := 1, firstRing := 1, ifb := 0xFFFF, core := 0, vals := [], pend := [], twins := [],
                      live := [], keys := [], keyRamps := [], dim := PVal.rest 0x3601 0 .db, est := [], gOld := [], gNew := [],
                      solos := [], switch := none, active := false }),
   obj tSvc 1 (.svc { kind := 3, mode := 1, size := 1, firstRing := 1, ifb := 0, core := 0, vals := [], pend := [], twins := [],
                      live := [], keys := List.replicate 4 false, keyRamps := List.replicate 4 (GainRec.rest 0#32),
                      dim := PVal.rest 0x3601 0 .db, est := [], gOld := [], gNew := [], solos := [], switch := none, active := false }),
   obj tCapture 0 (.capture { channels := 1, length := 4800, st := .rolling, firstIndex := 0, f := 0, post := 0, tPlay := 480,
                              firstRing := 1, core := 0, record := [], play := none, release := none, vals := [], pend := [] })]

/-- A package of one block type with one parameter. -/
def aPackage : Package :=
  { id := 9, version := 1, keySlot := 0, flags := 0, total := 1024,
    types := [{ typ := 1, chIn := 1, chOut := 1, sideIn := 0, flags := 22, cycles := [64, 128, 256], localBytes := 64, stateBytes := 64,
                latency := [0, 0, 0], params := [{ id := 1, kerf := 1, unit := 2, min := 0, max := 1000, dflt := 0 }] }] }

/-- The state most witnesses start from. -/
def rich : State := { running with objs := someObjs, packages := [aPackage] }

/-- An engine that is the quarry's keeper. -/
def keeper : State := { running with engineId := 1, quarry := { Quarry.reset with keeper := 1, hops := 0, engines := [1] } }

/-- A member of a pair in a role, its peer heard and ready. -/
def member (r : Role) : State :=
  let p := { Peer.new 2 with seen := true, up := true, hdr := { noHeader with ready := true } }
  { running with engineId := 1, red := { Red.reset with mode := 1, claim := 1, role := r, ready := true, peers := [p] } }

/-- `running` with domain B running at 48 kHz too. -/
def twoDomains : State := running.setDom 1 fun _ => { Dom.reset with st := .running, maxMult := 1, next := 6000, tick := 1000 }

/-- `rich` with core 0 full: Strip 7 stands on it beside Strip 0, and core 1 of domain A is empty. -/
def fullCore : State :=
  { rich with
    objs := someObjs ++ [{ obj tStrip 7 (.chan (Chan.new 0 1 0 0 0)) with charge := 5100 },
                         { obj tStrip 8 (.chan (Chan.new 0 1 0 0 0)) with charge := 5138 }]
    cores := (rich.cores.set 0 { Core.reset 0 with dom := 0 }).set 1 { Core.reset 1 with dom := 0 } }

/-- A recall of Scene 0, planned in one wave, and one that is not yet planned. -/
def aRecall (i : Nat) (planned : Bool) : Recall :=
  { id := i, desk := 0, seq := 5, scene := h tScene 0, scope := 1, kind := 1, num := 96000, den := 48000, plan := 9000, overs := [],
    strict := false, planned := planned, waves := if planned then [⟨96000, 0, 1, 0, 0, 0⟩] else [], objs := [], recalled := 1, equal := 0,
    skipped := 0, last := 0, quarry := 0, go := false }

/-- A quarry recall that waits for `scene.go`. -/
def anArm : Arm :=
  { id := 3, desk := 0, seq := 5, number := 7, s := 96000, hold := true, held := true, sent := false, strict := false, ready := [],
    late := [], silent := [], dropped := [], retargets := 0, overs := [] }

/-- `rich` with recalls under way. -/
def recalling : State := { rich with recalls := [aRecall 1 true, aRecall 2 false], arms := [anArm], recallCtr := 3 }

/-- `rich` with its object at one handle changed. -/
def richWith (hd : Nat) (g : Obj → Obj) : State := rich.upd hd g

/-! ### A Strip (role 0) and a MIX Bus (role 1) allocated in `running`, step by step -/

def okOr {ε α : Type} (d : α) (e : Except ε α) : α :=
  match e with
  | .ok a => a
  | .error _ => d

theorem okOr_eq {ε α : Type} (d : α) (e : Except ε α) (h : e.isOk = true) : e = .ok (okOr d e) := by
  cases e with
  | ok a => rfl
  | error x => cases h

def newChan (role pan : Nat) : Chan := Chan.new role 1 0 pan 0

def alloc1 (role pan : Nat) : State :=
  (running.addObj { ty := if role = 0 then tStrip else tBus, idx := 0, gen := 1, desk := 0, cls := 3, dom := 0, freeing := false,
                    job := none, staged := 0, charge := maskCharge (newChan role pan) 1 0, safe := 0, epoch := running.epoch,
                    kind := .chan { newChan role pan with core := 0 } }).useCore 0 0

def allocO (role pan : Nat) : Obj := ((alloc1 role pan).objAt (if role = 0 then tStrip else tBus) 0).getD (obj 0 0 (.chan (newChan 0 0)))

def alloc2 (role pan : Nat) : Nat × State :=
  okOr (0, running) (allocRings (alloc1 role pan) 0 3 0 1 0 (allocO role pan).handle (if role = 0 then 4 else 6) 0)

def alloc3 (role pan : Nat) : State :=
  okOr running (((alloc2 role pan).2.upd (allocO role pan).handle fun x => x.onChan fun c =>
    { c with outRing := (alloc2 role pan).1 }).addTapRings (allocO role pan) 1 (ringBits 0))

def alloc4 (role pan : Nat) : State :=
  okOr running ((alloc3 role pan).addBlock (allocO role pan) 2 0 ((newChan role pan).width * chargeOf (32 * (if role = 0 then 1 else 2)) 1))

def alloc5 (role pan : Nat) : State :=
  okOr running (addPages (allocO role pan) (newChan role pan) 1 0 0 (maskPages 0) (alloc4 role pan))


end Sys2Proof.Tests
end

