-- ==== Sys2Proof/WellFormed.lean ====
section
/-! DEFINITION. Well-formed commands: each operand fits the field, index range or count its source gives it. The
machine is total on ill-formed commands too. -/
namespace Sys2Proof

/-- Header fields of a frame fit their widths and the payload is at most 240 bytes (R280). -/
def CmdFrame.wf (f : CmdFrame) : Bool :=
  decide (f.desk < 2 ^ 16) && decide (f.seq < 2 ^ 32) && decide (f.flags < 2 ^ 16) && decide (f.res < 2 ^ 32) &&
  decide (f.len < 2 ^ 16) && decide (f.payload.length ≤ 240)

/-- A fragment carries at most 240 data bytes (R299). -/
def Fragment.wf (f : Fragment) : Bool :=
  decide (f.desk < 2 ^ 16) && decide (f.seq < 2 ^ 32) && decide (f.index < 2 ^ 16) && decide (f.data.length ≤ 240)

/-- A datagram's header fields fit their widths (R291). -/
def Datagram.wf (d : Datagram) : Bool :=
  decide (d.port < 32) && decide (d.version < 256) && decide (d.kind < 256) && decide (d.desk < 2 ^ 16) &&
  decide (d.frameLen < 2 ^ 16)

/-- A control record: type and TTL of one byte, source and destination engines of two (R378). -/
def CtrlRec.wf (r : CtrlRec) : Bool :=
  decide (r.typ < 256) && decide (r.ttl < 256) && decide (r.src < 65536) && decide (r.dst < 65536) && decide (r.body.length ≤ 1016)

def QuarryMsg.wf (m : QuarryMsg) : Bool := decide (m.recallId < 2 ^ 32) && decide (m.engine < 65536)

/-- A transaction of one of the eight masters with one enable per byte (R534). -/
def Access.wf (a : Access) : Bool :=
  decide (a.master < 8) && a.enables.length == a.bytes && (!a.write || a.data.length == a.bytes)

def SeamHdr.wf (h : SeamHdr) : Bool :=
  decide (h.engine < 65536) && decide (h.keeper < 65536) && (h.mult == 1 || h.mult == 2 || h.mult == 4)

def Segment.wf (g : Segment) : Bool := decide (g.seg < 256) && decide (g.ashlar < 2 ^ 32)

def RtpPacket.wf (p : RtpPacket) : Bool :=
  decide (p.udp < 65536) && decide (p.seqNo < 65536) && decide (p.timestamp < 2 ^ 32) && decide (p.pt < 128)

def TdmFrame.wf (f : TdmFrame) : Bool := decide (f.words.length ≤ 32) && f.guards.length == f.words.length

/-- An image of slot A, slot B or the host load, and a check of R558. -/
def ImageVerdict.wf (v : ImageVerdict) : Bool := decide (v.slot ≤ 2) && decide (v.failed ≤ 5)

def EthFrame.wf (f : EthFrame) : Bool := decide (f.length < 65536)

/-- Every operand fits. -/
def Instr.wf : Instr → Bool
  | .sysInfo f => f.wf
  | .sysSnapshot f => f.wf
  | .sysRestart f => f.wf
  | .sysImageWrite f => f.wf
  | .deskInfo f => f.wf
  | .deskOpen f => f.wf
  | .deskClose f => f.wf
  | .deskPing f => f.wf
  | .deskAttach f => f.wf
  | .deskAttachEffect desk => decide (desk ≤ 16)
  | .deskKeySet f => f.wf
  | .deskQuotaSet f => f.wf
  | .deskDefaultsSet f => f.wf
  | .deskEventReplay f => f.wf
  | .stripInfo f => f.wf
  | .stripAlloc f => f.wf
  | .stripFree f => f.wf
  | .stripParamSet f => f.wf
  | .stripParamGet f => f.wf
  | .busInfo f => f.wf
  | .busAlloc f => f.wf
  | .busFree f => f.wf
  | .busParamSet f => f.wf
  | .busParamGet f => f.wf
  | .busAttrSet f => f.wf
  | .busLayout f => f.wf
  | .nodeTilesInfo f => f.wf
  | .nodeTilesAlloc f => f.wf
  | .nodeTilesFree f => f.wf
  | .nodeTilesDefault f => f.wf
  | .nodeSet f => f.wf
  | .nodeBulk f => f.wf
  | .nodeGet f => f.wf
  | .nodeLoadComplete _ => true
  | .groupInfo f => f.wf
  | .groupAlloc f => f.wf
  | .groupFree f => f.wf
  | .groupSet f => f.wf
  | .groupMemberSet f => f.wf
  | .ringInfo f => f.wf
  | .ringAlloc f => f.wf
  | .ringFree f => f.wf
  | .ringDeep f => f.wf
  | .routeInfo f => f.wf
  | .routeCreate f => f.wf
  | .routeDelete f => f.wf
  | .routeCut f => f.wf
  | .routeKerf f => f.wf
  | .routeSet f => f.wf
  | .routePolicy f => f.wf
  | .portInfo f => f.wf
  | .portAssign f => f.wf
  | .portTdmConfig f => f.wf
  | .portSlotBind f => f.wf
  | .portDitherSet f => f.wf
  | .portQuadMode f => f.wf
  | .portGpiBind f => f.wf
  | .portGpoBind f => f.wf
  | .portGpoSet f => f.wf
  | .portGpoClear f => f.wf
  | .streamInfo f => f.wf
  | .streamRxCreate f => f.wf
  | .streamTxCreate f => f.wf
  | .streamDelete f => f.wf
  | .streamSdpGet f => f.wf
  | .streamSdpSet f => f.wf
  | .sceneInfo f => f.wf
  | .sceneStore f => f.wf
  | .sceneStoreComplete desk seq => decide (desk ≤ 16) && decide (seq < 2 ^ 32)
  | .sceneDelete f => f.wf
  | .sceneRecall f => f.wf
  | .sceneCancel f => f.wf
  | .sceneArm f => f.wf
  | .sceneGo f => f.wf
  | .sceneSafeSet f => f.wf
  | .sceneNumberSet f => f.wf
  | .scenePlanGet f => f.wf
  | .recallPlanPoint _ => true
  | .quarryArm m => m.wf
  | .quarryReady m => m.wf
  | .quarryLate m => m.wf
  | .quarryRetarget m => m.wf
  | .quarryGo m => m.wf
  | .quarryAbort m => m.wf
  | .keeperDecisionPoint _ => true
  | .recallOrphanDeadline _ => true
  | .domainInfo f => f.wf
  | .domainConfig f => f.wf
  | .domainStart f => f.wf
  | .domainStop f => f.wf
  | .domainRateSet f => f.wf
  | .domainBridgeAlloc f => f.wf
  | .domainBridgeFree f => f.wf
  | .domainBridgeInfo f => f.wf
  | .domainStopInstant dom => decide (dom ≤ 2)
  | .domainRestartInstant dom => decide (dom ≤ 2)
  | .domainFadeInEnd dom => decide (dom ≤ 2)
  | .timingInfo f => f.wf
  | .timingNow f => f.wf
  | .timingRefConfig f => f.wf
  | .timingPllSet f => f.wf
  | .timingHoldoverSet f => f.wf
  | .timingOffsetSet f => f.wf
  | .timingSpliceSet f => f.wf
  | .timingStickyClear f => f.wf
  | .timingSelect f => f.wf
  | .meterInfo f => f.wf
  | .meterAlloc f => f.wf
  | .meterFree f => f.wf
  | .meterTap f => f.wf
  | .meterParamSet f => f.wf
  | .meterLoudCtl f => f.wf
  | .svcInfo f => f.wf
  | .svcAlloc f => f.wf
  | .svcFree f => f.wf
  | .svcParamSet f => f.wf
  | .svcParamGet f => f.wf
  | .svcTalk f => f.wf
  | .svcSoloSet f => f.wf
  | .captureInfo f => f.wf
  | .captureAlloc f => f.wf
  | .captureFree f => f.wf
  | .captureFreeze f => f.wf
  | .capturePlay f => f.wf
  | .captureStop f => f.wf
  | .captureRelease f => f.wf
  | .captureRead f => f.wf
  | .captureParamSet f => f.wf
  | .captureStopIndexReached _ => true
  | .capturePlayEnd _ => true
  | .redInfo f => f.wf
  | .redConfig f => f.wf
  | .redSwitch f => f.wf
  | .redRejoin f => f.wf
  | .faultLogGet f => f.wf
  | .faultClear f => f.wf
  | .spareInfo f => f.wf
  | .spareTest f => f.wf
  | .spareTestComplete _ _ _ => true
  | .blockInfo f => f.wf
  | .blockCeilingSet f => f.wf
  | .blockPkgLoad f => f.wf
  | .packageCheckDone _ _ => true
  | .blockPkgUnload f => f.wf
  | .blockPkgList f => f.wf
  | .blockKeyslotProgram f => f.wf
  | .blockKeyslotRevoke f => f.wf
  | .blockCreate f => f.wf
  | .blockFree f => f.wf
  | .blockParamSet f => f.wf
  | .blockParamGet f => f.wf
  | .seamInfo f => f.wf
  | .seamConfig f => f.wf
  | .seamLand f => f.wf
  | .seamFwdSet f => f.wf
  | .seamFwdGet f => f.wf
  | .seamIdSet f => f.wf
  | .seamPSet f => f.wf
  | .seamTest f => f.wf
  | .ethInfo f => f.wf
  | .ethConfig f => f.wf
  | .ethPtpConfig f => f.wf
  | .cmdTailWrite desk value => decide (desk ≤ 16) && value < 65536
  | .rspHeadWrite desk value => decide (desk ≤ 16) && value < 65536
  | .evtHeadWrite desk value => decide (desk ≤ 16) && value < 65536
  | .ringCmd desk => decide (desk ≤ 16)
  | .ringRsp desk => decide (desk ≤ 16)
  | .ringEvt desk => decide (desk ≤ 16)
  | .cmdTailPoll => true
  | .mailboxFlagsClear desk mask => decide (desk ≤ 16) && mask < 2 ^ 32
  | .protoErrCountRead desk => decide (desk ≤ 16)
  | .udpDatagramReceived d => d.wf
  | .seamControlRecord lane r => decide (lane < 32) && r.wf
  | .fragmentReceived f => f.wf
  | .fragmentTimeout desk => decide (desk ≤ 16)
  | .bulkTransferDone desk seq _ _ => decide (desk ≤ 16) && decide (seq < 2 ^ 32)
  | .leaseExpired desk => decide (desk ≤ 16)
  | .eventDelivery desk => decide (desk ≤ 16)
  | .misfitCountRead => true
  | .rvCountRead => true
  | .irqStatusClear mask => decide (mask < 2 ^ 32)
  | .stickyWrite mask => decide (mask < 2 ^ 32)
  | .quarryTimeCapture => true
  | .snapshotTake bank => decide (bank < 2)
  | .snapRefusedClear mask => decide (mask < 2 ^ 32)
  | .cpRemapWrite value => decide (value < 2 ^ 32)
  | .registerPairLowRead _ offset => decide (offset < 2 ^ 32)
  | .registerWrite offset _ => decide (offset < 2 ^ 32)
  | .matrixAccess a => a.wf
  | .endpointReset => true
  | .svRead addr => addr < 256
  | .svWrite addr _ _ => addr < 256
  | .spiErrRead => true
  | .commandWake => true
  | .commandDormant => true
  | .commandRestart => true
  | .commandClearStall => true
  | .commandDesk0Pcie => true
  | .supervisorPowerOn vin => decide (vin < 65536)
  | .supervisorPowerOff => true
  | .wakeHigh => true
  | .svCsSelect => true
  | .wakeLowShutdown => true
  | .watchIdleTimeout => true
  | .vinRiseUvlo vin => decide (vin < 65536)
  | .brownoutTrigger vin => decide (vin < 65536)
  | .vinGuardFall vin => decide (vin < 65536)
  | .vinGuardRise vin => decide (vin < 65536)
  | .ilimHeld => true
  | .overTemperature _ => true
  | .sequencingStepReady _ _ => true
  | .sequencingStepTimeout => true
  | .sequenceRetry => true
  | .imageCheckDone v => v.wf
  | .bootChunkPost _ len _ => decide (len < 2 ^ 32)
  | .hostLoadTimeout => true
  | .firmwareWatchdogExpiry => true
  | .firmwareReady _ _ _ => true
  | .antiRollbackBurn => true
  | .phaseFault phase => decide (phase < 7)
  | .phaseRetry phase => decide (phase < 7)
  | .phaseClean phase => decide (phase < 7)
  | .ashlarSlot dom _ _ => decide (dom ≤ 2)
  | .controlTick dom => decide (dom ≤ 2)
  | .loudnessBlockStep _ => true
  | .scheduledLaunch dom => decide (dom ≤ 2)
  | .twinWarmupStart dom => decide (dom ≤ 2)
  | .kerfComplete dom => decide (dom ≤ 2)
  | .writerSilenceTimeout _ => true
  | .relocationSwitch _ _ bank _ => decide (bank < 68)
  | .bankSpareSwitch failed => decide (failed < 68)
  | .arraySpareSwitch failed _ => decide (failed < 18)
  | .transplantSwitch _ _ _ _ => true
  | .scrubPass _ => true
  | .backgroundTest _ _ _ => true
  | .lockstepMismatch => true
  | .snapshotLatch bank => decide (bank < 2)
  | .quarrySnapshotRecord bank _ _ _ => decide (bank < 2)
  | .pllUpdate => true
  | .referenceEvent cand _ quality => decide (cand < 8) && decide (quality < 256)
  | .candidateValid cand => decide (cand < 8)
  | .candidateLost cand => decide (cand < 8)
  | .phaseStepApply => true
  | .holdoverExpiry => true
  | .calibrationWrite => true
  | .tdmFrame port f => port < 128 && f.wf
  | .tdmClockLoss port => port < 128
  | .portClockRecovered port => port < 128
  | .gpiSample millivolts => millivolts.length == 32
  | .gpiChangeAccepted gpi => decide (gpi < 32)
  | .gpoOvercurrent gpo => decide (gpo < 32)
  | .gpoRetry gpo => decide (gpo < 32)
  | .gpoRetryHeld gpo => decide (gpo < 32)
  | .gpoStuckLowTimeout gpo => decide (gpo < 32)
  | .seamHeaderReceived lane h => decide (lane < 32) && h.wf
  | .segmentReceived lane _ g => decide (lane < 32) && g.wf
  | .nakReceived lane _ _ _ => decide (lane < 32)
  | .retryWindowClose lane _ _ => decide (lane < 32)
  | .laneSignalDetect lane => decide (lane < 32)
  | .laneUp lane => decide (lane < 32)
  | .laneAshTimeout lane => decide (lane < 32)
  | .ctrlRecordExpiry lane => decide (lane < 32)
  | .topologyReportSend => true
  | .topologyReport engine _ => decide (engine < 65536)
  | .pPropose _ src => decide (src < 65536)
  | .pAccept engine _ => decide (engine < 65536)
  | .pVoteTimeout => true
  | .pCommit _ _ => true
  | .pChangeApply => true
  | .tetherFrameReceived peer _ => decide (peer < 2)
  | .peerLostTimeout peer => decide (peer < 2)
  | .tetherSelfRelease => true
  | .ackTimeout peer => decide (peer < 2)
  | .formationTimeout => true
  | .ownReleaseSensed peer => decide (peer < 2)
  | .takeoverSettleEnd => true
  | .ownCollisionBackoff => true
  | .fenceAsserted => true
  | .ethFrameReceived port f => port < 32 && f.wf
  | .ethLinkChange port _ _ => port < 32
  | .streamPacketLaunch _ => true
  | .streamPacketReceived port p => port < 32 && p.wf
  | .streamPathDownTimeout _ path => path == 1 || path == 2
  | .streamPathUp _ path => path == 1 || path == 2
  | .ptpMessageReceived port _ => port < 32
  | .ptpMessageInterval port _ => port < 32
  | .announceReceiptTimeout port => port < 32
  | .arpRefresh port _ => port < 32
  | .dhcpLeaseEvent port addr mask _ => port < 32 && decide (addr < 2 ^ 32) && decide (mask < 2 ^ 32)
  | .ownAssertSensed peer => decide (peer < 2)
  | .fenceReleased => true
  | .pcieLinkUp => true

end Sys2Proof
end

