-- ==== Sys2Proof/Tests/Slice0.lean ====
section
/-! SUPPORT. Tests: each check of well-formedness refuses an ill-formed term, and worked examples of the specification. -/
namespace Sys2Proof.Tests
set_option Elab.async false
open Sys2Proof.Machine

/-! ## Well-formedness -/

theorem test_frame_checks : (fr []).wf = true ∧ ({ fr [] with desk := 65536 } : CmdFrame).wf = false ∧
    ({ fr [] with seq := 2 ^ 32 } : CmdFrame).wf = false ∧ ({ fr [] with flags := 65536 } : CmdFrame).wf = false ∧
    ({ fr [] with res := 2 ^ 32 } : CmdFrame).wf = false ∧ ({ fr [] with len := 65536 } : CmdFrame).wf = false ∧
    ({ fr [] with payload := le 241 0 } : CmdFrame).wf = false := by decide +kernel

def aFragment : Fragment := { via := .pcie, desk := 0, seq := 0, len := 0, index := 0, res := 0, data := [] }

theorem test_fragment_checks : aFragment.wf = true ∧ ({ aFragment with desk := 65536 } : Fragment).wf = false ∧
    ({ aFragment with seq := 2 ^ 32 } : Fragment).wf = false ∧ ({ aFragment with index := 65536 } : Fragment).wf = false ∧
    ({ aFragment with data := le 241 0 } : Fragment).wf = false := by decide +kernel

def aDatagram : Datagram :=
  { port := 0, addr := 0, srcPort := 0, magicOk := true, version := 0x32, kind := 1, desk := 0, frameLen := 16, macOk := true, bytes := [] }

theorem test_datagram_checks : aDatagram.wf = true ∧ ({ aDatagram with port := 32 } : Datagram).wf = false ∧
    ({ aDatagram with version := 256 } : Datagram).wf = false ∧ ({ aDatagram with kind := 256 } : Datagram).wf = false ∧
    ({ aDatagram with desk := 65536 } : Datagram).wf = false ∧ ({ aDatagram with frameLen := 65536 } : Datagram).wf = false := by decide +kernel

def aRecord : CtrlRec := { typ := 1, ttl := 32, src := 1, dst := 2, body := [] }

theorem test_control_record_checks : aRecord.wf = true ∧ ({ aRecord with typ := 256 } : CtrlRec).wf = false ∧
    ({ aRecord with ttl := 256 } : CtrlRec).wf = false ∧ ({ aRecord with src := 65536 } : CtrlRec).wf = false ∧
    ({ aRecord with dst := 65536 } : CtrlRec).wf = false ∧ ({ aRecord with body := le 1017 0 } : CtrlRec).wf = false := by decide +kernel

def aMessage : QuarryMsg := { recallId := 0, engine := 1, s := 0, number := 0, strict := false, overrides := [], status := 0, excluded := [] }

def anAccess : Access := { master := 1, addr := 0, bytes := 1, enables := [true], write := true, data := [0] }

theorem test_message_and_access_checks : aMessage.wf = true ∧ ({ aMessage with recallId := 2 ^ 32 } : QuarryMsg).wf = false ∧
    ({ aMessage with engine := 65536 } : QuarryMsg).wf = false ∧ anAccess.wf = true ∧ ({ anAccess with master := 8 } : Access).wf = false ∧
    ({ anAccess with enables := [] } : Access).wf = false ∧ ({ anAccess with data := [] } : Access).wf = false := by decide +kernel

def aHeader : SeamHdr :=
  { ok := true, ashOk := true, ashlar := 0, engine := 1, keeper := 1, hops := 0, topo := 0, claim := 0, quality := 0, epoch := 0, mult := 1,
    window := 8, p := 2, nextP := 2, nextPAshlar := 0, rxOffset := 0, inTime := true, delayPs := 0, records := [] }

def aSegment : Segment := { ok := true, seg := 0, resend := false, ashlar := 0, payload := [], records := [] }

theorem test_seam_checks : aHeader.wf = true ∧ ({ aHeader with engine := 65536 } : SeamHdr).wf = false ∧
    ({ aHeader with keeper := 65536 } : SeamHdr).wf = false ∧ ({ aHeader with mult := 3 } : SeamHdr).wf = false ∧ aSegment.wf = true ∧
    ({ aSegment with seg := 256 } : Segment).wf = false ∧ ({ aSegment with ashlar := 2 ^ 32 } : Segment).wf = false := by decide +kernel

def aPacket : RtpPacket :=
  { dst := 0, src := 0, udp := 5004, checksumOk := true, version := 2, pt := 97, seqNo := 0, timestamp := 0, payload := [] }

theorem test_packet_checks : aPacket.wf = true ∧ ({ aPacket with udp := 65536 } : RtpPacket).wf = false ∧
    ({ aPacket with seqNo := 65536 } : RtpPacket).wf = false ∧ ({ aPacket with timestamp := 2 ^ 32 } : RtpPacket).wf = false ∧
    ({ aPacket with pt := 128 } : RtpPacket).wf = false := by decide +kernel

theorem test_other_operand_checks :
    ({ valid := true, words := List.replicate 33 0#32, guards := List.replicate 33 false, readback := [] } : TdmFrame).wf = false ∧
    ({ valid := true, words := [0#32], guards := [], readback := [] } : TdmFrame).wf = false ∧
    ({ slot := 3, failed := 0, version := 0, svn := 0 } : ImageVerdict).wf = false ∧
    ({ slot := 0, failed := 6, version := 0, svn := 0 } : ImageVerdict).wf = false ∧
    ({ length := 65536, tag := none, fcsOk := true, body := .igmpQuery } : EthFrame).wf = false := by decide +kernel

theorem test_ill_formed_commands_refused :
    ([.deskAttachEffect 17, .sceneStoreComplete 17 0, .sceneStoreComplete 0 (2 ^ 32), .domainStopInstant 3, .domainRestartInstant 3,
      .domainFadeInEnd 3, .cmdTailWrite 17 0, .cmdTailWrite 0 65536, .rspHeadWrite 17 0, .rspHeadWrite 0 65536, .evtHeadWrite 17 0,
      .evtHeadWrite 0 65536, .ringCmd 17, .ringRsp 17, .ringEvt 17, .mailboxFlagsClear 17 0, .mailboxFlagsClear 0 (2 ^ 32), .protoErrCountRead 17,
      .seamControlRecord 32 aRecord, .fragmentTimeout 17, .bulkTransferDone 17 0 false [], .bulkTransferDone 0 (2 ^ 32) false [], .leaseExpired 17,
      .eventDelivery 17, .irqStatusClear (2 ^ 32), .stickyWrite (2 ^ 32), .snapshotTake 2, .snapRefusedClear (2 ^ 32), .cpRemapWrite (2 ^ 32),
      .registerPairLowRead true (2 ^ 32), .registerWrite (2 ^ 32) 0#32, .svRead 256, .svWrite 256 0#32 0#8, .supervisorPowerOn 65536,
      .vinRiseUvlo 65536, .brownoutTrigger 65536, .vinGuardFall 65536, .vinGuardRise 65536, .bootChunkPost 0 (2 ^ 32) [], .phaseFault 7,
      .phaseRetry 7, .phaseClean 7] :
      List Instr).all (fun c => !c.wf) = true := by decide +kernel

theorem test_more_ill_formed_commands_refused :
    ([.ashlarSlot 3 [] [], .controlTick 3, .scheduledLaunch 3, .twinWarmupStart 3, .kerfComplete 3, .relocationSwitch 0 0 68 0, .bankSpareSwitch 68,
      .arraySpareSwitch 18 [], .snapshotLatch 2, .quarrySnapshotRecord 2 0 0 0, .referenceEvent 8 0 0, .referenceEvent 0 0 256, .candidateValid 8,
      .candidateLost 8, .tdmClockLoss 128, .portClockRecovered 128, .gpiSample [], .gpiChangeAccepted 32, .gpoOvercurrent 32, .gpoRetry 32,
      .gpoRetryHeld 32, .gpoStuckLowTimeout 32, .seamHeaderReceived 32 aHeader, .segmentReceived 32 0 aSegment, .nakReceived 32 0 0 true,
      .retryWindowClose 32 0 0, .laneSignalDetect 32, .laneUp 32, .laneAshTimeout 32, .ctrlRecordExpiry 32, .topologyReport 65536 [],
      .pPropose 2 65536, .pAccept 65536 true, .peerLostTimeout 2, .ackTimeout 2, .ownReleaseSensed 2, .ethLinkChange 32 true 0,
      .streamPacketReceived 32 aPacket, .streamPathDownTimeout 0 3, .streamPathUp 0 0, .arpRefresh 32 0, .dhcpLeaseEvent 32 0 0 0,
      .dhcpLeaseEvent 0 (2 ^ 32) 0 0, .dhcpLeaseEvent 0 0 (2 ^ 32) 0] : List Instr).all
      (fun c => !c.wf) = true := by decide +kernel

/-! ## Worked examples of the specification -/

/-- The encodings of chapter 0: −602 mB and pan −0.25 in signed 16.16, as bytes in the order sent. -/
theorem test_signed_fields : le 4 (twos 32 (-602)) = [0xA6, 0xFD, 0xFF, 0xFF] ∧ le 4 (twos 32 (-16384)) = [0x00, 0xC0, 0xFF, 0xFF] := by
  decide +kernel

/-- Indices of one instant (chapter 2): 1,754,000,000 s and 123,456,789 ns at 48, 44.1 and 96 kHz. -/
theorem test_indices_of_one_instant :
    indexAt ((1754000000 * 10 ^ 9 + 123456789) * 65536) 48000 = 84192000005925 ∧
    indexAt ((1754000000 * 10 ^ 9 + 123456789) * 65536) 44100 = 77351400005444 ∧
    indexAt ((1754000000 * 10 ^ 9 + 123456789) * 65536) 96000 = 168384000011851 := by decide +kernel

/-- The charge of the position 17 microphone (chapter 5): 0.890625 WU, in units of 1/64 WU. -/
theorem test_strip_charge : maskCharge (Chan.new 0 1 0 0 0) 1 0x39F = 57 := by decide +kernel

/-- The commentary venue (chapter 11): the Strip of position 17, desk 3's, with its EQ enabled, at a RAW value. -/
def venue (raw next : Nat) : State :=
  { running with
    clk := { running.clk with raw := raw }
    doms := [{ Dom.reset with st := .running, maxMult := 1, next := next, tick := next / 6 }, Dom.reset, Dom.reset]
    objs := [{ obj tStrip 17 (.chan (Chan.new 0 1 4 0 0)) with desk := 3 }] }

/-- Desk 3's `strip.param.set` on handle 0x0410_0011 at index 2,400,000 with T 480, W 1,024 and LINEAR law. -/
def eqFrame (seq count : Nat) (recs : List Byte) : CmdFrame :=
  { fr (le 4 0x04100011 ++ le 4 1 ++ le 8 2400000 ++ le 4 0 ++ le 4 480 ++ le 4 1024 ++ le 2 0 ++ le 2 count ++ recs) with desk := 3, seq := seq }

def after (c : Instr) (s : State) : State :=
  match exec c s with
  | .next t => t
  | _ => s

/-- The response desk 3 gets. -/
def response (s : State) : List Byte := ((s.desk 3).kept.head?.map (·.response)).getD []

/-- The refused change: TRIM 3,000 mB is out of range, FIELD 44 and ITEM 1; ASHLAR_LO apart. -/
theorem test_refused_eq_change :
    let r := response (after (.stripParamSet (eqFrame 2593 2 (le 4 0x0542 ++ le 4 300 ++ le 4 0x0200 ++ le 4 3000))) (venue 250000000 6000))
    r.take 12 = [0x03, 0x03, 0x08, 0x00, 0x21, 0x0A, 0x00, 0x00, 0x03, 0x00, 0x05, 0x01] ∧
      r.drop 16 = [0x2C, 0x00, 0x01, 0x00, 0x11, 0x00, 0x10, 0x04] := by decide +kernel

/-- The accepted change, in ashlar 299,800. -/
theorem test_accepted_eq_change :
    response (after (.stripParamSet (eqFrame 2594 1 (le 4 0x0542 ++ le 4 300))) (venue 12491706667 299801)) =
      [0x03, 0x03, 0x08, 0x00, 0x22, 0x0A, 0x00, 0x00, 0x03, 0x00, 0x00, 0x00, 0x18, 0x93, 0x04, 0x00,
       0x00, 0x9F, 0x24, 0x00, 0x00, 0x00, 0x00, 0x00] := by decide +kernel

/-- Slot 5 of desk 3 lies at 0x0004_4D00 of BAR0 (chapter 20). -/
theorem test_slot_address : slotAddr 3 0 256 5 = mailboxBase + 0x4D00 := by decide +kernel

/-- `running` with the host's reach as shipped (R541). -/
def granted : State :=
  running.onHost fun h => { h with masters := h.masters.set 1 (shipped 3 0 [grantOf 0x10000000 0x10060000 true true]) }

/-- The driver's two faulty accesses of chapter 20: a 2-byte doorbell write, then an 8-byte read of the RATE pair. -/
def probed : State :=
  after (.matrixAccess { master := 1, addr := 0x10003008, bytes := 8, enables := List.replicate 8 true, write := false, data := [] })
    (after (.matrixAccess { master := 1, addr := 0x100200D8, bytes := 2, enables := [true, true], write := true, data := [1, 0] })
      granted)

theorem test_misfits_latched : probed.host.misfitCount = 2 ∧
    probed.host.misfit = { addr := 0x10003008, master := 1, write := false, bytes := 8 } ∧
    probed.outbox.getLast? = some (.readData 1 0x10003008 (le 8 0)) := by decide +kernel

/-- RATE_LO and RATE_HI read nominal: 0 and 0x400. -/
theorem test_rate_reads_nominal :
    ((running.regRead false 0x3008).1, ((running.regRead false 0x3008).2.regRead false 0x300C).1) = (0, 0x400) := by decide +kernel

end Sys2Proof.Tests
end

