-- ==== Sys2Proof/Tests/Tiles.lean ====
section
/-! SUPPORT. A state in which `node.tiles.default` allocates its two tile sets with their 1,024 column rings, by a lemma. -/
namespace Sys2Proof.Tests
set_option Elab.async false
open Sys2Proof.Machine

/-! ### The default tile sets allocate their 1,024 column rings, by a lemma -/

/-- Every ring of the state lies on rows of its kind's plain map, those of the indices in `u`. -/
structure RowsIn (u : Nat → Prop) (s : State) : Prop where
  faults : s.faults = Faults.reset
  doms : s.doms = running.doms
  rows : ∀ o ∈ s.objs, ∀ r, o.ring? = some r → ∀ p ∈ r.rows, ∃ j, u j ∧ p = (j % 64, j / 64)

theorem rowSlot_plain {s : State} (h : s.faults = Faults.reset) (i : Nat) : rowSlot s i = (i % 64, i / 64) := by
  have e : Faults.reset.bankMap = List.range 64 := rfl
  have l : i % 64 < 64 := Nat.mod_lt _ (by omega)
  simp [rowSlot, h, e, List.getD, l]

theorem rowUsed_not {u : Nat → Prop} {s : State} (h : RowsIn u s) {i : Nat} (hi : ¬ u i) : s.rowUsed (i % 64, i / 64) = false := by
  have e : Faults.reset.moving = [] := rfl
  simp only [State.rowUsed, h.faults, e, List.any_nil, Bool.false_or, List.any_eq_false]
  intro o ho
  cases hr : o.ring? with
  | none => simp
  | some r =>
    simp only [List.contains_iff_mem]
    intro hm
    obtain ⟨j, hj, hp⟩ := h.rows o ho r hr _ hm
    have := (Prod.mk.injEq _ _ _ _).mp hp
    have : i = j := by omega
    exact hi (this ▸ hj)

theorem findRows_plain {u : Nat → Prop} {s : State} (h : RowsIn u s) {i : Nat} (hi : ¬ u i) (hl : i < 65536) :
    findRows s i 1 [] = some [(i % 64, i / 64)] := by
  have e : Faults.reset.lasting = [] := rfl
  have hb : s.badBank (i % 64) = false := by simp [State.badBank, h.faults, e]
  have hf : findRow s [] 65536 i = some (i % 64, i / 64) := by
    show (if _ then _ else _) = _
    rw [Nat.mod_eq_of_lt hl, rowSlot_plain h.faults, rowUsed_not h hi]
    simp [hb]
  simp [findRows, hf]

/-- What adding rings leaves: new ring objects behind the others, the wanted runs taken, the rest as it was. -/
structure Rings (is : List Nat) (s s' : State) : Prop where
  faults : s'.faults = s.faults
  doms : s'.doms = s.doms
  len : s'.tabs.length = s.tabs.length
  other : ∀ ty, ty ≠ tRing → s'.tab ty = s.tab ty
  want : tRing < s.tabs.length → (s'.tab tRing).want = (s.tab tRing).want.filter fun p => p.1 ∉ is
  objs : ∃ l, s'.objs = s.objs ++ l ∧ l.length = is.length ∧
    ∀ o ∈ l, o.ty = tRing ∧ ∃ r, o.kind = .ring r ∧ ∃ i ∈ is, r.rows = [(i % 64, i / 64)]

theorem modAt_length {α : Type} (f : α → α) : ∀ (l : List α) (i : Nat), (modAt l i f).length = l.length
  | [], i => by simp [modAt]
  | x :: xs, 0 => by simp [modAt]
  | x :: xs, i + 1 => by simp [modAt, modAt_length f xs i]

theorem modAt_getD {α : Type} (f : α → α) (d : α) : ∀ (l : List α) (i j : Nat),
    (modAt l i f).getD j d = if i = j ∧ i < l.length then f (l.getD j d) else l.getD j d
  | [], i, j => by simp [modAt]
  | x :: xs, 0, 0 => by simp [modAt]
  | x :: xs, 0, j + 1 => by simp [modAt]
  | x :: xs, i + 1, 0 => by simp [modAt]
  | x :: xs, i + 1, j + 1 => by simpa [modAt] using modAt_getD f d xs i j

theorem take_want (i : Nat) (t : HandleTab) : (t.take [i]).want = t.want.filter fun p => p.1 ≠ i := by
  show (t.want.filter fun p => p.1 != i) = _
  exact List.filter_congr fun p _ => by cases h : p.1 == i <;> simp_all [bne]

theorem tab_set (s : State) (ts : List HandleTab) (ty : Nat) : ({ s with tabs := ts } : State).tab ty = ts.getD ty { gens := [], freed := [] } := rfl

theorem hold_one (i : Nat) : ((List.range 1).map (i + ·)).drop 1 = [] := rfl

/-- One ring of index `i`. -/
def ringObj (desk cls writer kind sub i : Nat) (s : State) : Obj :=
  { ty := tRing, idx := i, gen := 1, desk := desk, cls := cls, dom := 0, freeing := false, job := none, staged := 0, charge := 0, safe := 0,
    epoch := s.epoch, kind := .ring (Ring.new 1 64 [(i % 64, i / 64)] writer kind sub) }

theorem addRings_plain (desk cls writer kind sub0 : Nat) : ∀ (is : List Nat) (u : Nat → Prop) (s : State), RowsIn u s →
    (∀ i ∈ is, ¬ u i ∧ i < 65536) → is.Nodup → ∃ s', addRings desk cls 0 1 64 writer kind sub0 is s = some s' ∧ Rings is s s' ∧
      RowsIn (fun j => u j ∨ j ∈ is) s'
  | [], u, s, h, _, _ => ⟨s, rfl, ⟨rfl, rfl, rfl, fun _ _ => rfl, fun _ => (List.filter_eq_self.mpr (by simp)).symm, [], by simp⟩, h.faults, h.doms, fun o ho r hr p hp => by
      obtain ⟨j, hj, e⟩ := h.rows o ho r hr p hp
      exact ⟨j, .inl hj, e⟩⟩
  | i :: is, u, s, h, hi, hn => by
    have hm : s.maxMult 0 = 1 := by simp only [State.maxMult, State.dom, State.mult, h.doms]; decide
    have hx := hi i (by simp)
    let m : State := (s.addObj (ringObj desk cls writer kind (sub0 + is.length) i s)).clearTags [(i % 64, i / 64)]
    let s1 : State := { m with tabs := modAt m.tabs tRing fun t => t.take [] }
    have hobj : s1.objs = s.objs ++ [{ ringObj desk cls writer kind (sub0 + is.length) i s with
      gen := (s.tab tRing).gen i, epoch := s.epoch }] := rfl
    have htab : s1.tabs = modAt (modAt s.tabs tRing fun t => t.take [i]) tRing fun t => t.take [] := rfl
    have h1 : RowsIn (fun j => u j ∨ j = i) s1 := by
      refine ⟨h.faults, h.doms, fun o ho r hr p hp => ?_⟩
      rw [hobj, List.mem_append] at ho
      rcases ho with ho | ho
      · obtain ⟨j, hj, e⟩ := h.rows o ho r hr p hp
        exact ⟨j, .inl hj, e⟩
      · simp only [List.mem_singleton] at ho
        subst ho
        simp only [Obj.ring?, ringObj, Option.some.injEq] at hr
        subst hr
        simp only [Ring.new, List.mem_singleton] at hp
        exact ⟨i, .inr rfl, hp⟩
    have hn2 := List.nodup_cons.mp hn
    obtain ⟨s', e, hr, hu⟩ := addRings_plain desk cls writer kind sub0 is (fun j => u j ∨ j = i) s1 h1 (fun j hj => by
      refine ⟨fun c => ?_, (hi j (by simp [hj])).2⟩
      rcases c with c | c
      · exact (hi j (by simp [hj])).1 c
      · exact hn2.1 (c ▸ hj)) hn2.2
    refine ⟨s', ?_, ⟨hr.faults, hr.doms, ?_, fun ty ht => ?_, fun hl => ?_, ?_⟩, hu.faults, hu.doms, fun o ho r hr p hp => ?_⟩
    · rw [addRings, findRows_plain h hx.1 hx.2]
      simp only [hm, hold_one]
      exact e
    · rw [hr.len, htab, modAt_length, modAt_length]
    · rw [hr.other ty ht]
      show s1.tabs.getD ty _ = s.tabs.getD ty _
      rw [htab, modAt_getD, modAt_getD]
      have c := Ne.symm ht
      rw [if_neg (fun x => c x.1), if_neg (fun x => c x.1)]
    · have hl1 : tRing < s1.tabs.length := by rw [htab, modAt_length, modAt_length]; exact hl
      rw [hr.want hl1]
      have : s1.tab tRing = (s.tab tRing).take [i] := by
        show s1.tabs.getD tRing _ = _
        rw [htab, modAt_getD, modAt_getD, modAt_length, if_pos ⟨rfl, hl⟩, if_pos ⟨rfl, hl⟩]
        rfl
      rw [this, take_want, List.filter_filter]
      congr 1
      funext p
      simp [Bool.and_comm]
    · obtain ⟨l, e1, e2, e3⟩ := hr.objs
      refine ⟨_ :: l, by rw [e1, hobj, List.append_assoc]; rfl, by simp [e2], fun o ho => ?_⟩
      rcases List.mem_cons.mp ho with c | c
      · subst c
        exact ⟨rfl, _, rfl, i, by simp, rfl⟩
      · obtain ⟨a, r, b, j, hj, d⟩ := e3 o c
        exact ⟨a, r, b, j, by simp [hj], d⟩
    · obtain ⟨j, hj, e⟩ := hu.rows o ho r hr p hp
      refine ⟨j, ?_, e⟩
      rcases hj with (c | c) | c
      · exact .inl c
      · exact .inr (by simp [c])
      · exact .inr (by simp [c])

/-- The tile set object an allocation adds. -/
def tilesObj (desk cls tier rows cols i : Nat) (arr : List Nat) (s : State) : Obj :=
  { ty := tBlock, idx := i, gen := 1, desk := desk, cls := cls, dom := 0, freeing := false, job := none, staged := 0, charge := 0, safe := 0,
    epoch := s.epoch, kind := .tiles { tier := tier, rows := rows, cols := cols, firstRing := 0, tiles := arr, nodes := [], rowRecs := [],
                                       pend := [], lastClip := none, release := none } }

def ringList (j n : Nat) : List Nat := (List.range n).map fun k => j + 1 * (n - 1 - k)

theorem mem_ringList {j n i : Nat} : i ∈ ringList j n ↔ j ≤ i ∧ i < j + n := by
  simp only [ringList, List.mem_map, List.mem_range]
  constructor
  · rintro ⟨k, hk, rfl⟩; omega
  · intro h
    exact ⟨n - 1 - (i - j), by omega, by omega⟩

theorem ringList_nodup (j n : Nat) : (ringList j n).Nodup := by
  unfold ringList
  refine List.Pairwise.map _ (R := fun a b => a < b ∧ b < n) (fun a b h => by omega) ?_
  have := List.pairwise_lt_range (n := n)
  exact this.imp_of_mem fun ha hb h => ⟨h, List.mem_range.mp hb⟩

theorem ringList_length (j n : Nat) : (ringList j n).length = n := by simp [ringList]

/-- Rows a ring object holds. -/
def rowsOf (o : Obj) : Nat := (o.ring?.map (·.rows.length)).getD 0

theorem newTiles_plain (cls tier rows cols i j : Nat) (arr : List Nat) (u : Nat → Prop) (s : State) (h : RowsIn u s)
    (hp : placeTiles s ((rows / 64) * (cols / 64)) 1 = .ok (arr, s)) (hi : (s.tab tBlock).pick 1 1 0xF0000 512 = some i)
    (hq : s.ringRows + cols ≤ 65536) (hj : (s.tab tRing).pick (cols * 1) 1 0 65536 = some j)
    (hu : ∀ k, j ≤ k → k < j + cols → ¬ u k ∧ k < 65536) :
    ∃ s', Rings (ringList j cols) (s.addObj (tilesObj 0 cls tier rows cols i arr s)) s' ∧ RowsIn (fun k => u k ∨ k ∈ ringList j cols) s' ∧
      ∃ hd, newTiles s 0 cls 0 tier rows cols = .ok (i, s'.upd hd fun x => x.onTiles fun t => { t with firstRing := j }) := by
  let sT := s.addObj (tilesObj 0 cls tier rows cols i arr s)
  have hT : RowsIn u sT := ⟨h.faults, h.doms, fun o ho r hr p hp => by
    rcases List.mem_append.mp ho with ho | ho
    · exact h.rows o ho r hr p hp
    · simp only [List.mem_singleton] at ho
      subst ho
      cases hr⟩
  have m1 : s.mult 0 = 1 := by simp only [State.mult, State.dom, h.doms]; decide
  have m2 : sT.mult 0 = 1 := m1
  have m3 : sT.maxMult 0 = 1 := by simp only [State.maxMult, State.dom, State.mult, hT.doms]; decide
  obtain ⟨s', e, hr, hs⟩ := addRings_plain 0 cls (((sT.objAt tBlock i).map Obj.handle).getD 0) 5 0 (ringList j cols) u sT hT
    (fun k hk => hu k (mem_ringList.mp hk).1 (mem_ringList.mp hk).2) (ringList_nodup j cols)
  refine ⟨s', hr, hs, ((sT.objAt tBlock i).map Obj.handle).getD 0, ?_⟩
  have hrr : sT.ringRows = s.ringRows := by
    show sumNat ((s.objs ++ [_]).map rowsOf) = sumNat (s.objs.map rowsOf)
    simp [sumNat, rowsOf, Obj.ring?, tilesObj]
  have hjt : (sT.tab tRing).pick (cols * 1) 1 0 65536 = some j := by
    have : sT.tab tRing = s.tab tRing := by
      show (modAt s.tabs tBlock _).getD tRing _ = _
      rw [modAt_getD, if_neg (fun c => absurd c.1 (by decide))]
      rfl
    rw [this, hj]
  have al : allocRings sT 0 cls 0 cols 0 (((sT.objAt tBlock i).map Obj.handle).getD 0) 5 0 = .ok (j, s') := by
    unfold allocRings
    simp only [m2, m3, within, need, beq_self_eq_true, Bool.true_or, if_true, hrr, Nat.mul_one, hq, decide_true, bind, Except.bind]
    rw [Nat.mul_one] at hjt
    rw [hjt]
    simp only
    show (match addRings 0 cls 0 1 64 _ 5 0 (ringList j cols) sT with | none => _ | some s => _) = _
    rw [e]
  unfold newTiles
  simp only [m1, within, need, beq_self_eq_true, Bool.true_or, if_true, hp, bind, Except.bind, hi]
  simp only [sT, tilesObj] at al ⊢
  rw [al]

/-- `running` with the ring indices the two tile sets are to take wanted, as after a state copy. -/
def wanting : State :=
  { running with tabs := modAt running.tabs tRing fun t => { t with want := [(0, 1), (512, 1)] } }

def firstArr : List Nat := giveTiles 1 (freeSlots wanting) 448

/-- Tile-slots of array `a` an object holds in domain A at the base rate. -/
def slotsOf (a : Nat) (o : Obj) : Nat :=
  match o.tiles? with
  | some t => (t.tiles.filter (· == a)).length * wanting.heldMult o.dom
  | none => 0

theorem arrayUsed_of {s : State} (h : s.doms = running.doms) (a : Nat) : arrayUsed s a = sumNat (s.objs.map (slotsOf a)) := by
  unfold arrayUsed
  congr 1
  apply List.map_congr_left
  intro o _
  unfold slotsOf
  cases o.tiles? with
  | none => rfl
  | some t =>
    show _ * s.heldMult o.dom = _ * wanting.heldMult o.dom
    have : s.heldMult o.dom = wanting.heldMult o.dom := by
      simp only [State.heldMult, State.dom, State.mult, h]
      rfl
    rw [this]

theorem foldl_add (l : List Nat) : ∀ a, l.foldl (· + ·) a = a + sumNat l := by
  induction l with
  | nil => intro a; rfl
  | cons x xs ih => intro a; simp only [sumNat, List.foldl_cons]; rw [ih, ih]; omega

theorem sumNat_cons (x : Nat) (xs : List Nat) : sumNat (x :: xs) = x + sumNat xs := by
  simp only [sumNat, List.foldl_cons]; rw [foldl_add]; simp [sumNat]

theorem sumNat_const (c : Nat) (l : List Nat) (h : ∀ x ∈ l, x = c) : sumNat l = l.length * c := by
  induction l with
  | nil => simp [sumNat]
  | cons x xs ih =>
    rw [sumNat_cons, h x (by simp), ih (fun y hy => h y (by simp [hy])), List.length_cons, Nat.succ_mul]; omega

/-- The arrays the second tile set takes, the first holding `firstArr`. -/
def freeAfter : List (Nat × Nat) := (List.range 16).map fun a => (a, 32 - (firstArr.filter (· == a)).length)

theorem placeTiles_fits {s : State} {n m : Nat} (h : sumNat ((freeSlots s).map fun p => p.2 / m) ≥ n) :
    placeTiles s n m = .ok (giveTiles m (freeSlots s) n, s) := by
  unfold placeTiles
  exact if_pos h

theorem upd_slots (s : State) (hd a r : Nat) : (s.upd hd fun x => x.onTiles fun t => { t with firstRing := r }).objs.map (slotsOf a) =
    s.objs.map (slotsOf a) := by
  simp only [State.upd, State.modObj, List.map_map]
  apply List.map_congr_left
  intro o _
  simp only [Function.comp]
  split
  · cases hk : o.kind <;> simp [slotsOf, Obj.onTiles, Obj.tiles?, hk]
  · rfl

theorem onTiles_ring (o : Obj) (f : Tiles → Tiles) : (o.onTiles f).ring? = o.ring? := by
  cases hk : o.kind <;> simp [Obj.onTiles, Obj.ring?, hk]

theorem upd_rows (s : State) (hd : Nat) (f : Tiles → Tiles) : (s.upd hd fun x => x.onTiles f).objs.map rowsOf = s.objs.map rowsOf := by
  simp only [State.upd, State.modObj, List.map_map]
  apply List.map_congr_left
  intro o _
  simp only [Function.comp]
  split
  · simp [rowsOf, onTiles_ring]
  · rfl

theorem upd_rowsIn {u : Nat → Prop} {s : State} (hd : Nat) (f : Tiles → Tiles) (h : RowsIn u s) : RowsIn u (s.upd hd fun x => x.onTiles f) := by
  refine ⟨h.faults, h.doms, fun o ho r hr => ?_⟩
  simp only [State.upd, State.modObj, List.mem_map] at ho
  obtain ⟨o', ho', e⟩ := ho
  refine h.rows o' ho' r ?_
  rw [← hr, ← e]
  split
  · exact (onTiles_ring o' f).symm
  · rfl

theorem pick_want {t : HandleTab} (h : t.want = [(512, 1)]) : t.pick (512 * 1) 1 0 65536 = some 512 := by
  simp [HandleTab.pick, h]

theorem default_tiles : ∃ i s₁, newTiles wanting 0 (wanting.desk 0).defClass 0 1 3584 512 = .ok (i, s₁) ∧
    ∃ j s₂, newTiles s₁ 0 (wanting.desk 0).defClass 0 2 512 512 = .ok (j, s₂) := by
  have h0 : RowsIn (fun _ => False) wanting := ⟨rfl, rfl, fun o ho => by cases ho⟩
  obtain ⟨s', hr, hs, hd, e1⟩ := newTiles_plain (wanting.desk 0).defClass 1 3584 512 0xF0000 0 firstArr _ wanting h0
    (placeTiles_fits (by decide +kernel)) (by decide +kernel) (by decide +kernel) (by decide +kernel) (fun k _ h => ⟨fun c => c, by omega⟩)
  refine ⟨_, _, e1, ?_⟩
  obtain ⟨l, ho, hl, hk⟩ := hr.objs
  let s₁ := s'.upd hd fun x => x.onTiles fun t => { t with firstRing := 0 }
  have hR : RowsIn (fun k => False ∨ k ∈ ringList 0 512) s₁ := upd_rowsIn hd _ hs
  have hz : ∀ a, l.map (slotsOf a) = List.replicate l.length 0 := fun a => by
    rw [List.eq_replicate_iff]
    refine ⟨by simp, fun x hx => ?_⟩
    obtain ⟨o, ho, e⟩ := List.mem_map.mp hx
    obtain ⟨_, r, hr, _⟩ := hk o ho
    rw [← e]
    simp [slotsOf, Obj.tiles?, hr]
  have hT : ∀ a, a < 16 → slotsOf a (tilesObj 0 (wanting.desk 0).defClass 1 3584 512 0xF0000 firstArr wanting) = (firstArr.filter (· == a)).length := by
    decide +kernel
  have hfree : freeSlots s₁ = freeAfter := by
    apply List.map_congr_left
    intro a ha
    have hb : s₁.badArray a = false := by
      show (s₁.faults.lasting.contains _) = false
      rw [hR.faults]
      rfl
    rw [hb, arrayUsed_of hR.doms, upd_slots, ho]
    simp only [State.addObj, List.map_append, List.map_cons, List.map_nil, hz]
    have : wanting.objs = [] := rfl
    rw [this]
    simp only [List.map_nil, List.nil_append, List.cons_append]
    rw [sumNat_cons, sumNat_const 0 _ (fun x hx => List.eq_of_mem_replicate hx)]
    have := hT a (List.mem_range.mp ha)
    simp only [slotsOf, Obj.tiles?, tilesObj] at this ⊢
    rw [this]
    simp
  have hrows : s₁.ringRows = 512 := by
    show sumNat (s₁.objs.map rowsOf) = 512
    rw [upd_rows, ho]
    simp only [State.addObj, List.map_append, List.map_cons, List.map_nil]
    have : wanting.objs = [] := rfl
    rw [this]
    simp only [List.map_nil, List.nil_append, List.cons_append]
    rw [sumNat_cons, sumNat_const 1 _ (fun x hx => by
      obtain ⟨o, ho, e⟩ := List.mem_map.mp hx
      obtain ⟨_, r, hr, i, _, hi⟩ := hk o ho
      rw [← e]
      simp [rowsOf, Obj.ring?, hr, hi])]
    simp [hl, ringList_length, rowsOf, Obj.ring?, tilesObj]
  have htab : s₁.tab tBlock = (wanting.tab tBlock).take [0xF0000] := by
    show s'.tab tBlock = _
    rw [hr.other tBlock (by decide)]
    rfl
  have hwant : (s₁.tab tRing).want = [(512, 1)] := by
    show (s'.tab tRing).want = _
    rw [hr.want (by decide)]
    have : ((wanting.addObj (tilesObj 0 (wanting.desk 0).defClass 1 3584 512 0xF0000 firstArr wanting)).tab tRing).want = [(0, 1), (512, 1)] := rfl
    rw [this]
    simp [mem_ringList]
  obtain ⟨s2, _, _, hd2, e2⟩ := newTiles_plain (wanting.desk 0).defClass 2 512 512 0xF0001 512 _ _ s₁ hR
    (placeTiles_fits (by rw [hfree]; decide +kernel)) (by rw [htab]; decide +kernel) (by omega) (pick_want hwant)
    (fun k h1 h2 => ⟨fun c => by rcases c with c | c; exact c; have := mem_ringList.mp c; omega, by omega⟩)
  exact ⟨_, _, e2⟩

end Sys2Proof.Tests
end

