-- ==== Sys2Proof/Tests/Whole.lean ====
section
/-! SUPPORT. For the statements about the whole machine that have hypotheses, states and operands that meet those of each clause. -/

namespace Sys2Proof.Tests
set_option Elab.async false
open Sys2Proof.Machine

theorem test_StepTakesTheFront_hypotheses_met :
    (∃ s : State, s.pending = [] ∧ s.dieOn = true ∧ s.host.restart = none ∧ s.sv.wake = false) ∧
    (∃ s : State, s.pending = [] ∧ s.sv.st = .watch ∧ s.sv.wake = false ∧ s.host.restart = none) :=
  ⟨⟨running, by decide +kernel⟩, ⟨{ running with sv := { running.sv with st := .watch } }, by decide +kernel⟩⟩

theorem test_EngineOffIsInert_hypotheses_met : ∃ (s : State) (c : Instr), s.dieOn = false ∧ supervisorSide c = false :=
  ⟨State.reset, .sysInfo (fr []), by decide +kernel⟩

theorem test_OffStaysOff_hypotheses_met : ∃ s t : State, offInert s ∧ step s = .next t :=
  ⟨{ State.reset with pending := [.sysInfo (fr [])] }, State.reset, ⟨by decide +kernel, by decide +kernel⟩, rfl⟩

/-- The supervisor at the last step of the power sequence. -/
def lastStep : State := { State.reset with sv := { Sv.reset with st := .sequencing, step := 10 } }

theorem test_OnlyTheSequencePowersTheDie_hypotheses_met :
    ∃ (s t : State) (c : Instr), s.dieOn = false ∧ exec c s = .next t ∧ t.dieOn = true :=
  ⟨lastStep, _, .sequencingStepReady 127 127, by decide +kernel, rfl, by decide +kernel⟩

/-- A frame of desk 1. -/
def deskOneFrame (n : Nat) : CmdFrame := { fr (le n 0) with desk := 1 }

theorem test_RuziaChecksInOrder_hypotheses_met :
    (∃ (s : State) (c : Instr) (op : Nat) (f : CmdFrame) (o : RuziaOp), ruziaOf c = some (op, f) ∧ rowOf op = some o ∧ s.serving = false) ∧
    (∃ (s : State) (c : Instr) (op : Nat) (f : CmdFrame) (o : RuziaOp), ruziaOf c = some (op, f) ∧ rowOf op = some o ∧
      takeable s f = true ∧ 240 < f.len) ∧
    (∃ (s : State) (c : Instr) (op : Nat) (f : CmdFrame) (o : RuziaOp), ruziaOf c = some (op, f) ∧ rowOf op = some o ∧
      takeable s f = true ∧ f.len ≤ 240 ∧ f.payload.length = f.len ∧ (8 ≤ f.flags ∨ f.res ≠ 0)) ∧
    (∃ (s : State) (c : Instr) (op : Nat) (f : CmdFrame) (o : RuziaOp), ruziaOf c = some (op, f) ∧ rowOf op = some o ∧
      Arrived op f s ∧ o.lenOk f = false) ∧
    (∃ (s : State) (c : Instr) (op : Nat) (f : CmdFrame) (o : RuziaOp), ruziaOf c = some (op, f) ∧ rowOf op = some o ∧
      Arrived op f s ∧ o.lenOk f = true ∧ (s.desk f.desk).isOpen = false ∧ sessionFree op = false) ∧
    (∃ (s : State) (c : Instr) (op : Nat) (f : CmdFrame) (o : RuziaOp), ruziaOf c = some (op, f) ∧ rowOf op = some o ∧
      Arrived op f s ∧ o.lenOk f = true ∧ ((s.desk f.desk).isOpen = true ∨ sessionFree op = true) ∧ o.desk0 = true ∧ f.desk ≠ 0) ∧
    (∃ (s : State) (c : Instr) (op : Nat) (f : CmdFrame) (o : RuziaOp), ruziaOf c = some (op, f) ∧ rowOf op = some o ∧
      Arrived op f s ∧ o.lenOk f = true ∧ ((s.desk f.desk).isOpen = true ∨ sessionFree op = true) ∧ (o.desk0 = true → f.desk = 0) ∧
      o.acc = .change ∧ (s.red.role = .standby ∨ s.red.role = .stale ∨ s.red.role = .forming)) :=
  ⟨⟨State.reset, .sysInfo (fr []), 0x0100, fr [], opSysInfo, rfl, rfl, by decide +kernel⟩,
   ⟨running, .sysInfo (fr (le 241 0)), 0x0100, fr (le 241 0), opSysInfo, rfl, rfl, by decide +kernel⟩,
   ⟨running, .sysInfo { fr [] with flags := 8 }, 0x0100, { fr [] with flags := 8 }, opSysInfo, rfl, rfl, by decide +kernel⟩,
   ⟨running, .sysInfo (fr [0]), 0x0100, fr [0], opSysInfo, rfl, rfl, arrived_of (by decide +kernel), by decide +kernel⟩,
   ⟨running.setDesk 0 fun k => { k with isOpen := false }, .sysSnapshot (fr (le 20 0)), 0x0101, fr (le 20 0), opSysSnapshot, rfl, rfl,
     arrived_of (by decide +kernel), by decide +kernel⟩,
   ⟨running, .sysRestart (deskOneFrame 4), 0x0102, deskOneFrame 4, opSysRestart, rfl, rfl, arrived_of (by decide +kernel), by decide +kernel⟩,
   ⟨member .stale, .routeDelete (fr (le 4 0)), opRouteDelete.op, fr (le 4 0), opRouteDelete, rfl, rfl, arrived_of (by decide +kernel),
     by decide +kernel⟩⟩

theorem test_FramesRunTheirCommands_hypotheses_met :
    ∃ (op : Nat) (f : CmdFrame), FitsHeader op f ∧ ∃ c, ruziaOf c = some (op, f) :=
  ⟨0x0100, fr [], ⟨by decide, by decide, by decide, by decide, by decide, by decide, rfl⟩, .sysInfo (fr []), rfl⟩

theorem test_ResponseAndHandleFields_hypotheses_met :
    (∃ (op : Nat) (f : CmdFrame) (st : Nat) (p : List Byte),
      op < 2 ^ 16 ∧ p.length < 2 ^ 16 ∧ f.seq < 2 ^ 32 ∧ f.desk < 2 ^ 16 ∧ st < 2 ^ 16) ∧
    (∃ ty gen idx : Nat, ty < 64 ∧ gen < 64 ∧ idx < 2 ^ 20) :=
  ⟨⟨0xFFFF, fr [], 0xFFFF, [], by decide⟩, ⟨63, 63, 2 ^ 20 - 1, by decide⟩⟩

theorem test_SievePassesUnchanged_hypotheses_met : ∃ (e : ChainEnv) (c : Chan) (ended : List Twin),
    liveTwin c.twins 1 e.j = none ∧ (ended.filter fun t => t.page == 1) = [] ∧ c.useAt e.m ended 0x0100 = 0 ∧ c.useAt e.m ended 0x0102 = 0 :=
  ⟨{ j := 0, m := 1, lam := 0, dc := 0, ret := 0, factors := [], cough := 0, packages := [], handles := [], skip := [], revive := [] }, { Chan.new 0 1 0 0 0 with vals := [PVal.rest 0x0102 0 .lin] }, [], by decide +kernel⟩

/-- A host write of two words. -/
def twoWords (o : Nat) : Access :=
  { master := 1, addr := 0x10040000 + o, bytes := 8, enables := List.replicate 8 true, write := true, data := le 8 0x0102030405060708 }

theorem test_MailboxWriteStores_hypotheses_met :
    (∃ (s : State) (a : Access) (o i : Nat), s.sv.st = .running ∧ memWf s.mem = true ∧ a.master = 1 ∧ a.write = true ∧ (∀ i, i < a.bytes → a.enables.getD i true = true) ∧
      4 ≤ a.bytes ∧ a.bytes ≤ 512 ∧ a.bytes % 4 = 0 ∧ o % 4 = 0 ∧ a.addr = 0x10040000 + o ∧ o + a.bytes ≤ 0x20000 ∧
      a.data.length = a.bytes ∧ i < a.bytes ∧ o + i < 0x19800 ∧ (o + i) % 0x1800 < 0x800) ∧
    (∃ (s : State) (a : Access) (o x : Nat), s.sv.st = .running ∧ memWf s.mem = true ∧ a.master = 1 ∧ a.write = true ∧ (∀ i, i < a.bytes → a.enables.getD i true = true) ∧
      4 ≤ a.bytes ∧ a.bytes ≤ 512 ∧ a.bytes % 4 = 0 ∧ o % 4 = 0 ∧ a.addr = 0x10040000 + o ∧ o + a.bytes ≤ 0x20000 ∧
      a.data.length = a.bytes ∧ ∀ i, i < a.bytes → o + i < 0x19800 → (o + i) % 0x1800 < 0x800 → x ≠ mailboxBase + (o + i)) :=
  ⟨⟨running, twoWords 0x7FC, 0x7FC, 3, by decide +kernel⟩, ⟨running, twoWords 0x7FC, 0x7FC, mailboxBase + 0x800, by decide +kernel⟩⟩

theorem test_HandlesAreChecked_hypotheses_met :
    (∃ p ∈ changeByHandle ++ askByHandle, ∃ (f : CmdFrame) (s : State), Taken p.1 f s ∧
      (hType (u32 f 0) ∉ p.2.1 ∨ s.objAt (hType (u32 f 0)) (hIdx (u32 f 0)) = none)) ∧
    (∃ p ∈ changeByHandle ++ askByHandle, ∃ (f : CmdFrame) (s : State) (o : Obj), Taken p.1 f s ∧
      hType (u32 f 0) ∈ p.2.1 ∧ s.objAt (hType (u32 f 0)) (hIdx (u32 f 0)) = some o ∧ o.gen ≠ hGen (u32 f 0)) :=
  ⟨⟨(opRouteDelete, [tRoute], .routeDelete), by simp [changeByHandle], fr (le 4 (h tRoute 9)), rich,
    taken_of (by decide +kernel), by decide +kernel⟩,
   ⟨(opRouteDelete, [tRoute], .routeDelete), by simp [changeByHandle], fr (le 4 (mkHandle tRoute 2 0)), rich, _,
    taken_of (by decide +kernel), by decide +kernel, (Option.some_get (x := rich.objAt tRoute 0) (by decide +kernel)).symm, by decide +kernel⟩⟩

theorem test_OnlyTheOwnerChanges_hypotheses_met :
    ∃ p ∈ changeByHandle, ∃ (f : CmdFrame) (s : State) (o : Obj), Taken p.1 f s ∧ names s (u32 f 0) p.2.1 o ∧ f.desk ≠ o.desk ∧ f.desk ≠ 0 :=
  ⟨(opRouteDelete, [tRoute], .routeDelete), by simp [changeByHandle], { fr (le 4 (h tRoute 0)) with desk := 1 }, rich, _,
    taken_of (by decide +kernel), names_of (by decide +kernel), by decide +kernel, by decide +kernel⟩

end Sys2Proof.Tests
end

