-- ==== Sys2Proof/Tests/Witness1.lean ====
section
/-! SUPPORT. For each statement of the obligations that has hypotheses, states and operands that meet those of each of its
clauses (1 of 3). -/
namespace Sys2Proof.Tests
set_option Elab.async false
open Sys2Proof.Machine

theorem test_SysDeskReadsComplete_hypotheses_met :
    (∃ (f : CmdFrame), ∃ (s : State), Taken opSysInfo f s) ∧
    (∃ (f : CmdFrame), ∃ (s : State), Taken opDeskInfo f s ∧ u16 f 0 ≤ 16 ∧ fld f 2 2 = 0) ∧
    (∃ (f : CmdFrame), ∃ (s : State), Taken opDeskPing f s) :=
  ⟨⟨(fr ([])), rich, taken_of (by decide +kernel)⟩,
   ⟨(fr (le 4 16)), rich, taken_of (by decide +kernel), (by decide +kernel)⟩,
   ⟨(fr ([])), rich, taken_of (by decide +kernel)⟩⟩

theorem test_SysChangesComplete_hypotheses_met :
    (∃ (f : CmdFrame), ∃ (s : State), Taken opSysSnapshot f s ∧ ∃ l, launchAt s f 0 = .ok l ∧ (l.kind = 0 ∨ l.index s 0 ≤ s.idx 0 + 2 ^
      32) ∧ ∃ b, (u8 f 16 = b ∧ b ≤ 1 ∨ u8 f 16 = 0xFF ∧ b = 1 - s.snap.lastBank) ∧ u8 f 17 = 0 ∧ fld f 18 2 = 0 ∧ s.snap.busy b = false
      ∧ (strictFlag f = true → (snapWhen s l 2).2 = false)) ∧
    (∃ (f : CmdFrame), ∃ (s : State), Taken opSysRestart f s ∧ u8 f 0 ≤ 2 ∧ fld f 1 3 = 0) ∧
    (∃ (f : CmdFrame), ∃ (s : State), Taken opSysImageWrite f s ∧ (u8 f 0 = 1 ∨ u8 f 0 = 2) ∧ fld f 1 3 = 0 ∧ ∃ b, bulkAt s f 4 0
      0xFFFFFFFF = .ok b ∧ u8 f 0 ≠ s.host.imageSlot + 1 ∧ s.jobsOf f.desk < 32) :=
  ⟨⟨(fr (le 16 0 ++ le 1 0xFF ++ le 3 0)), rich, taken_of (by decide +kernel), ex_ok (by decide +kernel) ⟨(by decide +kernel), 1, (by decide +kernel)⟩⟩,
   ⟨(fr (le 4 2)), rich, taken_of (by decide +kernel), (by decide +kernel)⟩,
   ⟨(fr (le 4 2 ++ le 1 2 ++ le 3 0 ++ le 4 64 ++ le 8 0)), rich, taken_of (by decide +kernel), (by decide +kernel), (by decide +kernel), ex_ok (by decide +kernel) (by decide +kernel)⟩⟩

theorem test_SessionsComplete_hypotheses_met :
    (∃ (f : CmdFrame), ∃ (s : State), Taken opDeskOpen f s ∧ (u32 f 4 = 0 ∨ (1000 ≤ u32 f 4 ∧ u32 f 4 ≤ 60000)) ∧ ∃ (q : Nat), qOf
      f.payload 8 = some q ∧ ((s.desk f.desk).transport = .udp → q ≤ s.q + 2 * secondQ ∧ s.q ≤ q + 2 * secondQ ∧ (s.desk
      f.desk).lastOpen < q) ∧ fld f 22 2 = 0) ∧
    (∃ (f : CmdFrame), ∃ (s : State), Taken opDeskClose f s) ∧
    (∃ (f : CmdFrame), ∃ (s : State), Taken opDeskAttach f s ∧ u16 f 0 ≤ 16 ∧ u8 f 2 ≤ 2 ∧ fld f 3 1 = 0 ∧ (u8 f 2 = 2 ↔ u16 f 4 ≠ 0) ∧
      fld f 6 2 = 0) ∧
    (∃ (s : State), s.serving = true ∧ ∃ d, d ≤ 16 ∧ s.unanswered d = 0 ∧ ∃ t, ∃ e, (s.desk d).move = some (t, e) ∧ True) ∧
    (∃ (s : State), s.serving = true ∧ ∃ d, d ≤ 16 ∧ (s.desk d).transport ≠ .pcie ∧ (s.desk d).isOpen = true) :=
  ⟨⟨(fr (le 4 6 ++ le 4 1000 ++ le 16 0)), rich, taken_of (by decide +kernel), (by decide +kernel), ex_some (by decide +kernel) (by decide +kernel)⟩,
   ⟨(fr ([])), rich, taken_of (by decide +kernel)⟩,
   ⟨(fr (le 2 16 ++ le 1 2 ++ le 1 0 ++ le 2 7 ++ le 2 0)), rich, taken_of (by decide +kernel), (by decide +kernel)⟩,
   ⟨(rich.setDesk 16 fun k => { k with move := some (.udp, 0) }), (by decide +kernel), 16, (by decide +kernel), (by decide +kernel), ex_somep (by decide +kernel) trivial⟩,
   ⟨(rich.setDesk 16 fun k => { k with transport := .udp }), (by decide +kernel), 16, (by decide +kernel)⟩⟩

theorem test_DeskSettingsComplete_hypotheses_met :
    (∃ (f : CmdFrame), ∃ (s : State), Taken opDeskKeySet f s ∧ u16 f 0 ≤ 16 ∧ fld f 2 2 = 0) ∧
    (∃ (f : CmdFrame), ∃ (s : State), Taken opDeskQuotaSet f s ∧ 1 ≤ u16 f 0 ∧ u16 f 0 ≤ 16 ∧ fld f 2 2 = 0 ∧ 1 ≤ u16 f 4 ∧ u16 f 4 ≤ 14
      ∧ fld f 6 2 = 0 ∧ ∃ rs, rs = (List.range (u16 f 4)).map (fun i => (u16 f (8 + 8 * i), u32 f (12 + 8 * i))) ∧ (∀ i, i < u16 f 4 → 1
      ≤ u16 f (8 + 8 * i) ∧ u16 f (8 + 8 * i) ≤ 10 ∧ fld f (10 + 8 * i) 2 = 0)) ∧
    (∃ (f : CmdFrame), ∃ (s : State), Taken opDeskDefaultsSet f s ∧ u8 f 0 ≤ 3 ∧ (f.desk = 0 ∨ (s.desk f.desk).quota.getD 10 3 ≤ u8 f 0)
      ∧ u8 f 1 ≤ 1 ∧ u8 f 2 ≤ 2 ∧ fld f 3 1 = 0 ∧ u32 f 4 ≤ 96000) ∧
    (∃ (f : CmdFrame), ∃ (s : State), Taken opDeskEventReplay f s ∧ fld f 4 4 = 0 ∧ ∃ b, bulkAt s f 8 1 131072 = .ok b ∧ s.jobsOf f.desk
      < 32) ∧
    (∃ (s : State), s.serving = true ∧ ∃ d, d ≤ 16 ∧ (s.desk d).transport = .udp ∧ (s.desk d).isOpen = true ∧ (s.desk d).lost = none ∧
      (s.desk d).undelivered ≠ 0 ∧ ∃ e, (s.desk d).nextEvent = some e ∧ s.red.role = .single) :=
  ⟨⟨(fr (le 4 16 ++ le 32 5)), rich, taken_of (by decide +kernel), (by decide +kernel)⟩,
   ⟨(fr (le 4 16 ++ le 4 1 ++ le 4 10 ++ le 4 9)), rich, taken_of (by decide +kernel), (by decide +kernel), (by decide +kernel), (by decide +kernel), (by decide +kernel), (by decide +kernel), (by decide +kernel), ex_eq (by decide +kernel)⟩,
   ⟨(fr (le 4 0x00020103 ++ le 4 96000)), rich, taken_of (by decide +kernel), (by decide +kernel)⟩,
   ⟨(fr (le 8 1 ++ le 1 2 ++ le 1 1 ++ le 2 0 ++ le 4 131072 ++ le 8 0)), rich, taken_of (by decide +kernel), (by decide +kernel), ex_ok (by decide +kernel) (by decide +kernel)⟩,
   ⟨(rich.setDesk 16 fun k =>
      { k with transport := .udp, undelivered := 1, evtSeq := 1, history := [⟨0x0102, 0, 6000, []⟩] }), (by decide +kernel),
      16, (by decide +kernel), (by decide +kernel), (by decide +kernel), (by decide +kernel), (by decide +kernel), ex_some (by decide +kernel) (by decide +kernel)⟩⟩

theorem test_StripCompletes_hypotheses_met :
    (∃ (f : CmdFrame), ∃ (s : State), Taken opStripInfo f s ∧ ∃ o, names s (u32 f 0) [tStrip] o ∧ ∃ c, o.chan? = some c ∧ True) ∧
    (∃ (f : CmdFrame), ∃ (s : State), Taken opStripFree f s ∧ ∃ o, freeChecks s f [tStrip] = .ok o ∧ anyFree s o = .ok ()) ∧
    (∃ (f : CmdFrame), ∃ (s : State), Taken opStripParamSet f s ∧ ∃ o, names s (u32 f 0) [tStrip] o ∧ (f.desk = o.desk ∨ f.desk = 0) ∧
      u16 f 30 == 0xFFFF ∧ ∃ b, bulkAt s f 32 0 32768 = .ok b ∧ (b.len % 8 == 0 && 1 ≤ b.len) ∧ ∃ y, timing3 f = .ok y ∧ ∃ y, launchAt s
      f 4 = .ok y ∧ open' o ∧ s.jobsOf f.desk < 32) ∧
    (∃ (f : CmdFrame), ∃ (s : State), Taken opStripParamSet f s ∧ ∃ o, names s (u32 f 0) [tStrip] o ∧ (f.desk = o.desk ∨ f.desk = 0) ∧ ¬
      (u16 f 30 == 0xFFFF) ∧ (1 ≤ u16 f 30 && u16 f 30 ≤ 26) ∧ ∃ recs, eachItem (recordAt f) (u16 f 30) 0 = .ok recs ∧ ∃ w, ∃ s',
      chanWrite s f o recs = .ok (w, s') ∧ (s'.jobs.length > s.jobs.length)) ∧
    (∃ (f : CmdFrame), ∃ (s : State), Taken opStripParamSet f s ∧ ∃ o, names s (u32 f 0) [tStrip] o ∧ (f.desk = o.desk ∨ f.desk = 0) ∧ ¬
      (u16 f 30 == 0xFFFF) ∧ (1 ≤ u16 f 30 && u16 f 30 ≤ 26) ∧ ∃ recs, eachItem (recordAt f) (u16 f 30) 0 = .ok recs ∧ ∃ w, ∃ s',
      chanWrite s f o recs = .ok (w, s') ∧ ¬ ((s'.jobs.length > s.jobs.length))) ∧
    (∃ (f : CmdFrame), ∃ (s : State), Taken opStripParamGet f s ∧ ∃ o, names s (u32 f 0) [tStrip] o ∧ (1 ≤ u16 f 4 && u16 f 4 ≤ 19) ∧ fld f 6 2 = 0 ∧ ∃ ids, (eachItem (fun i => do
      let id := u16 f (8 + 2 * i)
      if (chanGetSpec s o id).isNone then .error { status := eRange, field := 8 + 2 * i, item := i, handle := o.handle } else .ok id)
      (u16 f 4) 0) = .ok ids ∧ True) :=
  ⟨⟨(fr (le 4 (h tStrip 0))), rich, taken_of (by decide +kernel), ex_names (by decide +kernel) (ex_some (by decide +kernel) trivial)⟩,
   ⟨(fr (le 4 (h tStrip 0) ++ le 4 0)), rich, taken_of (by decide +kernel), ex_ok (by decide +kernel) (ok_unit (by decide +kernel))⟩,
   ⟨(fr (le 4 (h tStrip 0) ++ le 16 0 ++ le 4 480 ++ le 4 1024 ++ le 2 0 ++ le 2 0xFFFF ++ le 1 2 ++ le 3 0 ++
      le 4 32768 ++ le 8 0)), rich, taken_of (by decide +kernel), ex_names (by decide +kernel) ⟨(by decide +kernel), (by decide +kernel), ex_ok (by decide +kernel) ⟨(by decide +kernel), ex_ok (by decide +kernel) (ex_ok (by decide +kernel) (by decide +kernel))⟩⟩⟩,
   ⟨{ (fr (le 4 (h tStrip 0) ++ le 16 0 ++ le 4 480 ++ le 4 1024 ++ le 2 0 ++ le 2 1 ++ le 4 0 ++ le 4 1)) with flags := 4 },
      fullCore, taken_of (by decide +kernel), ex_names (by decide +kernel) ⟨(by decide +kernel), (by decide +kernel), (by decide +kernel), ex_ok (by decide +kernel) (ex_okp (by decide +kernel) (by decide +kernel))⟩⟩,
   ⟨(fr (le 4 (h tStrip 0) ++ le 16 0 ++ le 4 480 ++ le 4 1024 ++ le 2 0 ++ le 2 1 ++ le 4 0x0100 ++ le 4 1)),
      rich, taken_of (by decide +kernel), ex_names (by decide +kernel) ⟨(by decide +kernel), (by decide +kernel), (by decide +kernel), ex_ok (by decide +kernel) (ex_okp (by decide +kernel) (by decide +kernel))⟩⟩,
   ⟨(fr (le 4 (h tStrip 0) ++ le 2 1 ++ le 2 0 ++ le 2 0x0100)), rich, taken_of (by decide +kernel), ex_names (by decide +kernel) ⟨(by decide +kernel), (by decide +kernel), ex_ok
      (by decide +kernel) trivial⟩⟩⟩

theorem test_BusCompletes_hypotheses_met :
    (∃ (f : CmdFrame), ∃ (s : State), Taken opBusInfo f s ∧ ∃ o, names s (u32 f 0) [tBus] o ∧ ∃ c, o.chan? = some c ∧ True) ∧
    (∃ (f : CmdFrame), ∃ (s : State), Taken opBusFree f s ∧ ∃ o, freeChecks s f [tBus] = .ok o ∧ anyFree s o = .ok ()) ∧
    (∃ (f : CmdFrame), ∃ (s : State), Taken opBusParamSet f s ∧ ∃ o, names s (u32 f 0) [tBus] o ∧ (f.desk = o.desk ∨ f.desk = 0) ∧ u16 f
      30 == 0xFFFF ∧ ∃ b, bulkAt s f 32 0 32768 = .ok b ∧ (b.len % 8 == 0 && 1 ≤ b.len) ∧ ∃ y, timing3 f = .ok y ∧ ∃ y, launchAt s f 4 =
      .ok y ∧ open' o ∧ s.jobsOf f.desk < 32) ∧
    (∃ (f : CmdFrame), ∃ (s : State), Taken opBusParamSet f s ∧ ∃ o, names s (u32 f 0) [tBus] o ∧ (f.desk = o.desk ∨ f.desk = 0) ∧ ¬
      (u16 f 30 == 0xFFFF) ∧ (1 ≤ u16 f 30 && u16 f 30 ≤ 26) ∧ ∃ recs, eachItem (recordAt f) (u16 f 30) 0 = .ok recs ∧ ∃ w, ∃ s',
      chanWrite s f o recs = .ok (w, s') ∧ (s'.jobs.length > s.jobs.length)) ∧
    (∃ (f : CmdFrame), ∃ (s : State), Taken opBusParamSet f s ∧ ∃ o, names s (u32 f 0) [tBus] o ∧ (f.desk = o.desk ∨ f.desk = 0) ∧ ¬
      (u16 f 30 == 0xFFFF) ∧ (1 ≤ u16 f 30 && u16 f 30 ≤ 26) ∧ ∃ recs, eachItem (recordAt f) (u16 f 30) 0 = .ok recs ∧ ∃ w, ∃ s',
      chanWrite s f o recs = .ok (w, s') ∧ ¬ ((s'.jobs.length > s.jobs.length))) ∧
    (∃ (f : CmdFrame), ∃ (s : State), Taken opBusParamGet f s ∧ ∃ o, names s (u32 f 0) [tBus] o ∧ (1 ≤ u16 f 4 && u16 f 4 ≤ 19) ∧ fld f 6 2 = 0 ∧ ∃ ids, (eachItem (fun i => do
      let id := u16 f (8 + 2 * i)
      if (chanGetSpec s o id).isNone then .error { status := eRange, field := 8 + 2 * i, item := i, handle := o.handle } else .ok id)
      (u16 f 4) 0) = .ok ids ∧ True) ∧
    (∃ (f : CmdFrame), ∃ (s : State), Taken opBusAttrSet f s ∧ ∃ o, names s (u32 f 0) [tBus] o ∧ (f.desk = o.desk ∨ f.desk = 0) ∧ (u8 f
      4 ≤ 1 || u8 f 4 == 0xFF) ∧ fld f 5 3 = 0 ∧ open' o) ∧
    (∃ (f : CmdFrame), ∃ (s : State), Taken opBusLayout f s ∧ ∃ o, names s (u32 f 0) [tBus] o ∧ (f.desk = o.desk ∨ f.desk = 0) ∧ ∃ ps, (eachItem (fun i => do
      let a := u16 f (4 + 4 * i)
      let e := u16 f (6 + 4 * i)
      need (-18000 ≤ s16 a && s16 a ≤ 18000) eRange (4 + 4 * i)
      need (e ≤ 9000) eRange (6 + 4 * i)
      .ok (a, e)) 16 0) = .ok ps ∧ open' o ∧ ((o.chan?.map (·.width)).getD 0 == 16)) ∧
    (∃ (f : CmdFrame), ∃ (s : State), Taken opBusAlloc f s ∧ (u8 f 3 ≤ 2) ∧ (u8 f 8 ≤ 1 || u8 f 8 == 0xFF) ∧ fld f 9 3 = 0 ∧ ∃ u, ∃ ans,
      allocChan 0x0401 (u8 f 3 + 1) 0 4 (u8 f 8) s f = .ok (u, ans) ∧ True) :=
  ⟨⟨(fr (le 4 (h tBus 0))), rich, taken_of (by decide +kernel), ex_names (by decide +kernel) (ex_some (by decide +kernel) trivial)⟩,
   ⟨(fr (le 4 (h tBus 0) ++ le 4 0)), rich, taken_of (by decide +kernel), ex_ok (by decide +kernel) (ok_unit (by decide +kernel))⟩,
   ⟨(fr (le 4 (h tBus 0) ++ le 16 0 ++ le 4 480 ++ le 4 1024 ++ le 2 0 ++ le 2 0xFFFF ++ le 1 2 ++ le 3 0 ++
      le 4 8 ++ le 8 0)), rich, taken_of (by decide +kernel), ex_names (by decide +kernel) ⟨(by decide +kernel), (by decide +kernel), ex_ok (by decide +kernel) ⟨(by decide +kernel), ex_ok (by decide +kernel) (ex_ok (by decide +kernel) (by decide +kernel))⟩⟩⟩,
   ⟨{ (fr (le 4 (h tBus 0) ++ le 16 0 ++ le 4 480 ++ le 4 1024 ++ le 2 0 ++ le 2 1 ++ le 4 0 ++ le 4 1)) with flags := 4 },
      fullCore, taken_of (by decide +kernel), ex_names (by decide +kernel) ⟨(by decide +kernel), (by decide +kernel), (by decide +kernel), ex_ok (by decide +kernel) (ex_okp (by decide +kernel) (by decide +kernel))⟩⟩,
   ⟨(fr (le 4 (h tBus 0) ++ le 16 0 ++ le 4 480 ++ le 4 1024 ++ le 2 0 ++ le 2 1 ++ le 4 0 ++ le 4 0)), rich,
      taken_of (by decide +kernel), ex_names (by decide +kernel) ⟨(by decide +kernel), (by decide +kernel), (by decide +kernel), ex_ok (by decide +kernel) (ex_okp (by decide +kernel) (by decide +kernel))⟩⟩,
   ⟨(fr (le 4 (h tBus 0) ++ le 2 1 ++ le 2 0 ++ le 2 0)), rich, taken_of (by decide +kernel), ex_names (by decide +kernel) ⟨(by decide +kernel), (by decide +kernel), ex_ok (by decide +kernel)
      trivial⟩⟩,
   ⟨(fr (le 4 (h tBus 0) ++ le 4 0xFF)), rich, taken_of (by decide +kernel), ex_names (by decide +kernel) (by decide +kernel)⟩,
   ⟨(fr (le 4 (h tBus 0) ++ le 64 0x2328)), rich, taken_of (by decide +kernel), ex_names (by decide +kernel) ⟨(by decide +kernel), ex_ok (by decide +kernel) (by decide +kernel)⟩⟩,
   ⟨(fr (le 1 0 ++ le 1 1 ++ le 1 3 ++ le 1 0 ++ le 4 0 ++ le 4 0)), running, taken_of (by decide +kernel), (by decide +kernel), (by decide +kernel), (by decide +kernel), ex_okp
      (by decide +kernel) trivial⟩⟩

theorem test_NodeCompletes_hypotheses_met :
    (∃ (f : CmdFrame), ∃ (s : State), Taken opNodeTilesInfo f s ∧ ∃ o, names s (u32 f 0) [tBlock] o ∧ ∃ t, o.tiles? = some t ∧ True) ∧
    (∃ (f : CmdFrame), ∃ (s : State), Taken opNodeTilesAlloc f s ∧ ∃ feeds0, feedSinks s f (max 1 (u8 f 1)) = .ok feeds0 ∧ ∃ d, domainAt
      f 0 = .ok d ∧ (u8 f 1 == 1 || u8 f 1 == 2) ∧ ∃ cls, classOf s f 2 = .ok cls ∧ (u8 f 3 ≤ 58) ∧ ∃ rows, rows = (u16 f 4) ∧ ∃ cols,
      cols = (u16 f 6) ∧ (rows % 64 == 0 && 64 ≤ rows && rows ≤ 4096) ∧ (cols % 64 == 0 && 64 ≤ cols && cols ≤ 1024) ∧ (feeds0.length ≤
      cols) ∧ feeds0.forM (feedOpen s d) = .ok () ∧ classPermitted s f.desk cls 2 = .ok () ∧ allocatable s d = .ok () ∧ ∃ i, ∃ s₁,
      newTiles s f.desk cls d (u8 f 1) rows cols = .ok (i, s₁) ∧ ∃ o, s₁.objAt tBlock i = some o ∧ ∃ first, first = ((o.tiles?.map
      (·.firstRing)).getD 0) ∧ ∃ s₂, addFeeds f cls d first (s₁.maxMult d) feeds0 0 s₁ = .ok s₂ ∧ acyclic s₂ = .ok ()) ∧
    (∃ (f : CmdFrame), ∃ (s : State), Taken opNodeTilesFree f s ∧ ∃ o, freeChecks s f [tBlock] = .ok o ∧ tilesOnly s o = .ok ()) ∧
    (∃ (f : CmdFrame) (s : State), Taken opNodeTilesDefault f s ∧ (s.mult 0 == 1) ∧ ∃ cls, cls = (s.desk f.desk).defClass ∧ allocatable
      s 0 = .ok () ∧ (slotsUsed s == 0) ∧ ∃ i s₁, newTiles s f.desk cls 0 1 3584 512 = .ok (i, s₁) ∧ ∃ j s₂, newTiles s₁ f.desk cls 0 2
      512 512 = .ok (j, s₂)) ∧
    (∃ (f : CmdFrame), ∃ (s : State), Taken opNodeSet f s ∧ ∃ o, names s (u32 f 0) [tBlock] o ∧ ∃ t, o.tiles? = some t ∧ (f.desk =
      o.desk ∨ f.desk = 0) ∧ ∃ n, n = (u16 f 24) ∧ (1 ≤ n) ∧ fld f 26 2 = 0 ∧ (u32 f 20 ≤ 65535) ∧ ∃ recs, recs = ((List.range n).map
      fun i => (u16 f (28 + 8 * i), u16 f (30 + 8 * i), u32 f (32 + 8 * i))) ∧ nodeRecordsOk t 28 0 recs = .ok () ∧ ∃ l, launchAt s f 4
      = .ok l ∧ open' o ∧ ∃ w, ∃ s₁, applyNodes s o f l (u32 f 20) recs = .ok (w, s₁) ∧ True) ∧
    (∃ (f : CmdFrame), ∃ (s : State), Taken opNodeBulk f s ∧ ∃ o, names s (u32 f 0) [tBlock] o ∧ (o.tiles?.isSome) ∧ (f.desk = o.desk ∨
      f.desk = 0) ∧ (1 ≤ u32 f 24) ∧ (u32 f 20 ≤ 65535) ∧ ∃ b, bulkAt s f 28 0 1048576 = .ok b ∧ ∃ y, launchAt s f 4 = .ok y ∧ (b.len ==
      8 * u32 f 24) ∧ open' o ∧ s.jobsOf f.desk < 32) ∧
    (∃ (f : CmdFrame), ∃ (s : State), Taken opNodeGet f s ∧ ∃ o, names s (u32 f 0) [tBlock] o ∧ ∃ t, o.tiles? = some t ∧ ∃ n, n = (u16 f 4) ∧ (1 ≤ n && n ≤ 14) ∧ fld f 6 2 = 0 ∧ ∃ bs, (eachItem (fun i => atItem i do
      let r := u16 f (8 + 4 * i)
      let c := u16 f (10 + 4 * i)
      need (r < t.rows) eRange (8 + 4 * i)
      need (c < t.cols) eRange (10 + 4 * i)
      let x := (t.node r c).getD (Node.fresh r c 0)
      .ok (le 2 r ++ le 2 c ++ le 4 x.gain ++ leWord x.ramp.gainEnd ++ leWord x.ramp.value)) n 0) = .ok bs ∧ True) :=
  ⟨⟨(fr (le 4 (h tBlock 0xF0000))), rich, taken_of (by decide +kernel), ex_names (by decide +kernel) (ex_some (by decide +kernel) trivial)⟩,
   ⟨(fr (le 1 0 ++ le 1 1 ++ le 1 3 ++ le 1 0 ++ le 2 64 ++ le 2 64)), running, taken_of (by decide +kernel), ex_ok (by decide +kernel) (ex_ok
      (by decide +kernel) ⟨(by decide +kernel), ex_ok (by decide +kernel) ⟨(by decide +kernel), ex_eq (ex_eq ⟨(by decide +kernel), (by decide +kernel), (by decide +kernel), ok_unit (by decide +kernel), ok_unit (by decide +kernel), ok_unit (by decide +kernel), ex_okp (by decide +kernel) (ex_some
      (by decide +kernel) (ex_eq (ex_ok (by decide +kernel) (ok_unit (by decide +kernel)))))⟩)⟩⟩)⟩,
   ⟨(fr (le 4 (h tBlock 0xF0000) ++ le 4 1)), rich, taken_of (by decide +kernel), ex_ok (by decide +kernel) (ok_unit (by decide +kernel))⟩,
   ⟨fr [], wanting, taken_of (by decide +kernel), by decide +kernel, _, rfl, ok_unit (by decide +kernel), by decide +kernel, default_tiles⟩,
   ⟨(fr (le 4 (h tBlock 0xF0000) ++ le 16 0 ++ le 4 480 ++ le 4 1 ++ le 2 0 ++ le 2 63 ++ le 4 0)), rich,
      taken_of (by decide +kernel), ex_names (by decide +kernel) (ex_some (by decide +kernel) ⟨(by decide +kernel), ex_eq ⟨(by decide +kernel), (by decide +kernel), (by decide +kernel), ex_eq ⟨ok_unit (by decide +kernel), ex_ok (by decide +kernel) ⟨(by decide +kernel), ex_okp (by decide +kernel)
      trivial⟩⟩⟩⟩)⟩,
   ⟨(fr (le 4 (h tBlock 0xF0000) ++ le 16 0 ++ le 4 480 ++ le 4 131072 ++ le 1 2 ++ le 3 0 ++ le 4 1048576 ++
      le 8 0)), rich, taken_of (by decide +kernel), ex_names (by decide +kernel) ⟨(by decide +kernel), (by decide +kernel), (by decide +kernel), (by decide +kernel), ex_ok (by decide +kernel) (ex_ok (by decide +kernel) (by decide +kernel))⟩⟩,
   ⟨(fr (le 4 (h tBlock 0xF0000) ++ le 4 1 ++ le 2 63 ++ le 2 63)), rich, taken_of (by decide +kernel), ex_names (by decide +kernel) (ex_some (by decide +kernel)
      (ex_eq ⟨(by decide +kernel), (by decide +kernel), ex_ok (by decide +kernel) trivial⟩))⟩⟩

theorem test_GroupCompletes_hypotheses_met :
    (∃ (f : CmdFrame), ∃ (s : State), Taken opGroupInfo f s ∧ ∃ o, names s (u32 f 0) [tGroup] o ∧ ∃ g, o.group? = some g ∧ True) ∧
    (∃ (f : CmdFrame), ∃ (s : State), Taken opGroupAlloc f s ∧ ∃ cls, classOf s f 0 = .ok cls ∧ fld f 1 3 = 0 ∧ classPermitted s f.desk
      cls 0 = .ok () ∧ ∃ i, (s.tab tGroup).pick 1 1 0 256 = some i ∧ True) ∧
    (∃ (f : CmdFrame), ∃ (s : State), Taken opGroupFree f s ∧ ∃ o, freeChecks s f [tGroup] = .ok o ∧ True) ∧
    (∃ (f : CmdFrame), ∃ (s : State), Taken opGroupSet f s ∧ ∃ o, names s (u32 f 0) [tGroup] o ∧ (f.desk = o.desk ∨ f.desk = 0) ∧ ∃ g,
      o.group? = some g ∧ (gainOk (u32 f 4)) ∧ (u32 f 8 ≤ 65535) ∧ ∃ l, launchAt s f 12 = .ok l ∧ open' o ∧ ∃ bs, ∃ w, groupWhen s f l
      (g.doms s) = .ok (bs, w) ∧ True) ∧
    (∃ (f : CmdFrame), ∃ (s : State), Taken opGroupMemberSet f s ∧ ∃ o, names s (u32 f 0) [tGroup] o ∧ ∃ k, names s (u32 f 4) [tBlock] k
      ∧ ∃ g, o.group? = some g ∧ ∃ t, k.tiles? = some t ∧ (f.desk = o.desk ∨ f.desk = 0) ∧ (f.desk = k.desk ∨ f.desk = 0) ∧ ∃ first,
      first = (u16 f 8) ∧ ∃ n, n = (u16 f 10) ∧ (first < t.rows) ∧ (1 ≤ n && n ≤ 4096 && first + n ≤ t.rows) ∧ (u8 f 12 ≤ 1) ∧ fld f 13
      3 = 0 ∧ (u32 f 16 ≤ 65535) ∧ ∃ l, launchAt s f 20 = .ok l ∧ open' o ∧ open' k ∧ (u8 f 12 == 0 || (List.range n).all fun i =>
      g.accepted.contains (k.handle, first + i) || rowGroups s k.handle (first + i) < 4) ∧ ∃ bs, ∃ w, groupWhen s f l [k.dom] = .ok (bs,
      w) ∧ True) :=
  ⟨⟨(fr (le 4 (h tGroup 0))), rich, taken_of (by decide +kernel), ex_names (by decide +kernel) (ex_some (by decide +kernel) trivial)⟩,
   ⟨(fr (le 4 3)), rich, taken_of (by decide +kernel), ex_ok (by decide +kernel) ⟨(by decide +kernel), ok_unit (by decide +kernel), ex_some (by decide +kernel) trivial⟩⟩,
   ⟨(fr (le 4 (h tGroup 0) ++ le 4 0)), rich, taken_of (by decide +kernel), ex_ok (by decide +kernel) trivial⟩,
   ⟨(fr (le 4 (h tGroup 0) ++ le 4 0 ++ le 4 65535 ++ le 16 0)), rich, taken_of (by decide +kernel), ex_names (by decide +kernel) ⟨(by decide +kernel), ex_some
      (by decide +kernel) ⟨(by decide +kernel), (by decide +kernel), ex_ok (by decide +kernel) ⟨(by decide +kernel), ex_okp (by decide +kernel) trivial⟩⟩⟩⟩,
   ⟨(fr (le 4 (h tGroup 0) ++ le 4 (h tBlock 0xF0000) ++ le 2 63 ++ le 2 1 ++ le 4 1 ++ le 4 65535 ++ le 16
      0)), rich, taken_of (by decide +kernel), ex_names (by decide +kernel) (ex_names (by decide +kernel) (ex_some (by decide +kernel) (ex_some (by decide +kernel) ⟨(by decide +kernel), (by decide +kernel), ex_eq (ex_eq ⟨(by decide +kernel), (by decide +kernel),
      (by decide +kernel), (by decide +kernel), (by decide +kernel), ex_ok (by decide +kernel) ⟨(by decide +kernel), (by decide +kernel), (by decide +kernel), ex_okp (by decide +kernel) trivial⟩⟩)⟩)))⟩⟩

theorem test_RingCompletes_hypotheses_met :
    (∃ (f : CmdFrame), ∃ (s : State), Taken opRingInfo f s ∧ ∃ o, names s (u32 f 0) [tRing] o ∧ ∃ r, o.ring? = some r ∧ True) ∧
    (∃ (f : CmdFrame), ∃ (s : State), Taken opRingAlloc f s ∧ ∃ d, domainAt f 0 = .ok d ∧ ∃ c, classOf s f 1 = .ok c ∧ ∃ n, n = (u16 f
      2) ∧ (1 ≤ n && n ≤ 64) ∧ ∃ m, m = (s.mult d) ∧ ∃ depth, depth = (u32 f 4) ∧ (depth == 0 || deepDepth m depth) ∧ classPermitted s
      f.desk c 1 = .ok () ∧ allocatable s d = .ok () ∧ within s f.desk 4 (n * m) = .ok () ∧ (depth != 0 → within s f.desk 5 (n * m) =
      .ok ()) ∧ (depth != 0 → (s.deepRows + n * m ≤ 4096 && s.deepUsed + n * depth ≤ 536870912)) ∧ ∃ i, ∃ s₁, allocRings s f.desk c d n
      depth 0 0 0 = .ok (i, s₁) ∧ True) ∧
    (∃ (f : CmdFrame), ∃ (s : State), Taken opRingFree f s ∧ ∃ o, freeChecks s f [tRing] = .ok o ∧ ringFreeOk s o = .ok ()) ∧
    (∃ (f : CmdFrame), ∃ (s : State), Taken opRingDeep f s ∧ ∃ o, names s (u32 f 0) [tRing] o ∧ (f.desk = o.desk ∨ f.desk = 0) ∧ ∃ r, o.ring? = some r ∧ ∃ d, d = (u32 f 4) ∧ (d == 0 || deepDepth r.mult d) ∧ ∃ d₁, d₁ = (if d == 0 then 64 * r.mult else d) ∧ ∃ r', r' = { r with newDepth := some (nextBoundary s o.dom, d₁) } ∧ (!((s.readers o.handle).any fun p =>
      p.2.source == o.handle && p.2.offset > oMax s r' ||
      p.2.waiting.any fun c => let q := p.2.readingAt c.s; q.1 == o.handle && q.2 > oMax s r')) ∧ (!(r.writerKind == 2 && s.quarry.p > 8 && !r'.deepDue)) ∧ open' o ∧ (r'.deepDue → within s o.desk 5 (if r.deepDue then 0 else r.mult) = .ok ()) ∧ ∃ rows, rows = s.deepRows - (if r.deepDue then r.mult else 0) + r.mult ∧ ∃ used, used = s.deepUsed - (if r.deepDue then r.depthDue else 0) + d₁ ∧ (r'.deepDue → (rows ≤ 4096 && used ≤ 536870912))) :=
  ⟨⟨(fr (le 4 (h tRing 1))), rich, taken_of (by decide +kernel), ex_names (by decide +kernel) (ex_some (by decide +kernel) trivial)⟩,
   ⟨(fr (le 1 0 ++ le 1 3 ++ le 2 1 ++ le 4 128)), running, taken_of (by decide +kernel), ex_ok (by decide +kernel) (ex_ok (by decide +kernel) (ex_eq ⟨(by decide +kernel), ex_eq
      (ex_eq ⟨(by decide +kernel), ok_unit (by decide +kernel), ok_unit (by decide +kernel), ok_unit (by decide +kernel), (fun _ => ok_unit (by decide +kernel)), (by decide +kernel), ex_okp (by decide +kernel) trivial⟩)⟩))⟩,
   ⟨(fr (le 4 (h tRing 1) ++ le 4 0)), rich, taken_of (by decide +kernel), ex_ok (by decide +kernel) (ok_unit (by decide +kernel))⟩,
   ⟨(fr (le 4 (h tRing 1) ++ le 4 128)), rich, taken_of (by decide +kernel), ex_names (by decide +kernel) ⟨(by decide +kernel), ex_some (by decide +kernel) (ex_eq ⟨(by decide +kernel), ex_eq
      (ex_eq ⟨(by decide +kernel), (by decide +kernel), (by decide +kernel), (fun _ => ok_unit (by decide +kernel)), ex_eq (ex_eq (by decide +kernel))⟩)⟩)⟩⟩⟩

theorem test_RouteCompletes_hypotheses_met :
    (∃ (f : CmdFrame), ∃ (s : State), Taken opRouteInfo f s ∧ ∃ o, names s (u32 f 0) [tRoute] o ∧ ∃ r, o.route? = some r ∧ True) ∧
    (∃ (f : CmdFrame), ∃ (s : State), Taken opRouteCreate f s ∧ ∃ kind, kind = (u8 f 0) ∧ ∃ sub, sub = (u16 f 2) ∧ ∃ h, h = (u32 f 4) ∧
      ∃ src, src = (u32 f 8) ∧ ∃ off, off = (u32 f 12) ∧ ∃ k, sinkOf s kind sub h 0 = .ok k ∧ (src != 0 → ∃ y, names s src [tRing] y) ∧
      (f.desk == k.desk || f.desk == 0) ∧ fld f 1 1 = 0 ∧ k.fit = true ∧ ∃ dd, dd = (s.desk f.desk) ∧ (u8 f 16 ≤ 1 || u8 f 16 == 0xFF) ∧
      ∃ policy, policy = (override (u8 f 16) 0xFF dd.defPolicy) ∧ ∃ law, lawAt f 17 dd.defLaw = .ok law ∧ ∃ (cls : Nat), classOf s f 18
      = .ok cls ∧ fld f 19 1 = 0 ∧ ∃ t, tAt f 20 96000 dd.defT = .ok t ∧ (off ≤ offsetLimit s src) ∧ ∃ l, launchAt s f 24 = .ok l ∧
      sourceOk s kind src k.dom k.mult 8 = .ok () ∧ (!k.freeing && !k.closed) ∧ ((s.routeTo kind sub h).isNone) ∧ ∃ r, r = (Route.new
      kind sub h policy law t) ∧ noFeedLoop (s.addRoute k.desk cls k.dom { r with source := src, offset := off }) 8 = .ok () ∧
      classPermitted s f.desk cls 18 = .ok () ∧ (cls ≥ k.cls) ∧ ∃ o, o =
      { ty := tRoute, idx := 0, gen := 1, desk := k.desk, cls := cls, dom := k.dom, freeing := false, job := none, staged := 0, charge := 0, safe := 0, epoch := s.epoch, kind := .route r }
      ∧ ∃ w, schedule s l k.dom 0 false 24 = .ok w ∧ (policy == 1 && t > 0 && !w.now → kerfAllowed s o r w.s t = .ok ()) ∧ within s
      k.desk 6 1 = .ok () ∧ ∃ s₁, admitReading s (src, off) = .ok s₁ ∧ ∃ i, ∃ s₂, s₁.addRoute k.desk cls k.dom r = .ok (i, s₂) ∧ ∃ n, ∃
      s₃, (s₂.stamp) = (n, s₃) ∧ ∃ c, c =
      { order := n, desk := f.desk, seq := f.seq, s := w.s, src := some src, off := some off, cut := policy == 0, t := t, law := law, recallOf := 0 }
      ∧ ∃ s₄, s₄ = (if w.now then s₃.applyRoute i c else s₃.changeRoute i c) ∧ lateCheck f w = .ok ()) ∧
    (∃ (f : CmdFrame), ∃ (s : State), Taken opRouteDelete f s ∧ ∃ o, names s (u32 f 0) [tRoute] o ∧ (f.desk = o.desk ∨ f.desk = 0) ∧
      open' o ∧ (o.staged == 0)) ∧
    (∃ (f : CmdFrame), ∃ (s : State), Taken opRouteCut f s ∧ ∃ n, n = (u16 f 16) ∧ (1 ≤ n && n ≤ 11) ∧ fld f 18 2 = 0 ∧ ∃ l, launchAt s
      f 0 = .ok l ∧ ∃ qs, eachItem (routeRecord 0 s f l) n 0 = .ok qs ∧ routeListOk s qs = .ok () ∧ (qs.zipIdx.forM fun q =>
      routeRecordBusy s q.2 q.1) = .ok () ∧ ∃ s₁, routeApply 0x0803 f qs s = .ok s₁ ∧ (qs.forM fun q => lateCheck f q.when_) = .ok ()) ∧
    (∃ (f : CmdFrame), ∃ (s : State), Taken opRouteKerf f s ∧ ∃ n, n = (u16 f 16) ∧ (1 ≤ n && n ≤ 11) ∧ fld f 18 2 = 0 ∧ ∃ l, launchAt s
      f 0 = .ok l ∧ ∃ qs, eachItem (routeRecord 1 s f l) n 0 = .ok qs ∧ routeListOk s qs = .ok () ∧ (qs.zipIdx.forM fun q =>
      routeRecordBusy s q.2 q.1) = .ok () ∧ ∃ s₁, routeApply 0x0804 f qs s = .ok s₁ ∧ (qs.forM fun q => lateCheck f q.when_) = .ok ()) ∧
    (∃ (f : CmdFrame), ∃ (s : State), Taken opRouteSet f s ∧ ∃ n, n = (u16 f 16) ∧ (1 ≤ n && n ≤ 11) ∧ fld f 18 2 = 0 ∧ ∃ l, launchAt s
      f 0 = .ok l ∧ ∃ qs, eachItem (routeRecord 2 s f l) n 0 = .ok qs ∧ routeListOk s qs = .ok () ∧ (qs.zipIdx.forM fun q =>
      routeRecordBusy s q.2 q.1) = .ok () ∧ ∃ s₁, routeApply 0x0805 f qs s = .ok s₁ ∧ (qs.forM fun q => lateCheck f q.when_) = .ok ()) ∧
    (∃ (f : CmdFrame), ∃ (s : State), Taken opRoutePolicy f s ∧ ∃ o, names s (u32 f 0) [tRoute] o ∧ (f.desk = o.desk ∨ f.desk = 0) ∧ ∃
      r, o.route? = some r ∧ (u8 f 4 ≤ 1 || u8 f 4 == 0xFF) ∧ ∃ p, p = (override (u8 f 4) 0xFF r.policy) ∧ ∃ law, lawAt f 5 r.law = .ok
      law ∧ fld f 6 2 = 0 ∧ ∃ t, tAt f 8 96000 r.t = .ok t ∧ open' o) :=
  ⟨⟨(fr (le 4 (h tRoute 0))), rich, taken_of (by decide +kernel), ex_names (by decide +kernel) (ex_some (by decide +kernel) trivial)⟩,
   ⟨(fr (le 1 5 ++ le 1 0 ++ le 2 1 ++ le 4 (h tBlock 0xF0000) ++ le 4 (h tRing 1) ++ le 4 0 ++ le 1 1 ++ le 1
      0xFF ++ le 1 3 ++ le 1 0 ++ le 4 0xFFFFFFFF ++ le 16 0)), rich, taken_of (by decide +kernel), ex_eq (ex_eq (ex_eq (ex_eq
      (ex_eq (ex_ok (by decide +kernel) ⟨(fun _ => ⟨_, names_of (by decide +kernel)⟩), (by decide +kernel), (by decide +kernel), (by decide +kernel), ex_eq ⟨(by decide +kernel), ex_eq (ex_ok (by decide +kernel) (ex_ok (by decide +kernel) ⟨(by decide +kernel),
      ex_ok (by decide +kernel) ⟨(by decide +kernel), ex_ok (by decide +kernel) ⟨ok_unit (by decide +kernel), (by decide +kernel), (by decide +kernel), ex_eq ⟨ok_unit (by decide +kernel), ok_unit (by decide +kernel), (by decide +kernel), ex_eq (ex_ok (by decide +kernel) ⟨(fun _
      => ok_unit (by decide +kernel)), ok_unit (by decide +kernel), ex_ok (by decide +kernel) (ex_okp (by decide +kernel) (ex_pair (ex_eq (ex_eq (ok_unit (by decide +kernel))))))⟩)⟩⟩⟩⟩))⟩⟩)))))⟩,
   ⟨(fr (le 4 (h tRoute 0))), rich, taken_of (by decide +kernel), ex_names (by decide +kernel) (by decide +kernel)⟩,
   ⟨(fr (le 16 0 ++ le 2 1 ++ le 2 0 ++ le 4 (h tRoute 0) ++ le 4 (h tRing 1) ++ le 4 0 ++ le 1 1 ++ le 1 255
      ++ le 2 0 ++ le 4 0xFFFFFFFF)), rich, taken_of (by decide +kernel), ex_eq ⟨(by decide +kernel), (by decide +kernel), ex_ok (by decide +kernel) (ex_ok (by decide +kernel) ⟨ok_unit (by decide +kernel),
      ok_unit (by decide +kernel), ex_ok (by decide +kernel) (ok_unit (by decide +kernel))⟩)⟩⟩,
   ⟨(fr (le 16 0 ++ le 2 1 ++ le 2 0 ++ le 4 (h tRoute 0) ++ le 4 (h tRing 1) ++ le 4 0 ++ le 1 1 ++ le 1 1 ++
      le 2 0 ++ le 4 480)), rich, taken_of (by decide +kernel), ex_eq ⟨(by decide +kernel), (by decide +kernel), ex_ok (by decide +kernel) (ex_ok (by decide +kernel) ⟨ok_unit (by decide +kernel), ok_unit (by decide +kernel),
      ex_ok (by decide +kernel) (ok_unit (by decide +kernel))⟩)⟩⟩,
   ⟨(fr (le 16 0 ++ le 2 1 ++ le 2 0 ++ le 4 (h tRoute 0) ++ le 4 (h tRing 1) ++ le 4 0 ++ le 1 1 ++ le 1 0 ++
      le 2 0 ++ le 4 96000)), rich, taken_of (by decide +kernel), ex_eq ⟨(by decide +kernel), (by decide +kernel), ex_ok (by decide +kernel) (ex_ok (by decide +kernel) ⟨ok_unit (by decide +kernel), ok_unit (by decide +kernel),
      ex_ok (by decide +kernel) (ok_unit (by decide +kernel))⟩)⟩⟩,
   ⟨(fr (le 4 (h tRoute 0) ++ le 1 0xFF ++ le 1 2 ++ le 2 0 ++ le 4 96000)), rich, taken_of (by decide +kernel), ex_names (by decide +kernel)
      ⟨(by decide +kernel), ex_some (by decide +kernel) ⟨(by decide +kernel), ex_eq (ex_ok (by decide +kernel) ⟨(by decide +kernel), ex_ok (by decide +kernel) (by decide +kernel)⟩)⟩⟩⟩⟩

theorem test_PortCompletes_hypotheses_met :
    (∃ (f : CmdFrame), ∃ (s : State), Taken opPortInfo f s ∧ ∃ p, resolvePort s (u32 f 0) 0 = .ok p ∧ True) ∧
    (∃ (f : CmdFrame), ∃ (s : State), Taken opPortAssign f s ∧ ∃ p, resolvePort s (u32 f 0) 0 = .ok p ∧ (p != 512 && p != 513) ∧ (u16 f
      4 ≤ 16) ∧ fld f 6 2 = 0 ∧ (!(portBusy s p))) ∧
    (∃ (f : CmdFrame), ∃ (s : State), Taken opPortTdmConfig f s ∧ ∃ p, tdmPort s (u32 f 0) 0 = .ok p ∧ (f.desk = (s.port p).owner ∨
      f.desk = 0) ∧ (u8 f 4 ≤ 1) ∧ (u8 f 5 ≤ 2) ∧ (1 ≤ u8 f 6 && u8 f 6 ≤ 32 && (u8 f 5 == 0 || u8 f 6 == 2)) ∧ (tdmWidth (u8 f 7)) ∧
      (tdmWidth (u8 f 8) && u8 f 8 ≤ u8 f 7) ∧ (u8 f 9 ≤ 7) ∧ (u8 f 10 ≤ 2 && u8 f 10 + u8 f 8 ≤ u8 f 7) ∧ (u8 f 11 ≤ 2) ∧ (u16 f 12 ≤
      511) ∧ (u8 f 16 ≤ 15 && (!(bit (u8 f 16) 3) || u8 f 8 == 32)) ∧ fld f 17 3 = 0 ∧ (bankOk s p) ∧ (!(portBusy s p))) ∧
    (∃ (f : CmdFrame), ∃ (s : State), Taken opPortSlotBind f s ∧ ∃ p, tdmPort s (u32 f 0) 0 = .ok p ∧ ∃ t, t = (s.port p) ∧ (u32 f 8 !=
      0 → ∃ y, names s (u32 f 8) [tRing] y) ∧ (f.desk = t.owner ∨ f.desk = 0) ∧ ∃ a, a = (u8 f 4) ∧ ∃ n, n = (u8 f 5) ∧ (a < t.slots) ∧
      (1 ≤ n && a + n ≤ t.slots) ∧ fld f 6 2 = 0 ∧ (t.configured && t.dir == 0) ∧ ∃ mine, mine = (t.binds.filter fun b => a ≤ b.1 && b.1
      < a + n) ∧ u32 f 8 == 0) ∧
    (∃ (f : CmdFrame), ∃ (s : State), Taken opPortSlotBind f s ∧ ∃ p, tdmPort s (u32 f 0) 0 = .ok p ∧ ∃ t, t = (s.port p) ∧ (u32 f 8 !=
      0 → ∃ y, names s (u32 f 8) [tRing] y) ∧ (f.desk = t.owner ∨ f.desk = 0) ∧ ∃ a, a = (u8 f 4) ∧ ∃ n, n = (u8 f 5) ∧ (a < t.slots) ∧
      (1 ≤ n && a + n ≤ t.slots) ∧ fld f 6 2 = 0 ∧ (t.configured && t.dir == 0) ∧ ∃ mine, mine = (t.binds.filter fun b => a ≤ b.1 && b.1
      < a + n) ∧ ¬ (u32 f 8 == 0) ∧ ∃ rs, bindRings s f (u32 f 8) n 8 fun o r => o.dom == t.dom && r.mult == s.mult t.dom = .ok rs ∧
      mine.isEmpty = true ∧ ∃ s₁, State.bindWriters (portHandle p) 1 rs a s = .ok s₁ ∧ True) ∧
    (∃ (f : CmdFrame), ∃ (s : State), Taken opPortQuadMode f s ∧ ∃ q, q = (u8 f 0) ∧ ∃ m, m = (u8 f 1) ∧ (q ≤ 7) ∧ (m ≤ 4) ∧ fld f 2 2 =
      0 ∧ (!(quadBusy s q)) ∧ (m != 0 || s.mult 0 == 1)) :=
  ⟨⟨(fr (le 4 (portHandle 0))), rich, taken_of (by decide +kernel), ex_ok (by decide +kernel) trivial⟩,
   ⟨(fr (le 4 (portHandle 127) ++ le 4 16)), rich, taken_of (by decide +kernel), ex_ok (by decide +kernel) (by decide +kernel)⟩,
   ⟨(fr (le 4 (portHandle 127) ++ le 1 1 ++ le 1 0 ++ le 1 32 ++ le 1 32 ++ le 1 24 ++ le 1 7 ++ le 1 2 ++ le
      1 0 ++ le 2 511 ++ le 2 0 ++ le 4 7)), rich, taken_of (by decide +kernel), ex_ok (by decide +kernel) (by decide +kernel)⟩,
   ⟨(fr (le 4 (portHandle 0) ++ le 1 7 ++ le 3 1 ++ le 4 0)), rich, taken_of (by decide +kernel), ex_ok (by decide +kernel) (ex_eq ⟨(fun e =>
      absurd e (by decide +kernel)), (by decide +kernel), ex_eq (ex_eq ⟨(by decide +kernel), (by decide +kernel), (by decide +kernel), (by decide +kernel), ex_eq (by decide +kernel)⟩)⟩)⟩,
   ⟨(fr (le 4 (portHandle 0) ++ le 1 7 ++ le 3 1 ++ le 4 (h tRing 1))), rich, taken_of (by decide +kernel), ex_ok (by decide +kernel) (ex_eq
      ⟨(fun _ => ⟨_, names_of (by decide +kernel)⟩), (by decide +kernel), ex_eq (ex_eq ⟨(by decide +kernel), (by decide +kernel), (by decide +kernel), (by decide +kernel), ex_eq ⟨(by decide +kernel), ex_ok (by decide +kernel) ⟨(by decide +kernel), ex_ok (by decide +kernel)
      trivial⟩⟩⟩)⟩)⟩,
   ⟨(fr (le 1 7 ++ le 3 4)), rich, taken_of (by decide +kernel), ex_eq (ex_eq (by decide +kernel))⟩⟩

theorem test_FieldPortCompletes_hypotheses_met :
    (∃ (f : CmdFrame), ∃ (s : State), Taken opPortGpiBind f s ∧ ∃ g, gpiPort s (u32 f 0) = .ok g ∧ ∃ owner, owner = (s.gpi.getD g
      Gpi.reset).owner ∧ ∃ fn, fn = (u8 f 4) ∧ ∃ target, target = (u32 f 8) ∧ ∃ recallOf, recallOf = (fn == 6 && hType target != tScene)
      ∧ (fn != 0 && fn ≤ 6 && fn != 4 && !recallOf → ∃ o, names s target (functionTypes fn) o ∧ (f.desk = owner ∨ f.desk = 0) ∧ (o.desk
      == owner || o.desk == 0)) ∧ (recallOf → (s.isKeeper && s.arms.any fun a => a.id == target)) ∧ (recallOf → (f.desk == 0)) ∧ (f.desk
      = owner ∨ f.desk = 0) ∧ (fn ≤ 6) ∧ (u8 f 6 ≤ 1) ∧ fld f 7 1 = 0 ∧ (fn != 0 || target == 0) ∧ (fn != 4)) ∧
    (∃ (f : CmdFrame), ∃ (s : State), Taken opPortGpoBind f s ∧ ∃ g, gpoPort s (u32 f 0) = .ok g ∧ ∃ fn, fn = (u8 f 4) ∧ (1 ≤ fn && fn ≤
      4 → ∃ y, names s (u32 f 8) (functionTypes fn) y) ∧ (f.desk = (s.gpo.getD g Gpo.reset).owner ∨ f.desk = 0) ∧ (fn ≤ 6) ∧ fld f 5 3 =
      0 ∧ (fn != 0 || u32 f 8 == 0) ∧ (fn ≤ 4)) ∧
    (∃ (f : CmdFrame), ∃ (s : State), Taken opPortGpoSet f s ∧ ∃ g, gpoPort s (u32 f 0) = .ok g ∧ ∃ x, x = (s.gpo.getD g Gpo.reset) ∧
      (f.desk = x.owner ∨ f.desk = 0) ∧ (u8 f 4 ≤ 1) ∧ fld f 5 3 = 0 ∧ (x.function == 0)) ∧
    (∃ (f : CmdFrame), ∃ (s : State), Taken opPortGpoClear f s ∧ ∃ g, gpoPort s (u32 f 0) = .ok g ∧ (f.desk = (s.gpo.getD g
      Gpo.reset).owner ∨ f.desk = 0)) :=
  ⟨⟨(fr (le 4 (portHandle 1055) ++ le 1 1 ++ le 1 255 ++ le 1 1 ++ le 1 0 ++ le 4 (h tStrip 0))), rich,
      taken_of (by decide +kernel), ex_ok (by decide +kernel) (ex_eq (ex_eq (ex_eq (ex_eq ⟨(fun _ => ⟨_, names_of (by decide +kernel), by decide +kernel⟩), (by decide +kernel)⟩))))⟩,
   ⟨(fr (le 4 (portHandle 1087) ++ le 4 2 ++ le 4 (h tStrip 0))), rich, taken_of (by decide +kernel), ex_ok (by decide +kernel) (ex_eq ⟨(fun _
      => ⟨_, names_of (by decide +kernel)⟩), (by decide +kernel)⟩)⟩,
   ⟨(fr (le 4 (portHandle 1056) ++ le 4 1)), rich, taken_of (by decide +kernel), ex_ok (by decide +kernel) (ex_eq (by decide +kernel))⟩,
   ⟨(fr (le 4 (portHandle 1087))), rich, taken_of (by decide +kernel), ex_ok (by decide +kernel) (by decide +kernel)⟩⟩

theorem test_StreamCompletes_hypotheses_met :
    (∃ (f : CmdFrame), ∃ (s : State), Taken opStreamInfo f s ∧ ∃ o, names s (u32 f 0) [tStream] o ∧ ∃ st, o.stream? = some st ∧ True) ∧
    (∃ (f : CmdFrame), ∃ (s : State), Taken opStreamRxCreate f s ∧ streamPorts s f (u32 f 0) (u32 f 4) 0 4 = .ok () ∧ ∃ st, st =
      (streamOf false f) ∧ ∃ d, d = (u8 f 24) ∧ streamRanges st d (s.mult d) = .ok () ∧ ∃ cls, classOf s f 29 = .ok cls ∧ fld f 31 1 = 0
      ∧ classPermitted s f.desk cls 29 = .ok () ∧ ∃ h, ∃ r, ∃ s₁, createStream s f.desk cls d st = .ok (h, r, s₁) ∧ True) ∧
    (∃ (f : CmdFrame), ∃ (s : State), Taken opStreamTxCreate f s ∧ streamPorts s f (u32 f 0) (u32 f 4) 0 4 = .ok () ∧ ∃ st, st =
      (streamOf true f) ∧ ∃ d, d = (u8 f 24) ∧ streamRanges st d (s.mult d) = .ok () ∧ ∃ cls, classOf s f 29 = .ok cls ∧ fld f 31 1 = 0
      ∧ classPermitted s f.desk cls 29 = .ok () ∧ ∃ h, ∃ r, ∃ s₁, createStream s f.desk cls d st = .ok (h, r, s₁) ∧ True) ∧
    (∃ (f : CmdFrame), ∃ (s : State), Taken opStreamDelete f s ∧ ∃ o, freeChecks s f [tStream] = .ok o ∧ True) ∧
    (∃ (f : CmdFrame), ∃ (s : State), Taken opStreamSdpGet f s ∧ ∃ o, names s (u32 f 0) [tStream] o ∧ ∃ st, o.stream? = some st ∧ ∃ b,
      bulkAt s f 4 1 4096 = .ok b ∧ open' o ∧ s.jobsOf f.desk < 32) ∧
    (∃ (f : CmdFrame), ∃ (s : State), Taken opStreamSdpSet f s ∧ streamPorts s f (u32 f 16) (u32 f 20) 16 20 = .ok () ∧ ∃ b, bulkAt s f
      0 0 4096 = .ok b ∧ ∃ y, domainAt f 30 = .ok y ∧ ∃ cls, classOf s f 31 = .ok cls ∧ classPermitted s f.desk cls 31 = .ok () ∧
      s.jobsOf f.desk < 32) :=
  ⟨⟨(fr (le 4 (h tStream 0))), rich, taken_of (by decide +kernel), ex_names (by decide +kernel) (ex_some (by decide +kernel) trivial)⟩,
   ⟨(fr (le 4 (portHandle 768) ++ le 4 0 ++ le 4 0xEF000001 ++ le 4 0 ++ le 4 0 ++ le 2 5004 ++ le 2 0 ++ le 1
      0 ++ le 1 1 ++ le 1 0 ++ le 1 3 ++ le 1 127 ++ le 1 3 ++ le 1 0 ++ le 1 0 ++ le 4 8)), running, taken_of
      (by decide +kernel), ok_unit (by decide +kernel), ex_eq (ex_eq ⟨ok_unit (by decide +kernel), ex_ok (by decide +kernel) ⟨(by decide +kernel), ok_unit (by decide +kernel), ex_okt (by decide +kernel) trivial⟩⟩)⟩,
   ⟨(fr (le 4 (portHandle 768) ++ le 4 0 ++ le 4 0xEF000001 ++ le 4 0 ++ le 4 0 ++ le 2 5004 ++ le 2 0 ++ le 1
      0 ++ le 1 1 ++ le 1 1 ++ le 1 4 ++ le 1 96 ++ le 1 3 ++ le 1 63 ++ le 1 0 ++ le 4 0)), running, taken_of
      (by decide +kernel), ok_unit (by decide +kernel), ex_eq (ex_eq ⟨ok_unit (by decide +kernel), ex_ok (by decide +kernel) ⟨(by decide +kernel), ok_unit (by decide +kernel), ex_okt (by decide +kernel) trivial⟩⟩)⟩,
   ⟨(fr (le 4 (h tStream 0) ++ le 4 0)), rich, taken_of (by decide +kernel), ex_ok (by decide +kernel) trivial⟩,
   ⟨(fr (le 4 (h tStream 0) ++ le 1 2 ++ le 1 1 ++ le 2 0 ++ le 4 4096 ++ le 8 0)), rich, taken_of (by decide +kernel),
      ex_names (by decide +kernel) (ex_some (by decide +kernel) (ex_ok (by decide +kernel) (by decide +kernel)))⟩,
   ⟨(fr (le 1 2 ++ le 3 0 ++ le 4 4096 ++ le 8 0 ++ le 4 (portHandle 768) ++ le 4 0 ++ le 4 8 ++ le 1 0 ++ le
      1 0 ++ le 1 0 ++ le 1 3 ++ le 4 8)), rich, taken_of (by decide +kernel), ok_unit (by decide +kernel), ex_ok (by decide +kernel) (ex_ok (by decide +kernel) (ex_ok (by decide +kernel)
      ⟨ok_unit (by decide +kernel), (by decide +kernel)⟩))⟩⟩

theorem test_SceneCompletes_hypotheses_met :
    (∃ (f : CmdFrame), ∃ (s : State), Taken opSceneInfo f s ∧ ∃ o, names s (u32 f 0) [tScene] o ∧ ∃ x, o.scene? = some x ∧ True) ∧
    (∃ (f : CmdFrame), ∃ (s : State), Taken opSceneDelete f s ∧ ∃ o, names s (u32 f 0) [tScene] o ∧ (f.desk = o.desk ∨ f.desk = 0) ∧
      (!(sceneBusy s o.handle) && !(s.openOn o.handle))) ∧
    (∃ (f : CmdFrame), ∃ (s : State), Taken opSceneSafeSet f s ∧ ∃ o, names s (u32 f 0) [tStrip, tBus, tRoute, tBlock, tGroup, tSvc] o ∧
      (sceneKind o) ∧ (f.desk = o.desk ∨ f.desk = 0) ∧ (u32 f 4 < 128) ∧ open' o) ∧
    (∃ (f : CmdFrame), ∃ (s : State), Taken opSceneNumberSet f s ∧ ∃ o, names s (u32 f 0) [tScene] o ∧ (f.desk = o.desk ∨ f.desk = 0) ∧
      fld f 6 2 = 0 ∧ ∃ n, n = (u16 f 4) ∧ open' o ∧ (n == 0 || !(s.objs.any fun x => x.handle != o.handle && (x.scene?.any fun y =>
      y.number == n)))) ∧
    (∃ (f : CmdFrame), ∃ (s : State), Taken opScenePlanGet f s ∧ fld f 6 2 = 0 ∧ ∃ r, s.recalls.find? fun r => r.id == u32 f 0 = some r
      ∧ ∃ k, k = (max 1 (u16 f 4)) ∧ (r.planned)) ∧
    (∃ (f : CmdFrame), ∃ (s : State), Taken opSceneGo f s ∧ ∃ a, s.arm (u32 f 0) = some a ∧ (a.hold && a.held)) :=
  ⟨⟨(fr (le 4 (h tScene 0))), rich, taken_of (by decide +kernel), ex_names (by decide +kernel) (ex_some (by decide +kernel) trivial)⟩,
   ⟨(fr (le 4 (h tScene 0))), rich, taken_of (by decide +kernel), ex_names (by decide +kernel) (by decide +kernel)⟩,
   ⟨(fr (le 4 (h tGroup 0) ++ le 4 127)), rich, taken_of (by decide +kernel), ex_names (by decide +kernel) (by decide +kernel)⟩,
   ⟨(fr (le 4 (h tScene 0) ++ le 4 0xFFFF)), rich, taken_of (by decide +kernel), ex_names (by decide +kernel) ⟨(by decide +kernel), (by decide +kernel), ex_eq (by decide +kernel)⟩⟩,
   ⟨(fr (le 4 1 ++ le 4 0)), recalling, taken_of (by decide +kernel), (by decide +kernel), ex_some (by decide +kernel) (ex_eq (by decide +kernel))⟩,
   ⟨(fr (le 4 3)), recalling, taken_of (by decide +kernel), ex_some (by decide +kernel) (by decide +kernel)⟩⟩

theorem test_DomainCompletes_hypotheses_met :
    (∃ (f : CmdFrame), ∃ (s : State), Taken opDomainInfo f s ∧ ∃ d, domainAt f 0 = .ok d ∧ fld f 1 3 = 0) ∧
    (∃ (f : CmdFrame), ∃ (s : State), Taken opDomainConfig f s ∧ ∃ d, domainAt f 0 = .ok d ∧ ∃ m, m = (u8 f 1) ∧ (m == 1 || m == 2 || m
      == 4) ∧ fld f 2 2 = 0 ∧ (!(s.objs.any fun o => o.inDom d)) ∧ (((s.dom d).maxMult == 0 && (s.dom d).st == .stopped) || s.mult d ≤
      m)) ∧
    (∃ (f : CmdFrame), ∃ (s : State), Taken opDomainBridgeAlloc f s ∧ ∃ x, domainAt f 0 = .ok x ∧ ∃ y, domainAt f 1 = .ok y ∧ (x != y) ∧
      ∃ n, n = (u8 f 2) ∧ (1 ≤ n && n ≤ 64) ∧ ∃ cls, classOf s f 3 = .ok cls ∧ ∃ t, bridgeType (s.dom x).rate (s.dom y).rate = some t ∧
      classPermitted s f.desk cls 3 = .ok () ∧ allocatable s x 0 = .ok () ∧ allocatable s y 1 = .ok () ∧ ∃ base, base = (n * max
      (s.heldMult x) (s.heldMult y)) ∧ ∃ w, w = (16 * base) ∧ within s f.desk 8 w = .ok () ∧ within s f.desk 4 (n * s.mult y) = .ok () ∧
      (bridgesUsed s + base ≤ 2048) ∧ ∃ ask, ask = { w := w, rd := n * s.mult x, wr := n * s.mult y } ∧ ∃ pk, pk = (place s y ask) ∧ ∃
      plan, plan = (if pk.isNone then consolidate s y ask else none) ∧ ∃ core,
      ((match pk, plan with | some p, _ => .ok p.1 | none, some q => .ok q.1 | none, none => .error { status := eNoResource }) : Except
      Err Nat) = .ok core ∧ ∃ i, (s.tab tBridge).pick 1 1 0 2048 = some i ∧ ∃ s₁, s₁ = ((s.addObj
      { ty := tBridge, idx := i, gen := 1, desk := f.desk, cls := cls, dom := y, freeing := false, job := none, staged := 0, charge := w, safe := 0, epoch := s.epoch, kind := .bridge { from_ := x, to_ := y, channels := n, typ := t.1, firstRing := 0, core := core, start := 8 * (s.ash y + 1), hist := [], joints := [] } }).useCore
      core y) ∧ ∃ h, h = (((s₁.objAt tBridge i).map Obj.handle).getD 0) ∧ ∃ r, ∃ s₂, allocRings s₁ f.desk cls y n 0 h 7 0 = .ok (r, s₂)
      ∧ True) ∧
    (∃ (f : CmdFrame), ∃ (s : State), Taken opDomainBridgeFree f s ∧ ∃ o, freeChecks s f [tBridge] = .ok o ∧ anyFree s o = .ok ()) ∧
    (∃ (f : CmdFrame), ∃ (s : State), Taken opDomainBridgeInfo f s ∧ ∃ o, names s (u32 f 0) [tBridge] o ∧ ∃ b, o.bridge? = some b ∧ ∃ t,
      t = (bridgeDelays s b) ∧ ∃ p, p = (o.prefixBytes s ++ le 1 b.from_ ++ le 1 b.to_ ++ le 1 b.typ ++ le 1 b.channels ++ le 4 t.1 ++
      le 4 t.2.1 ++ le 4 t.2.2) ∧ f.len == 4) ∧
    (∃ (f : CmdFrame), ∃ (s : State), Taken opDomainBridgeInfo f s ∧ ∃ o, names s (u32 f 0) [tBridge] o ∧ ∃ b, o.bridge? = some b ∧ ∃ t,
      t = (bridgeDelays s b) ∧ ∃ p, p = (o.prefixBytes s ++ le 1 b.from_ ++ le 1 b.to_ ++ le 1 b.typ ++ le 1 b.channels ++ le 4 t.1 ++
      le 4 t.2.1 ++ le 4 t.2.2) ∧ ¬ (f.len == 4) ∧ ∃ bulk, bulkAt s f 4 1 0xFFFFFFFF = .ok bulk ∧ s.jobsOf f.desk < 32) :=
  ⟨⟨(fr (le 4 2)), rich, taken_of (by decide +kernel), ex_ok (by decide +kernel) (by decide +kernel)⟩,
   ⟨(fr (le 1 2 ++ le 3 4)), rich, taken_of (by decide +kernel), ex_ok (by decide +kernel) (ex_eq (by decide +kernel))⟩,
   ⟨(fr (le 1 0 ++ le 1 1 ++ le 1 1 ++ le 1 3)), running, taken_of (by decide +kernel), ex_ok (by decide +kernel) (ex_ok (by decide +kernel) ⟨(by decide +kernel), ex_eq ⟨(by decide +kernel),
      ex_ok (by decide +kernel) (ex_some (by decide +kernel) ⟨ok_unit (by decide +kernel), ok_unit (by decide +kernel), ok_unit (by decide +kernel), ex_eq (ex_eq ⟨ok_unit (by decide +kernel), ok_unit (by decide +kernel), (by decide +kernel),
      ex_eq (ex_eq (ex_eq (ex_ok (by decide +kernel) (ex_some (by decide +kernel) (ex_eq (ex_eq (ex_okp (by decide +kernel) trivial)))))))⟩)⟩)⟩⟩)⟩,
   ⟨(fr (le 4 (h tBridge 0) ++ le 4 0)), rich, taken_of (by decide +kernel), ex_ok (by decide +kernel) (ok_unit (by decide +kernel))⟩,
   ⟨(fr (le 4 (h tBridge 0))), rich, taken_of (by decide +kernel), ex_names (by decide +kernel) (ex_some (by decide +kernel) (ex_eq (ex_eq (by decide +kernel))))⟩,
   ⟨(fr (le 4 (h tBridge 0) ++ le 1 2 ++ le 1 1 ++ le 2 0 ++ le 4 4 ++ le 8 0)), rich, taken_of (by decide +kernel), ex_names
      (by decide +kernel) (ex_some (by decide +kernel) (ex_eq (ex_eq ⟨(by decide +kernel), ex_ok (by decide +kernel) (by decide +kernel)⟩)))⟩⟩

end Sys2Proof.Tests
end

