-- ==== Sys2Proof/Tests/Witness2.lean ====
section
/-! SUPPORT. For each statement of the obligations that has hypotheses, states and operands that meet those of each of its
clauses (2 of 3). -/
namespace Sys2Proof.Tests
set_option Elab.async false
open Sys2Proof.Machine

theorem test_TimingCompletes_hypotheses_met :
    (∃ (f : CmdFrame), ∃ (s : State), Taken opTimingInfo f s) ∧
    (∃ (f : CmdFrame), ∃ (s : State), Taken opTimingNow f s) ∧
    (∃ (f : CmdFrame), ∃ (s : State), Taken opTimingRefConfig f s ∧ ∃ c, c = (u8 f 0) ∧ (c ≤ 7) ∧ (u8 f 1 ≤ 1) ∧ (carries c || u32 f 4
      == 0) ∧ (!(carries c) || candPort s c (u32 f 4))) ∧
    (∃ (f : CmdFrame), ∃ (s : State), Taken opTimingPllSet f s ∧ (u8 f 0 ≤ 2) ∧ (u8 f 1 ≤ 3) ∧ fld f 2 2 = 0) ∧
    (∃ (f : CmdFrame), ∃ (s : State), Taken opTimingHoldoverSet f s ∧ ((s32 (u32 f 0)).natAbs ≤ 50000000) ∧ ((s32 (u32 f 4)).natAbs ≤
      1000000) ∧ (100 ≤ u32 f 8 && u32 f 8 ≤ 1000000000)) ∧
    (∃ (f : CmdFrame), ∃ (s : State), Taken opTimingOffsetSet f s ∧ ∃ q, qOf f.payload 0 = some q ∧ (domAFree s) ∧ (!(s.doms.any fun x
      => x.seq.isSome)) ∧ (!((List.range 3).any fun d => (s.dom d).runs && recallIn s d)) ∧ s.jobsOf f.desk < 32) ∧
    (∃ (f : CmdFrame), ∃ (s : State), Taken opTimingSpliceSet f s ∧ ∃ d, domainAt f 0 = .ok d ∧ fld f 1 1 = 0 ∧ (u16 f 2 ≤ 240)) ∧
    (∃ (f : CmdFrame), ∃ (s : State), Taken opTimingStickyClear f s) ∧
    (∃ (f : CmdFrame), ∃ (s : State), Taken opTimingSelect f s ∧ ∃ c, c = (u8 f 0) ∧ (c ≤ 7 || c == 0xFF) ∧ fld f 1 3 = 0) :=
  ⟨⟨(fr ([])), rich, taken_of (by decide +kernel)⟩,
   ⟨(fr ([])), rich, taken_of (by decide +kernel)⟩,
   ⟨(fr (le 1 5 ++ le 1 1 ++ le 2 0xFFFF ++ le 4 0)), rich, taken_of (by decide +kernel), ex_eq (by decide +kernel)⟩,
   ⟨(fr (le 1 2 ++ le 3 3)), rich, taken_of (by decide +kernel), (by decide +kernel)⟩,
   ⟨(fr (le 4 50000000 ++ le 4 1000000 ++ le 4 1000000000)), rich, taken_of (by decide +kernel), (by decide +kernel)⟩,
   ⟨(fr (le 12 0)), { rich with quadModes := List.replicate 8 4 }, taken_of (by decide +kernel), ex_some (by decide +kernel) (by decide +kernel)⟩,
   ⟨(fr (le 2 2 ++ le 2 240)), rich, taken_of (by decide +kernel), ex_ok (by decide +kernel) (by decide +kernel)⟩,
   ⟨(fr (le 4 0xFFFFFFFF)), rich, taken_of (by decide +kernel)⟩,
   ⟨(fr (le 4 0xFF)), rich, taken_of (by decide +kernel), ex_eq (by decide +kernel)⟩⟩

theorem test_MeterCompletes_hypotheses_met :
    (∃ (f : CmdFrame), ∃ (s : State), Taken opMeterInfo f s ∧ ∃ o, names s (u32 f 0) [tMeter] o ∧ ∃ m, o.meter? = some m ∧ True) ∧
    (∃ (f : CmdFrame), ∃ (s : State), Taken opMeterAlloc f s ∧ ∃ loud, loud = (u8 f 0 == 1) ∧ (u8 f 0 ≤ 1) ∧ ∃ d, domainAt f 1 = .ok d ∧
      ∃ cls, classOf s f 2 = .ok cls ∧ (u8 f 3 ≤ 1) ∧ ∃ n, n = (u16 f 4) ∧ (1 ≤ n && n ≤ (if loud then 24 else 1024)) ∧ fld f 6 2 = 0 ∧
      classPermitted s f.desk cls 2 = .ok () ∧ allocatable s d = .ok () ∧ ∃ m, m = (s.mult d) ∧ ∃ w, w = (if loud then chargeOf 2048 m
      else chargeOf (64 * n) m) ∧ within s f.desk 8 w = .ok () ∧ ∃ mine, mine = (s.meters loud) ∧ (mine.length < (if loud then 128 else
      1024)) ∧ (loud || pointsUsed s + n * m ≤ 16384) ∧ ∃ slot, freeRun (mine.map fun p => (p.2.firstSlot, if loud then 1 else
      p.2.points)) (if loud then 1 else n) (if loud then 128 else 16384) = some slot ∧ ∃ i, (s.tab tMeter).pick 1 1 0 (2 ^ 20) = some i
      ∧ ∃ s₁, s₁ = (s.addObj
      { ty := tMeter, idx := i, gen := 1, desk := f.desk, cls := cls, dom := d, freeing := false, job := none, staged := 0, charge := w, safe := 0, epoch := s.epoch, kind := .meter { loud := loud, paired := u8 f 3 == 1, points := n, firstSlot := slot, refresh := 0, taps := [], state := List.replicate n { peak := 0, done := [], doneTick := 0 }, ld := Loud.reset (s.idx d) s.now, cores := [], vals := [], pend := [], ctl := [] } })
      ∧ ∃ h, h = (((s₁.objAt tMeter i).map Obj.handle).getD 0) ∧ ∃ ts, ∃ s₂, seatPoints f h d m (if loud then w else 0) n s₁ [] = .ok
      (ts, s₂) ∧ ∃ u, ∃ ans, s₂.seated f 0x0C01 h d ts (le 4 h ++ le 4 slot) = .ok (u, ans) ∧ True) ∧
    (∃ (f : CmdFrame), ∃ (s : State), Taken opMeterFree f s ∧ ∃ o, freeChecks s f [tMeter] = .ok o ∧ anyFree s o = .ok ()) ∧
    (∃ (f : CmdFrame), ∃ (s : State), Taken opMeterParamSet f s ∧ ∃ o, names s (u32 f 0) [tMeter] o ∧ (f.desk = o.desk ∨ f.desk = 0) ∧
      u16 f 30 == 0xFFFF ∧ ∃ b, bulkAt s f 32 0 32768 = .ok b ∧ (b.len % 8 == 0 && 1 ≤ b.len) ∧ ∃ y, timing3 f = .ok y ∧ ∃ y, launchAt s
      f 4 = .ok y ∧ open' o ∧ s.jobsOf f.desk < 32) ∧
    (∃ (f : CmdFrame), ∃ (s : State), Taken opMeterParamSet f s ∧ ∃ o, names s (u32 f 0) [tMeter] o ∧ (f.desk = o.desk ∨ f.desk = 0) ∧ ¬
      (u16 f 30 == 0xFFFF) ∧ (1 ≤ u16 f 30 && u16 f 30 ≤ 26) ∧ ∃ recs, eachItem (recordAt f) (u16 f 30) 0 = .ok recs ∧ ∃ w, ∃ s',
      meterWrite s f o recs = .ok (w, s') ∧ True) ∧
    (∃ (f : CmdFrame), ∃ (s : State), Taken opMeterLoudCtl f s ∧ ∃ n, n = (u16 f 2) ∧ ∃ os, (eachItem (fun i => atItem i do
      let o ← resolve s [tMeter] (u32 f (20 + 4 * i)) (20 + 4 * i)
      need ((o.meter?.map (·.loud)).getD false) eHandle (20 + 4 * i) o.handle
      owned f o.desk o.handle (20 + 4 * i)
      .ok o) n 0) = .ok os ∧ (u8 f 0 ≤ 2) ∧ fld f 1 1 = 0 ∧ (1 ≤ n && n ≤ 55) ∧ ∃ l, launchAt s f 4 = .ok l ∧ (os.forM fun o => settled o) = .ok () ∧ ∃ ws, (os.mapM fun o => schedule s l o.dom 0 false 4) = .ok ws ∧ (ws.forM fun w => lateCheck f w) = .ok ()) :=
  ⟨⟨(fr (le 4 (h tMeter 0))), rich, taken_of (by decide +kernel), ex_names (by decide +kernel) (ex_some (by decide +kernel) trivial)⟩,
   ⟨(fr (le 1 1 ++ le 1 0 ++ le 1 3 ++ le 1 1 ++ le 4 24)), running, taken_of (by decide +kernel), ex_eq ⟨(by decide +kernel), ex_ok (by decide +kernel) (ex_ok
      (by decide +kernel) ⟨(by decide +kernel), ex_eq ⟨(by decide +kernel), (by decide +kernel), ok_unit (by decide +kernel), ok_unit (by decide +kernel), ex_eq (ex_eq ⟨ok_unit (by decide +kernel), ex_eq ⟨(by decide +kernel), (by decide +kernel), ex_some (by decide +kernel)
      (ex_some (by decide +kernel) (ex_eq (ex_eq (ex_okp (by decide +kernel) (ex_okp (by decide +kernel) trivial)))))⟩⟩)⟩⟩)⟩⟩,
   ⟨(fr (le 4 (h tMeter 0) ++ le 4 0)), rich, taken_of (by decide +kernel), ex_ok (by decide +kernel) (ok_unit (by decide +kernel))⟩,
   ⟨(fr (le 4 (h tMeter 0) ++ le 16 0 ++ le 4 480 ++ le 4 1024 ++ le 2 0 ++ le 2 0xFFFF ++ le 1 2 ++ le 3 0 ++
      le 4 8 ++ le 8 0)), rich, taken_of (by decide +kernel), ex_names (by decide +kernel) ⟨(by decide +kernel), (by decide +kernel), ex_ok (by decide +kernel) ⟨(by decide +kernel), ex_ok (by decide +kernel) (ex_ok (by decide +kernel) (by decide +kernel))⟩⟩⟩,
   ⟨(fr (le 4 (h tMeter 1) ++ le 16 0 ++ le 4 480 ++ le 4 1024 ++ le 2 0 ++ le 2 1 ++ le 4 0x3100 ++ le 4
      0x20000)), rich, taken_of (by decide +kernel), ex_names (by decide +kernel) ⟨(by decide +kernel), (by decide +kernel), (by decide +kernel), ex_ok (by decide +kernel) (ex_okp (by decide +kernel) trivial)⟩⟩,
   ⟨(fr (le 1 2 ++ le 1 0 ++ le 2 1 ++ le 16 0 ++ le 4 (h tMeter 1))), rich, taken_of (by decide +kernel), ex_eq (ex_ok (by decide +kernel) ⟨(by decide +kernel),
      (by decide +kernel), (by decide +kernel), ex_ok (by decide +kernel) ⟨ok_unit (by decide +kernel), ex_ok (by decide +kernel) (ok_unit (by decide +kernel))⟩⟩)⟩⟩

theorem test_SvcCompletes_hypotheses_met :
    (∃ (f : CmdFrame), ∃ (s : State), Taken opSvcInfo f s ∧ ∃ o, names s (u32 f 0) [tSvc] o ∧ ∃ v, o.svc? = some v ∧ True) ∧
    (∃ (f : CmdFrame), ∃ (s : State), Taken opSvcAlloc f s ∧ ∃ kind, kind = (u8 f 0) ∧ (1 ≤ kind && kind ≤ 5) ∧ ∃ d, domainAt f 1 = .ok
      d ∧ ∃ cls, classOf s f 2 = .ok cls ∧ (u8 f 3 == 0 || (kind == 3 && u8 f 3 == 1)) ∧ ∃ n, n = (u16 f 4) ∧ (svcSizeOk kind n) ∧ fld f
      6 2 = 0 ∧ classPermitted s f.desk cls 2 = .ok () ∧ allocatable s d = .ok () ∧ ∃ m, m = (s.mult d) ∧ ∃ w, w = (chargeOf (svcCycles
      kind n) m) ∧ ∃ outs, outs = (Svc.outputs kind (u8 f 3) n) ∧ within s f.desk 8 w = .ok () ∧ within s f.desk 4 (outs * m) = .ok () ∧
      ∃ mine, mine = (s.svcs kind) ∧ (mine.length < svcLimit kind) ∧ ∃ ifb, ifb = (if kind == 3 then (freeRun (mine.map fun p =>
      (p.2.ifb, 1)) 1 512).getD 0 else 0xFFFF) ∧ ∃ ins, ins = (match kind with | 1 => n | 2 => n | 3 => 5 | 5 => 2 | _ => 0) ∧ ∃ t, seat
      s f d { w := w, rd := ins * m, wr := outs * m } = .ok t ∧ ∃ i, (s.tab tSvc).pick 1 1 0 (2 ^ 20) = some i ∧ ∃ (v : Svc), v =
      { kind := kind, mode := u8 f 3, size := n, firstRing := 0, ifb := ifb, core := t.core, vals := [], pend := [], twins := [], live := [], keys := List.replicate 4 false, keyRamps := List.replicate 4 (GainRec.rest 0#32), dim := PVal.rest 0x3601 0 .db, est := [], gOld := [], gNew := [], solos := [], switch := none, active := false }
      ∧ ∃ s₁, s₁ = ((s.addObj
      { ty := tSvc, idx := i, gen := 1, desk := f.desk, cls := cls, dom := d, freeing := false, job := none, staged := 0, charge := w, safe := 0, epoch := s.epoch, kind := .svc v.startMix }).useCore
      t.core d) ∧ ∃ h, h = (((s₁.objAt tSvc i).map Obj.handle).getD 0) ∧ ∃ r, ∃ s₂, allocRings s₁ f.desk cls d outs 0 h 8 0 = .ok (r,
      s₂) ∧ ∃ s₃, s₃ = (s₂.upd h fun x => x.onSvc fun v => { v with firstRing := r }) ∧ ∃ u, ∃ ans, s₃.seated f 0x0D01 h d [t] (le 4 h
      ++ le 4 (s₃.ringHandle r) ++ le 2 ifb ++ le 2 0) = .ok (u, ans) ∧ True) ∧
    (∃ (f : CmdFrame), ∃ (s : State), Taken opSvcFree f s ∧ ∃ o, freeChecks s f [tSvc] = .ok o ∧ anyFree s o = .ok ()) ∧
    (∃ (f : CmdFrame), ∃ (s : State), Taken opSvcParamSet f s ∧ ∃ o, names s (u32 f 0) [tSvc] o ∧ (f.desk = o.desk ∨ f.desk = 0) ∧ u16 f
      30 == 0xFFFF ∧ ∃ b, bulkAt s f 32 0 32768 = .ok b ∧ (b.len % 8 == 0 && 1 ≤ b.len) ∧ ∃ y, timing3 f = .ok y ∧ ∃ y, launchAt s f 4 =
      .ok y ∧ open' o ∧ s.jobsOf f.desk < 32) ∧
    (∃ (f : CmdFrame), ∃ (s : State), Taken opSvcParamSet f s ∧ ∃ o, names s (u32 f 0) [tSvc] o ∧ (f.desk = o.desk ∨ f.desk = 0) ∧ ¬
      (u16 f 30 == 0xFFFF) ∧ (1 ≤ u16 f 30 && u16 f 30 ≤ 26) ∧ ∃ recs, eachItem (recordAt f) (u16 f 30) 0 = .ok recs ∧ ∃ w, ∃ s',
      svcWrite s f o recs = .ok (w, s') ∧ True) ∧
    (∃ (f : CmdFrame), ∃ (s : State), Taken opSvcParamGet f s ∧ ∃ o, names s (u32 f 0) [tSvc] o ∧ (1 ≤ u16 f 4 && u16 f 4 ≤ 19) ∧ fld f 6 2 = 0 ∧ ∃ ids, (eachItem (fun i => do
      let id := u16 f (8 + 2 * i)
      if (svcSpec s o id).isNone then .error { status := eRange, field := 8 + 2 * i, item := i, handle := o.handle } else .ok id)
      (u16 f 4) 0) = .ok ids ∧ True) ∧
    (∃ (f : CmdFrame), ∃ (s : State), Taken opSvcTalk f s ∧ ∃ ps, talkTargets s f = .ok ps ∧ (u8 f 0 ≤ 3) ∧ (u8 f 1 ≤ 1) ∧ fld f 2 2 = 0
      ∧ (!ps.isEmpty) ∧ ∃ l, launchAt s f 4 = .ok l ∧ (ps.forM fun p => settled p.1 20) = .ok () ∧ ∃ ws, (ps.mapM fun p => schedule s l
      p.1.dom 0 false 4) = .ok ws ∧ (ws.forM fun w => lateCheck f w) = .ok ()) ∧
    (∃ (f : CmdFrame), ∃ (s : State), Taken opSvcSoloSet f s ∧ ∃ o, names s (u32 f 0) [tSvc] o ∧ ∃ n, n = (u16 f 6) ∧ ∃ xs, eachItem (fun i => atItem i (resolve s [tStrip, tBus] (u32 f (24 + 8 * i)) (24 + 8 * i))) n 0 = .ok xs ∧ (f.desk = o.desk ∨ f.desk = 0) ∧ ∃ v, o.svc? = some v ∧ (v.kind == 5) ∧ (u8 f 4 ≤ 1) ∧ fld f 5 1 = 0 ∧ (n ≤ 26) ∧ ∃ srcs, (eachItem (fun i => atItem i do
      let b := 24 + 8 * i
      let x := xs[i]?
      need (u8 f (b + 4) < ((x.bind Obj.chan?).map (·.width)).getD 0) eRange (b + 4)
      need (u8 f (b + 5) ≤ 1) eRange (b + 5)
      need (u8 f (b + 6) ≤ 1) eRange (b + 6)
      reserved f (b + 7) 1
      .ok (u32 f b, u8 f (b + 4), u8 f (b + 5), u8 f (b + 6) == 1)) n 0) = .ok srcs ∧ ∃ l, launchAt s f 8 = .ok l ∧ open' o ∧ (xs.all fun x => x.dom == o.dom && !x.freeing) ∧ ∃ w, schedule s l o.dom 0 false 8 = .ok w ∧ ∃ k, ∃ s₁, (s.stamp) = (k, s₁) ∧ ∃ s₂, s₂ = (s₁.liveChange o w { order := k, s := 0, input := 0, press := false, exclusive := bit (u8 f 4) 0, sources := srcs }) ∧ ∃ after, after = (((s₂.obj o.handle).bind Obj.svc?).elim [] Svc.acceptedSolos) ∧ (after.length ≤ 256) ∧ (srcs.all fun x => !x.2.2.2 || s₂.tapsOn x.1 x.2.1 ≤ 8) ∧ lateCheck f w = .ok ()) :=
  ⟨⟨(fr (le 4 (h tSvc 0))), rich, taken_of (by decide +kernel), ex_names (by decide +kernel) (ex_some (by decide +kernel) trivial)⟩,
   ⟨(fr (le 1 5 ++ le 1 0 ++ le 1 3 ++ le 1 0 ++ le 4 1)), running, taken_of (by decide +kernel), ex_eq ⟨(by decide +kernel), ex_ok (by decide +kernel) (ex_ok (by decide +kernel)
      ⟨(by decide +kernel), ex_eq ⟨(by decide +kernel), (by decide +kernel), ok_unit (by decide +kernel), ok_unit (by decide +kernel), ex_eq (ex_eq (ex_eq ⟨ok_unit (by decide +kernel), ok_unit (by decide +kernel), ex_eq ⟨(by decide +kernel),
      ex_eq (ex_eq (ex_ok (by decide +kernel) (ex_some (by decide +kernel) (ex_eq (ex_eq (ex_eq (ex_okp (by decide +kernel) (ex_eq (ex_okp (by decide +kernel)
      trivial)))))))))⟩⟩))⟩⟩)⟩⟩,
   ⟨(fr (le 4 (h tSvc 0) ++ le 4 0)), rich, taken_of (by decide +kernel), ex_ok (by decide +kernel) (ok_unit (by decide +kernel))⟩,
   ⟨(fr (le 4 (h tSvc 0) ++ le 16 0 ++ le 4 480 ++ le 4 1024 ++ le 2 0 ++ le 2 0xFFFF ++ le 1 2 ++ le 3 0 ++
      le 4 8 ++ le 8 0)), rich, taken_of (by decide +kernel), ex_names (by decide +kernel) ⟨(by decide +kernel), (by decide +kernel), ex_ok (by decide +kernel) ⟨(by decide +kernel), ex_ok (by decide +kernel) (ex_ok (by decide +kernel) (by decide +kernel))⟩⟩⟩,
   ⟨(fr (le 4 (h tSvc 0) ++ le 16 0 ++ le 4 480 ++ le 4 1024 ++ le 2 0 ++ le 2 1 ++ le 4 0x3801 ++ le 4 0)),
      rich, taken_of (by decide +kernel), ex_names (by decide +kernel) ⟨(by decide +kernel), (by decide +kernel), (by decide +kernel), ex_ok (by decide +kernel) (ex_okp (by decide +kernel) trivial)⟩⟩,
   ⟨(fr (le 4 (h tSvc 0) ++ le 4 1 ++ le 2 0x3801)), rich, taken_of (by decide +kernel), ex_names (by decide +kernel) ⟨(by decide +kernel), (by decide +kernel), ex_ok (by decide +kernel)
      trivial⟩⟩,
   ⟨(fr (le 1 3 ++ le 3 1 ++ le 16 0 ++ le 64 1)), rich, taken_of (by decide +kernel), ex_ok (by decide +kernel) ⟨(by decide +kernel), (by decide +kernel), (by decide +kernel), (by decide +kernel), ex_ok (by decide +kernel)
      ⟨ok_unit (by decide +kernel), ex_ok (by decide +kernel) (ok_unit (by decide +kernel))⟩⟩⟩,
   ⟨(fr (le 4 (h tSvc 0) ++ le 2 1 ++ le 2 1 ++ le 16 0 ++ le 4 (h tStrip 0) ++ le 2 0 ++ le 2 1)), rich,
      taken_of (by decide +kernel), ex_names (by decide +kernel) (ex_eq (ex_ok (by decide +kernel) ⟨(by decide +kernel), ex_some (by decide +kernel) ⟨(by decide +kernel), (by decide +kernel), (by decide +kernel), (by decide +kernel), ex_ok (by decide +kernel) (ex_ok (by decide +kernel) ⟨(by decide +kernel), (by decide +kernel),
      ex_ok (by decide +kernel) (ex_pair (ex_eq (ex_eq ⟨(by decide +kernel), (by decide +kernel), ok_unit (by decide +kernel)⟩)))⟩)⟩⟩))⟩⟩

theorem test_CaptureCompletes_hypotheses_met :
    (∃ (f : CmdFrame), ∃ (s : State), Taken opCaptureInfo f s ∧ ∃ o, names s (u32 f 0) [tCapture] o ∧ ∃ c, o.capture? = some c ∧ True) ∧
    (∃ (f : CmdFrame), ∃ (s : State), Taken opCaptureAlloc f s ∧ ∃ d, domainAt f 0 = .ok d ∧ ∃ cls, classOf s f 1 = .ok cls ∧ ∃ n, n =
      (u16 f 2) ∧ ∃ length, length = (u32 f 4) ∧ (1 ≤ n && n ≤ 256) ∧ (1 ≤ length && length ≤ 120 * s.fs d) ∧ classPermitted s f.desk
      cls 1 = .ok () ∧ allocatable s d = .ok () ∧ ∃ m, m = (s.mult d) ∧ ∃ w, w = (chargeOf (192 * n) m) ∧ within s f.desk 8 w = .ok () ∧
      within s f.desk 4 (n * m) = .ok () ∧ ((s.ofType tCapture).length < 8) ∧ (captureChannels s + n * m ≤ 256) ∧ (captureUsed s + n *
      length ≤ 1610612736) ∧ ∃ t, seatNow s d { w := w, rd := n * m, wr := n * m } = .ok t ∧ ∃ i, (s.tab tCapture).pick 1 1 0 (2 ^ 20) =
      some i ∧ ∃ s₁, s₁ = ((s.addObj
      { ty := tCapture, idx := i, gen := 1, desk := f.desk, cls := cls, dom := d, freeing := false, job := none, staged := 0, charge := w, safe := 0, epoch := s.epoch, kind := .capture { channels := n, length := length, st := .rolling, firstIndex := 8 * s.ash d, f := 0, post := 0, tPlay := 480, firstRing := 0, core := t.core, record := [], play := none, release := none, vals := [], pend := [] } }).useCore
      t.core d) ∧ ∃ h, h = (((s₁.objAt tCapture i).map Obj.handle).getD 0) ∧ ∃ r, ∃ s₂, allocRings s₁ f.desk cls d n 0 h 8 0 = .ok (r,
      s₂) ∧ ∃ s₃, s₃ = (s₂.upd h fun x => x.onCapture fun c => { c with firstRing := r }) ∧ ∃ u, ∃ ans, s₃.seated f 0x1201 h d [t] (le 4
      h ++ le 4 (s₃.ringHandle r)) = .ok (u, ans) ∧ True) ∧
    (∃ (f : CmdFrame), ∃ (s : State), Taken opCaptureFree f s ∧ ∃ o, freeChecks s f [tCapture] = .ok o ∧ anyFree s o = .ok ()) ∧
    (∃ (f : CmdFrame), ∃ (s : State), Taken opCaptureFreeze f s ∧ ∃ o, names s (u32 f 0) [tCapture] o ∧ (f.desk = o.desk ∨ f.desk = 0) ∧
      ∃ l, launchAt s f 4 = .ok l ∧ open' o ∧ inCapState o [.rolling] = .ok () ∧ ∃ w, schedule s l o.dom 0 false 4 = .ok w ∧ lateCheck f
      w = .ok ()) ∧
    (∃ (f : CmdFrame), ∃ (s : State), Taken opCapturePlay f s ∧ ∃ o, names s (u32 f 0) [tCapture] o ∧ (f.desk = o.desk ∨ f.desk = 0) ∧ ∃
      c, o.capture? = some c ∧ ∃ start, start = (u32 f 4) ∧ ∃ n, n = (u32 f 8) ∧ (start + n ≤ c.length) ∧ ∃ l, launchAt s f 12 = .ok l ∧
      ∃ w, schedule s l o.dom 0 false 12 = .ok w ∧ ∃ i, i = (w.indexIn s o.dom) ∧ ∃ t, t = (valAt o.params 0x3902 480 i) ∧ (2 * t ≤ n) ∧
      open' o ∧ inCapState o [.frozen] = .ok () ∧ lateCheck f w = .ok ()) ∧
    (∃ (f : CmdFrame), ∃ (s : State), Taken opCaptureStop f s ∧ ∃ o, names s (u32 f 0) [tCapture] o ∧ (f.desk = o.desk ∨ f.desk = 0) ∧ ∃
      l, launchAt s f 4 = .ok l ∧ open' o ∧ inCapState o [.playing] = .ok () ∧ ∃ w, schedule s l o.dom 0 false 4 = .ok w ∧ lateCheck f w
      = .ok ()) ∧
    (∃ (f : CmdFrame), ∃ (s : State), Taken opCaptureRelease f s ∧ ∃ o, names s (u32 f 0) [tCapture] o ∧ (f.desk = o.desk ∨ f.desk = 0)
      ∧ open' o ∧ inCapState o [.frozen] = .ok ()) ∧
    (∃ (f : CmdFrame), ∃ (s : State), Taken opCaptureRead f s ∧ ∃ o, names s (u32 f 0) [tCapture] o ∧ (f.desk = o.desk ∨ f.desk = 0) ∧ ∃
      c, o.capture? = some c ∧ ∃ n, n = (u16 f 6) ∧ (u16 f 4 < c.channels) ∧ (1 ≤ n && u16 f 4 + n ≤ c.channels) ∧ (u32 f 8 + u32 f 12 ≤
      c.length) ∧ ∃ b, bulkAt s f 16 1 0xFFFFFFFF = .ok b ∧ (b.len == 4 * n * u32 f 12) ∧ open' o ∧ inCapState o [.frozen, .playing] =
      .ok () ∧ s.jobsOf f.desk < 32) ∧
    (∃ (f : CmdFrame), ∃ (s : State), Taken opCaptureParamSet f s ∧ ∃ o, names s (u32 f 0) [tCapture] o ∧ (f.desk = o.desk ∨ f.desk = 0)
      ∧ u16 f 30 == 0xFFFF ∧ ∃ b, bulkAt s f 32 0 32768 = .ok b ∧ (b.len % 8 == 0 && 1 ≤ b.len) ∧ ∃ y, timing3 f = .ok y ∧ ∃ y, launchAt
      s f 4 = .ok y ∧ open' o ∧ s.jobsOf f.desk < 32) ∧
    (∃ (f : CmdFrame), ∃ (s : State), Taken opCaptureParamSet f s ∧ ∃ o, names s (u32 f 0) [tCapture] o ∧ (f.desk = o.desk ∨ f.desk = 0)
      ∧ ¬ (u16 f 30 == 0xFFFF) ∧ (1 ≤ u16 f 30 && u16 f 30 ≤ 26) ∧ ∃ recs, eachItem (recordAt f) (u16 f 30) 0 = .ok recs ∧ ∃ w, ∃ s',
      captureWrite s f o recs = .ok (w, s') ∧ True) :=
  ⟨⟨(fr (le 4 (h tCapture 0))), rich, taken_of (by decide +kernel), ex_names (by decide +kernel) (ex_some (by decide +kernel) trivial)⟩,
   ⟨(fr (le 1 0 ++ le 1 3 ++ le 2 1 ++ le 4 5760000)), running, taken_of (by decide +kernel), ex_ok (by decide +kernel) (ex_ok (by decide +kernel) (ex_eq (ex_eq
      ⟨(by decide +kernel), (by decide +kernel), ok_unit (by decide +kernel), ok_unit (by decide +kernel), ex_eq (ex_eq ⟨ok_unit (by decide +kernel), ok_unit (by decide +kernel), (by decide +kernel), (by decide +kernel), (by decide +kernel), ex_ok (by decide +kernel) (ex_some (by decide +kernel)
      (ex_eq (ex_eq (ex_okp (by decide +kernel) (ex_eq (ex_okp (by decide +kernel) trivial))))))⟩)⟩)))⟩,
   ⟨(fr (le 4 (h tCapture 0) ++ le 4 0)), rich, taken_of (by decide +kernel), ex_ok (by decide +kernel) (ok_unit (by decide +kernel))⟩,
   ⟨(fr (le 4 (h tCapture 0) ++ le 16 0)), rich, taken_of (by decide +kernel), ex_names (by decide +kernel) ⟨(by decide +kernel), ex_ok (by decide +kernel) ⟨(by decide +kernel), ok_unit (by decide +kernel), ex_ok
      (by decide +kernel) (ok_unit (by decide +kernel))⟩⟩⟩,
   ⟨(fr (le 4 (h tCapture 0) ++ le 4 0 ++ le 4 4800 ++ le 16 0)), (richWith (h tCapture 0) fun o =>
      o.onCapture fun c => { c with st := .frozen }), taken_of (by decide +kernel), ex_names (by decide +kernel) ⟨(by decide +kernel), ex_some (by decide +kernel) (ex_eq (ex_eq
      ⟨(by decide +kernel), ex_ok (by decide +kernel) (ex_ok (by decide +kernel) (ex_eq (ex_eq ⟨(by decide +kernel), (by decide +kernel), ok_unit (by decide +kernel), ok_unit (by decide +kernel)⟩)))⟩))⟩⟩,
   ⟨(fr (le 4 (h tCapture 0) ++ le 16 0)), (richWith (h tCapture 0) fun o => o.onCapture fun c =>
      { c with st := .playing, play := some ⟨0, 0, 4800, none⟩ }), taken_of (by decide +kernel), ex_names (by decide +kernel) ⟨(by decide +kernel), ex_ok (by decide +kernel) ⟨(by decide +kernel),
      ok_unit (by decide +kernel), ex_ok (by decide +kernel) (ok_unit (by decide +kernel))⟩⟩⟩,
   ⟨(fr (le 4 (h tCapture 0))), (richWith (h tCapture 0) fun o => o.onCapture fun c =>
      { c with st := .frozen }), taken_of (by decide +kernel), ex_names (by decide +kernel) ⟨(by decide +kernel), (by decide +kernel), ok_unit (by decide +kernel)⟩⟩,
   ⟨(fr (le 4 (h tCapture 0) ++ le 2 0 ++ le 2 1 ++ le 4 0 ++ le 4 4800 ++ le 1 2 ++ le 1 1 ++ le 2 0 ++ le 4
      19200 ++ le 8 0)), (richWith (h tCapture 0) fun o => o.onCapture fun c => { c with st := .frozen }),
      taken_of (by decide +kernel), ex_names (by decide +kernel) ⟨(by decide +kernel), ex_some (by decide +kernel) (ex_eq ⟨(by decide +kernel), (by decide +kernel), (by decide +kernel), ex_ok (by decide +kernel) ⟨(by decide +kernel), (by decide +kernel), ok_unit (by decide +kernel), (by decide +kernel)⟩⟩)⟩⟩,
   ⟨(fr (le 4 (h tCapture 0) ++ le 16 0 ++ le 4 480 ++ le 4 1024 ++ le 2 0 ++ le 2 0xFFFF ++ le 1 2 ++ le 3 0
      ++ le 4 8 ++ le 8 0)), rich, taken_of (by decide +kernel), ex_names (by decide +kernel) ⟨(by decide +kernel), (by decide +kernel), ex_ok (by decide +kernel) ⟨(by decide +kernel), ex_ok (by decide +kernel) (ex_ok (by decide +kernel) (by decide +kernel))⟩⟩⟩,
   ⟨(fr (le 4 (h tCapture 0) ++ le 16 0 ++ le 4 480 ++ le 4 1024 ++ le 2 0 ++ le 2 1 ++ le 4 0x3902 ++ le 4
      96000)), rich, taken_of (by decide +kernel), ex_names (by decide +kernel) ⟨(by decide +kernel), (by decide +kernel), (by decide +kernel), ex_ok (by decide +kernel) (ex_okp (by decide +kernel) trivial)⟩⟩⟩

theorem test_RedFaultCompletes_hypotheses_met :
    (∃ (f : CmdFrame), ∃ (s : State), Taken opRedInfo f s) ∧
    (∃ (f : CmdFrame), ∃ (s : State), Taken opRedConfig f s ∧ ∃ mode, mode = (u8 f 0) ∧ ∃ p0, p0 = (u16 f 4) ∧ ∃ p1, p1 = (u16 f 6) ∧
      (mode ≤ 2) ∧ (mode == 0 || u8 f 1 != 0) ∧ fld f 2 2 = 0 ∧ (mode == 2 || p1 == 0) ∧ mode == 0 ∧ (!(s.red.ownOut && s.red.peers.any
      Peer.awaited)) ∧ s.jobsOf f.desk < 32) ∧
    (∃ (f : CmdFrame), ∃ (s : State), Taken opRedConfig f s ∧ ∃ mode, mode = (u8 f 0) ∧ ∃ p0, p0 = (u16 f 4) ∧ ∃ p1, p1 = (u16 f 6) ∧
      (mode ≤ 2) ∧ (mode == 0 || u8 f 1 != 0) ∧ fld f 2 2 = 0 ∧ (mode == 2 || p1 == 0) ∧ ¬ (mode == 0) ∧ (mayJoin s p0 p1) ∧ s.jobsOf
      f.desk < 32) ∧
    (∃ (f : CmdFrame), ∃ (s : State), Taken opRedRejoin f s ∧ (s.red.role == .stale) ∧ s.jobsOf f.desk < 32) ∧
    (∃ (f : CmdFrame), ∃ (s : State), Taken opFaultLogGet f s ∧ fld f 4 4 = 0) ∧
    (∃ (f : CmdFrame), ∃ (s : State), Taken opFaultClear f s) ∧
    (∃ (f : CmdFrame), ∃ (s : State), Taken opSpareInfo f s) ∧
    (∃ (f : CmdFrame), ∃ (s : State), Taken opSpareTest f s ∧ ∃ kind, kind = (u8 f 0) ∧ ∃ unit, unit = (u16 f 2) ∧ (kind == 2 || kind ==
      3) ∧ fld f 1 1 = 0 ∧ (unit < (if kind == 2 then 18 else 68)) ∧ ((placeOf s kind unit).isSome) ∧ (!(s.faults.tests.any fun t => t.1
      == kind)) ∧ (!(s.faults.work.any fun w => w.kind == kind)) ∧ s.jobsOf f.desk < 32 ∧ ∃ spare, ∃ more, spares s kind = spare :: more
      ∧ True) :=
  ⟨⟨(fr ([])), rich, taken_of (by decide +kernel)⟩,
   ⟨(fr (le 8 0)), rich, taken_of (by decide +kernel), ex_eq (ex_eq (ex_eq (by decide +kernel)))⟩,
   ⟨(fr (le 2 0x0101 ++ le 2 0 ++ le 2 2 ++ le 2 0)),
      { rich with engineId := 1, lanes := (List.replicate 32 Lane.reset) }, taken_of (by decide +kernel), ex_eq (ex_eq (ex_eq
      (by decide +kernel)))⟩,
   ⟨(fr ([])), (member .stale), taken_of (by decide +kernel), (by decide +kernel)⟩,
   ⟨(fr (le 8 0)), rich, taken_of (by decide +kernel), (by decide +kernel)⟩,
   ⟨(fr ([])), rich, taken_of (by decide +kernel)⟩,
   ⟨(fr ([])), rich, taken_of (by decide +kernel)⟩,
   ⟨(fr (le 2 3 ++ le 2 63)), rich, taken_of (by decide +kernel), ex_eq (ex_eq ⟨(by decide +kernel), (by decide +kernel), (by decide +kernel), (by decide +kernel), (by decide +kernel), (by decide +kernel), (by decide +kernel), ex_cons (by decide +kernel)
      trivial⟩)⟩⟩

theorem test_PackageCompletes_hypotheses_met :
    (∃ (f : CmdFrame), ∃ (s : State), Taken opBlockInfo f s ∧ (u8 f 0 ≤ 1) ∧ fld f 1 3 = 0 ∧ u8 f 0 == 0 ∧ fld f 4 4 = 0) ∧
    (∃ (f : CmdFrame), ∃ (s : State), Taken opBlockInfo f s ∧ (u8 f 0 ≤ 1) ∧ fld f 1 3 = 0 ∧ ¬ (u8 f 0 == 0) ∧ ∃ o, ∃ b, resolveBlock s
      (u32 f 4) 4 = .ok (o, b) ∧ True) ∧
    (∃ (f : CmdFrame), ∃ (s : State), Taken opBlockCeilingSet f s ∧ (40 ≤ u32 f 0 && u32 f 0 ≤ 160) ∧ (s.red.mode == 0 || u32 f 0 ≤ 80))
      ∧
    (∃ (f : CmdFrame), ∃ (s : State), Taken opBlockPkgLoad f s ∧ ∃ b, bulkAt s f 0 0 16777216 = .ok b ∧ s.jobsOf f.desk < 32) ∧
    (∃ (f : CmdFrame), ∃ (s : State), Taken opBlockPkgUnload f s ∧ ∃ id, id = (u32 f 0) ∧ (s.packages.any fun p => p.id == id) ∧
      (!(s.objs.any fun o => o.block?.any fun b => b.package == id))) ∧
    (∃ (f : CmdFrame), ∃ (s : State), Taken opBlockPkgList f s ∧ fld f 2 2 = 0) ∧
    (∃ (f : CmdFrame), ∃ (s : State), Taken opBlockKeyslotProgram f s ∧ ∃ k, keySlotAt f = .ok k ∧ (u8 f 4 == 4) ∧ fld f 101 3 = 0 ∧
      ((s.keySlots[k - 1]?).all fun x => x.key.isEmpty)) ∧
    (∃ (f : CmdFrame), ∃ (s : State), Taken opBlockKeyslotRevoke f s ∧ ∃ k, keySlotAt f = .ok k ∧ True) :=
  ⟨⟨(fr (le 8 0)), rich, taken_of (by decide +kernel), (by decide +kernel)⟩,
   ⟨(fr (le 4 1 ++ le 4 (h tBlock 0))), rich, taken_of (by decide +kernel), (by decide +kernel), (by decide +kernel), (by decide +kernel), ex_okp (by decide +kernel) trivial⟩,
   ⟨(fr (le 4 160)), rich, taken_of (by decide +kernel), (by decide +kernel)⟩,
   ⟨(fr (le 1 2 ++ le 3 0 ++ le 4 16777216 ++ le 8 0)), rich, taken_of (by decide +kernel), ex_ok (by decide +kernel) (by decide +kernel)⟩,
   ⟨(fr (le 4 9)), { running with packages := [aPackage] }, taken_of (by decide +kernel), ex_eq (by decide +kernel)⟩,
   ⟨(fr (le 4 0)), rich, taken_of (by decide +kernel), (by decide +kernel)⟩,
   ⟨(fr (le 4 4 ++ le 97 4 ++ le 3 0)), rich, taken_of (by decide +kernel), ex_ok (by decide +kernel) (by decide +kernel)⟩,
   ⟨(fr (le 4 4)), rich, taken_of (by decide +kernel), ex_ok (by decide +kernel) trivial⟩⟩

theorem test_BlockCompletes_hypotheses_met :
    (∃ (f : CmdFrame), ∃ (s : State), Taken opBlockCreate f s ∧ ∃ h, h = (u32 f 8) ∧ ∃ t, s.pkgType (u32 f 0) (u16 f 4) = some t ∧ ∃
      sound, sound = (!(s.faults.damaged.contains (u32 f 0))) ∧ h == 0 ∧ ∃ cls, classOf s f 7 = .ok cls ∧ (u8 f 6 == 0) ∧ sound = true ∧
      (bit t.flags 4 && t.cycles.getD (multIdx (s.mult 0)) 0 != 0) ∧ (s.red.mode == 0 || !(bit t.flags 0 || t.stateBytes > 65536)) ∧
      classPermitted s f.desk cls 7 = .ok () ∧ allocatable s 0 = .ok () ∧ ∃ u, ∃ ans, createAlone s f t cls = .ok (u, ans) ∧ True) ∧
    (∃ (f : CmdFrame), ∃ (s : State), Taken opBlockCreate f s ∧ ∃ h, h = (u32 f 8) ∧ ∃ t, s.pkgType (u32 f 0) (u16 f 4) = some t ∧ ∃
      sound, sound = (!(s.faults.damaged.contains (u32 f 0))) ∧ ¬ (h == 0) ∧ ∃ o, names s h [tStrip, tBus] o ∧ (f.desk = o.desk ∨ f.desk
      = 0) ∧ ∃ cls, classOf s f 7 = .ok cls ∧ (u8 f 6 ≤ 3) ∧ open' o ∧ sound = true ∧ (bit t.flags (if o.ty == tStrip then 1 else 2) &&
      t.cycles.getD (multIdx (s.mult o.dom)) 0 != 0) ∧ (s.red.mode == 0 || !(bit t.flags 0 || t.stateBytes > 65536)) ∧ classPermitted s
      o.desk cls 7 = .ok () ∧ allocatable s o.dom = .ok () ∧ ∃ c, o.chan? = some c ∧ ∃ u, ∃ ans, createHosted s f o c t cls = .ok (u,
      ans) ∧ True) ∧
    (∃ (f : CmdFrame), ∃ (s : State), Taken opBlockFree f s ∧ ∃ o, freeChecks s f [tBlock] = .ok o ∧ pkgBlockOnly s o = .ok ()) ∧
    (∃ (f : CmdFrame), ∃ (s : State), Taken opBlockParamSet f s ∧ ∃ o, names s (u32 f 0) [tBlock] o ∧ (f.desk = o.desk ∨ f.desk = 0) ∧
      u16 f 30 == 0xFFFF ∧ ∃ b, bulkAt s f 32 0 32768 = .ok b ∧ (b.len % 8 == 0 && 1 ≤ b.len) ∧ ∃ y, timing3 f = .ok y ∧ ∃ y, launchAt s
      f 4 = .ok y ∧ open' o ∧ s.jobsOf f.desk < 32) ∧
    (∃ (f : CmdFrame), ∃ (s : State), Taken opBlockParamSet f s ∧ ∃ o, names s (u32 f 0) [tBlock] o ∧ (f.desk = o.desk ∨ f.desk = 0) ∧ ¬
      (u16 f 30 == 0xFFFF) ∧ (1 ≤ u16 f 30 && u16 f 30 ≤ 26) ∧ ∃ recs, eachItem (recordAt f) (u16 f 30) 0 = .ok recs ∧ ∃ w, ∃ s',
      blockWrite s f o recs = .ok (w, s') ∧ True) ∧
    (∃ (f : CmdFrame), ∃ (s : State), Taken opBlockParamGet f s ∧ ∃ o, names s (u32 f 0) [tBlock] o ∧ (1 ≤ u16 f 4 && u16 f 4 ≤ 19) ∧ fld f 6 2 = 0 ∧ ∃ ids, (eachItem (fun i => do
      let id := u16 f (8 + 2 * i)
      if (blockSpec s o id).isNone then .error { status := eRange, field := 8 + 2 * i, item := i, handle := o.handle } else .ok id)
      (u16 f 4) 0) = .ok ids ∧ True) :=
  ⟨⟨(fr (le 4 9 ++ le 2 1 ++ le 1 0 ++ le 1 3 ++ le 4 0)), { running with packages := [aPackage] }, taken_of
      (by decide +kernel), ex_eq (ex_some (by decide +kernel) (ex_eq ⟨(by decide +kernel), ex_ok (by decide +kernel) ⟨(by decide +kernel), (by decide +kernel), (by decide +kernel), (by decide +kernel), ok_unit (by decide +kernel), ok_unit (by decide +kernel), ex_okp (by decide +kernel)
      trivial⟩⟩))⟩,
   ⟨(fr (le 4 9 ++ le 2 1 ++ le 1 0 ++ le 1 3 ++ le 4 (h tStrip 0))), rich, taken_of (by decide +kernel), ex_eq (ex_some (by decide +kernel)
      (ex_eq ⟨(by decide +kernel), ex_names (by decide +kernel) ⟨(by decide +kernel), ex_ok (by decide +kernel) ⟨(by decide +kernel), (by decide +kernel), (by decide +kernel), (by decide +kernel), (by decide +kernel), ok_unit (by decide +kernel), ok_unit (by decide +kernel), ex_some (by decide +kernel) (ex_okp (by decide +kernel)
      trivial)⟩⟩⟩))⟩,
   ⟨(fr (le 4 (h tBlock 0) ++ le 4 1)), rich, taken_of (by decide +kernel), ex_ok (by decide +kernel) (ok_unit (by decide +kernel))⟩,
   ⟨(fr (le 4 (h tBlock 0) ++ le 16 0 ++ le 4 480 ++ le 4 1024 ++ le 2 0 ++ le 2 0xFFFF ++ le 1 2 ++ le 3 0 ++
      le 4 8 ++ le 8 0)), rich, taken_of (by decide +kernel), ex_names (by decide +kernel) ⟨(by decide +kernel), (by decide +kernel), ex_ok (by decide +kernel) ⟨(by decide +kernel), ex_ok (by decide +kernel) (ex_ok (by decide +kernel) (by decide +kernel))⟩⟩⟩,
   ⟨(fr (le 4 (h tBlock 0) ++ le 16 0 ++ le 4 480 ++ le 4 1024 ++ le 2 0 ++ le 2 1 ++ le 4 1 ++ le 4 1000)),
      rich, taken_of (by decide +kernel), ex_names (by decide +kernel) ⟨(by decide +kernel), (by decide +kernel), (by decide +kernel), ex_ok (by decide +kernel) (ex_okp (by decide +kernel) trivial)⟩⟩,
   ⟨(fr (le 4 (h tBlock 0) ++ le 4 1 ++ le 2 1)), rich, taken_of (by decide +kernel), ex_names (by decide +kernel) ⟨(by decide +kernel), (by decide +kernel), ex_ok (by decide +kernel) trivial⟩⟩⟩

theorem test_SeamCompletes_hypotheses_met :
    (∃ (f : CmdFrame), ∃ (s : State), Taken opSeamInfo f s ∧ ∃ i, lanePort s (u32 f 0) 0 = .ok i ∧ True) ∧
    (∃ (f : CmdFrame), ∃ (s : State), Taken opSeamConfig f s ∧ ∃ i, lanePort s (u32 f 0) 0 = .ok i ∧ ∃ m, m = (u8 f 4) ∧ (m == 1 || m ==
      2 || m == 4) ∧ (4 ≤ u8 f 5 && u8 f 5 ≤ 16) ∧ (u8 f 6 ≤ 1) ∧ fld f 7 1 = 0 ∧ (seamMode s i && !(laneBusy s i)) ∧ (!(u8 f 6 == 1 &&
      pairTaken s i))) ∧
    (∃ (f : CmdFrame), ∃ (s : State), Taken opSeamLand f s ∧ ∃ i, lanePort s (u32 f 0) 0 = .ok i ∧ ∃ l, l = (s.lane i) ∧ (u32 f 8 != 0 →
      ∃ y, names s (u32 f 8) [tRing] y) ∧ (f.desk = l.owner ∨ f.desk = 0) ∧ ∃ a, a = (u16 f 4) ∧ ∃ n, n = (u16 f 6) ∧ (a < l.slots) ∧ (1
      ≤ n && n ≤ 64 && a + n ≤ l.slots) ∧ (seamMode s i) ∧ ∃ mine, mine = (l.lands.filter fun b => a ≤ b.1 && b.1 < a + n) ∧ u32 f 8 ==
      0) ∧
    (∃ (f : CmdFrame), ∃ (s : State), Taken opSeamLand f s ∧ ∃ i, lanePort s (u32 f 0) 0 = .ok i ∧ ∃ l, l = (s.lane i) ∧ (u32 f 8 != 0 →
      ∃ y, names s (u32 f 8) [tRing] y) ∧ (f.desk = l.owner ∨ f.desk = 0) ∧ ∃ a, a = (u16 f 4) ∧ ∃ n, n = (u16 f 6) ∧ (a < l.slots) ∧ (1
      ≤ n && n ≤ 64 && a + n ≤ l.slots) ∧ (seamMode s i) ∧ ∃ mine, mine = (l.lands.filter fun b => a ≤ b.1 && b.1 < a + n) ∧ ¬ (u32 f 8
      == 0) ∧ ∃ rs, landRings s f l.mult n (u32 f 8) = .ok rs ∧ mine.isEmpty = true ∧ ∃ s₁, State.bindWriters (laneHandle i) 2 rs a s =
      .ok s₁ ∧ True) ∧
    (∃ (f : CmdFrame), ∃ (s : State), Taken opSeamFwdSet f s ∧ ∃ i, lanePort s (u32 f 0) 0 = .ok i ∧ ∃ a, a = (u16 f 4) ∧ ∃ n, n = (u16
      f 6) ∧ (a < (s.lane i).slots) ∧ (1 ≤ n && n ≤ 2800 && a + n ≤ (s.lane i).slots) ∧ ∃ l, launchAt s f 8 = .ok l ∧ (l.kind != 1 ||
      l.dom == 0) ∧ ∃ b, bulkAt s f 24 0 11200 = .ok b ∧ (b.len == 4 * n) ∧ (seamMode s i) ∧ s.jobsOf f.desk < 32) ∧
    (∃ (f : CmdFrame), ∃ (s : State), Taken opSeamFwdGet f s ∧ ∃ i, lanePort s (u32 f 0) 0 = .ok i ∧ ∃ a, a = (u16 f 4) ∧ ∃ n, n = (u16
      f 6) ∧ (a < (s.lane i).slots) ∧ (1 ≤ n && n ≤ 56 && a + n ≤ (s.lane i).slots)) ∧
    (∃ (f : CmdFrame), ∃ (s : State), Taken opSeamIdSet f s ∧ (1 ≤ u16 f 0) ∧ fld f 2 2 = 0 ∧ (!(s.lanes.any Lane.isUp))) ∧
    (∃ (f : CmdFrame), ∃ (s : State), Taken opSeamPSet f s ∧ ∃ p, p = (u16 f 0) ∧ (2 ≤ p && p ≤ 4096) ∧ fld f 2 2 = 0 ∧ s.isKeeper =
      true ∧ (p ≥ s.quarry.pMin) ∧ (mayTakeP s p) ∧ (s.quarry.proposal.isNone && s.quarry.nextAt == 0) ∧ s.jobsOf f.desk < 32) ∧
    (∃ (f : CmdFrame), ∃ (s : State), Taken opSeamTest f s ∧ ∃ i, lanePort s (u32 f 0) 0 = .ok i ∧ ∃ l, l = (s.lane i) ∧ (u8 f 4 ≤ 4) ∧
      (u8 f 6 ≤ 3) ∧ fld f 7 1 = 0 ∧ (seamMode s i) ∧ ∃ runs, runs = (u8 f 4 != 0 || u8 f 6 != 0) ∧ (!(runs && (laneBusy s i ||
      l.isUp)))) :=
  ⟨⟨(fr (le 4 (portHandle 260))), rich, taken_of (by decide +kernel), ex_ok (by decide +kernel) trivial⟩,
   ⟨(fr (le 4 (portHandle 263) ++ le 1 4 ++ le 1 16 ++ le 1 1 ++ le 1 0)), rich, taken_of (by decide +kernel), ex_ok (by decide +kernel) (ex_eq
      (by decide +kernel))⟩,
   ⟨(fr (le 4 (portHandle 260) ++ le 2 0 ++ le 2 64 ++ le 4 0)), rich, taken_of (by decide +kernel), ex_ok (by decide +kernel) (ex_eq ⟨(fun e =>
      absurd e (by decide +kernel)), (by decide +kernel), ex_eq (ex_eq ⟨(by decide +kernel), (by decide +kernel), (by decide +kernel), ex_eq (by decide +kernel)⟩)⟩)⟩,
   ⟨(fr (le 4 (portHandle 260) ++ le 2 0 ++ le 2 1 ++ le 4 (h tRing 1))), rich, taken_of (by decide +kernel), ex_ok (by decide +kernel) (ex_eq
      ⟨(fun _ => ⟨_, names_of (by decide +kernel)⟩), (by decide +kernel), ex_eq (ex_eq ⟨(by decide +kernel), (by decide +kernel), (by decide +kernel), ex_eq ⟨(by decide +kernel), ex_ok (by decide +kernel) ⟨(by decide +kernel), ex_ok (by decide +kernel)
      trivial⟩⟩⟩)⟩)⟩,
   ⟨(fr (le 4 (portHandle 260) ++ le 2 0 ++ le 2 2800 ++ le 16 0 ++ le 1 2 ++ le 3 0 ++ le 4 11200 ++ le 8
      0)), rich, taken_of (by decide +kernel), ex_ok (by decide +kernel) (ex_eq (ex_eq ⟨(by decide +kernel), (by decide +kernel), ex_ok (by decide +kernel) ⟨(by decide +kernel), ex_ok (by decide +kernel) (by decide +kernel)⟩⟩))⟩,
   ⟨(fr (le 4 (portHandle 260) ++ le 2 0 ++ le 2 56)), rich, taken_of (by decide +kernel), ex_ok (by decide +kernel) (ex_eq (ex_eq (by decide +kernel)))⟩,
   ⟨(fr (le 4 65535)), { rich with lanes := (List.replicate 32 Lane.reset) }, taken_of (by decide +kernel), (by decide +kernel)⟩,
   ⟨(fr (le 4 4096)), keeper, taken_of (by decide +kernel), ex_eq (by decide +kernel)⟩,
   ⟨(fr (le 4 (portHandle 263) ++ le 1 4 ++ le 1 0 ++ le 1 3 ++ le 1 0)), rich, taken_of (by decide +kernel), ex_ok (by decide +kernel) (ex_eq
      ⟨(by decide +kernel), (by decide +kernel), (by decide +kernel), (by decide +kernel), ex_eq (by decide +kernel)⟩)⟩⟩

theorem test_EthCompletes_hypotheses_met :
    (∃ (f : CmdFrame), ∃ (s : State), Taken opEthInfo f s ∧ ∃ p, ethPort s (u32 f 0) 0 = .ok p ∧ True) ∧
    (∃ (f : CmdFrame), ∃ (s : State), Taken opEthConfig f s ∧ ∃ p, ethPort s (u32 f 0) 0 = .ok p ∧ ∃ e, e = (s.ethAt p) ∧ (contiguous
      (u32 f 8)) ∧ (u16 f 16 ≤ 4094) ∧ (u8 f 18 ≤ 1) ∧ (u8 f 19 ≤ 1) ∧ ∃ same, same = (u32 f 4 == e.addr && u32 f 8 == e.mask && u32 f
      12 == e.gateway && u16 f 16 == e.vlan && (u8 f 19 == 1) == e.dhcp) ∧ (same || !(ethBusy s p))) ∧
    (∃ (f : CmdFrame), ∃ (s : State), Taken opEthPtpConfig f s ∧ ∃ ports, ptpPorts s f = .ok ports ∧ (u8 f 0 ≤ 1) ∧ (u8 f 1 ≤ 127) ∧ (u8
      f 2 ≤ 2) ∧ (1 ≤ u8 f 3 && u8 f 3 ≤ 2) ∧ ∃ n, n = (u8 f 6) ∧ (if u8 f 2 == 2 then 2 ≤ n && n ≤ 8 else 1 ≤ n && n ≤ 2) ∧ fld f 7 1 =
      0 ∧ (ports.eraseDups.length == n)) :=
  ⟨⟨(fr (le 4 (portHandle 768))), rich, taken_of (by decide +kernel), ex_ok (by decide +kernel) trivial⟩,
   ⟨(fr (le 4 (portHandle 768) ++ le 4 0x0A000002 ++ le 4 0xFFFFFF00 ++ le 4 0 ++ le 2 4094 ++ le 2 0x0101)),
      running, taken_of (by decide +kernel), ex_ok (by decide +kernel) (ex_eq ⟨(by decide +kernel), (by decide +kernel), (by decide +kernel), (by decide +kernel), ex_eq (by decide +kernel)⟩)⟩,
   ⟨(fr (le 1 1 ++ le 1 127 ++ le 1 0 ++ le 1 2 ++ le 2 0xFFFF ++ le 2 1 ++ le 4 (portHandle 768))), rich,
      taken_of (by decide +kernel), ex_ok (by decide +kernel) ⟨(by decide +kernel), (by decide +kernel), (by decide +kernel), (by decide +kernel), ex_eq (by decide +kernel)⟩⟩⟩

theorem test_ChanAllocCompletes_hypotheses_met :
    (∃ (f : CmdFrame), ∃ (s : State), Taken opStripAlloc f s ∧ ∃ (u : State), ∃ (p : List Byte), ChanAllocated 0 3 4 0xFF f s u p) ∧
    (∃ (f : CmdFrame), ∃ (s : State), Taken opBusAlloc f s ∧ u8 f 3 ≤ 2 ∧ (u8 f 8 ≤ 1 ∨ u8 f 8 = 0xFF) ∧ fld f 9 3 = 0 ∧ ∃ (u : State),
      ∃ (p : List Byte), ChanAllocated (u8 f 3 + 1) 0 4 (u8 f 8) f s u p) :=
  ⟨⟨fr (le 1 0 ++ le 1 1 ++ le 1 3 ++ le 1 0 ++ le 4 0), ⟨running, ⟨taken_of (by decide +kernel), ⟨_, ⟨_, ⟨0, 3, 0, false, 0, allocO 0 0xFF, (alloc2 0 0xFF).1, alloc1 0 0xFF, (alloc2 0 0xFF).2, alloc3 0 0xFF, alloc4 0 0xFF, newChan 0 0xFF,
    maskCharge (newChan 0 0xFF) 1 0, by
    refine ⟨(by rfl), by decide +kernel, by decide +kernel, by rfl, by decide +kernel, by decide +kernel, by decide +kernel,
      ok_unit (by decide +kernel), ok_unit (by decide +kernel), by decide +kernel, by decide +kernel, ok_unit (by decide +kernel),
      ok_unit (by decide +kernel), ok_unit (by decide +kernel), by decide +kernel, by decide +kernel, by decide +kernel,
      by decide +kernel, by decide +kernel, rfl, by decide +kernel, ?_, ?_, ?_, alloc5 0 0xFF, ?_, rfl, rfl⟩
    · exact okOr_eq (0, running) _ (by decide +kernel)
    · exact okOr_eq running _ (by decide +kernel)
    · exact okOr_eq running _ (by decide +kernel)
    · exact okOr_eq running _ (by decide +kernel)⟩⟩⟩⟩⟩⟩,
   ⟨fr (le 1 0 ++ le 1 1 ++ le 1 3 ++ le 1 0 ++ le 4 0 ++ le 4 0), ⟨running, ⟨taken_of (by decide +kernel), ⟨(by decide +kernel), ⟨(by decide +kernel), ⟨(by decide +kernel), ⟨_, ⟨_, ⟨0, 3, 0, false, 0, allocO 1 0, (alloc2 1 0).1, alloc1 1 0, (alloc2 1 0).2, alloc3 1 0, alloc4 1 0, newChan 1 0,
    maskCharge (newChan 1 0) 1 0, by
    refine ⟨(by rfl), by decide +kernel, by decide +kernel, by rfl, by decide +kernel, by decide +kernel, by decide +kernel,
      ok_unit (by decide +kernel), ok_unit (by decide +kernel), by decide +kernel, by decide +kernel, ok_unit (by decide +kernel),
      ok_unit (by decide +kernel), ok_unit (by decide +kernel), by decide +kernel, by decide +kernel, by decide +kernel,
      by decide +kernel, by decide +kernel, rfl, by decide +kernel, ?_, ?_, ?_, alloc5 1 0, ?_, rfl, rfl⟩
    · exact okOr_eq (0, running) _ (by decide +kernel)
    · exact okOr_eq running _ (by decide +kernel)
    · exact okOr_eq running _ (by decide +kernel)
    · exact okOr_eq running _ (by decide +kernel)⟩⟩⟩⟩⟩⟩⟩⟩⟩⟩

theorem test_DitherTapComplete_hypotheses_met :
    (∃ (f : CmdFrame), ∃ (s : State), Taken opPortDitherSet f s ∧ hType (u32 f 0) ≠ tStream ∧ ∃ p, tdmPort s (u32 f 0) 0 = .ok p ∧ ∃ t,
      t = s.port p ∧ (f.desk = t.owner ∨ f.desk = 0) ∧ u8 f 4 < t.slots ∧ 1 ≤ u8 f 5 ∧ u8 f 4 + u8 f 5 ≤ t.slots ∧ u8 f 6 ∈ [0, 16, 20,
      24] ∧ u8 f 6 ≤ t.dataBits ∧ fld f 7 1 = 0 ∧ t.configured = true ∧ t.dir = 1) ∧
    (∃ (f : CmdFrame), ∃ (s : State), Taken opPortDitherSet f s ∧ ∃ o, names s (u32 f 0) [tStream] o ∧ mayChange f o ∧ ∃ st, o.stream? =
      some st ∧ u8 f 4 < st.channels ∧ 1 ≤ u8 f 5 ∧ u8 f 4 + u8 f 5 ≤ st.channels ∧ u8 f 6 ∈ [0, 16, 20, 24] ∧ u8 f 6 ≤ (if st.format =
      0 then 16 else 24) ∧ fld f 7 1 = 0 ∧ st.tx = true ∧ open' o) ∧
    (∃ (f : CmdFrame), ∃ (s : State), Taken opMeterTap f s ∧ ∃ o, names s (u32 f 0) [tMeter] o ∧ u32 f 8 = 0 ∧ mayChange f o ∧ ∃ m,
      o.meter? = some m ∧ u16 f 4 < m.points ∧ 1 ≤ u16 f 6 ∧ u16 f 4 + u16 f 6 ≤ m.points ∧ fld f 13 1 = 0 ∧ open' o) ∧
    (∃ (f : CmdFrame), ∃ (s : State), Taken opMeterTap f s ∧ ∃ o, names s (u32 f 0) [tMeter] o ∧ u32 f 8 ≠ 0 ∧ ∃ x, names s (u32 f 8)
      [tStrip, tBus] x ∧ mayChange f o ∧ ∃ m, o.meter? = some m ∧ u16 f 4 < m.points ∧ 1 ≤ u16 f 6 ∧ u16 f 4 + u16 f 6 ≤ m.points ∧ fld
      f 13 1 = 0 ∧ open' o ∧ pickOk x (u8 f 12) = true ∧ u16 f 14 + u16 f 6 ≤ (x.chan?.map (·.width)).getD 0 ∧ x.freeing = false ∧ x.dom
      = o.dom ∧ (∀ i, i < u16 f 6 → s.routeTo 11 (u16 f 4 + i) o.handle = none) ∧ ∃ u, u = (s.upd o.handle fun y => y.onMeter fun z =>
      { z with taps := (m.taps.filter fun t => !(u16 f 4 ≤ t.point && t.point < u16 f 4 + u16 f 6)) ++ (List.range (u16 f 6)).map fun i => { point := u16 f 4 + i, obj := x.handle, pick := u8 f 12, chan := u16 f 14 + i } })
      ∧ (∀ i, i < u16 f 6 → u.tapsOn x.handle (u16 f 14 + i) ≤ 8)) :=
  ⟨⟨(fr (le 4 (portHandle 1) ++ le 1 7 ++ le 1 1 ++ le 1 24 ++ le 1 0)), rich, taken_of (by decide +kernel), (by decide +kernel), ex_ok (by decide +kernel)
      (ex_eq (by decide +kernel))⟩,
   ⟨(fr (le 4 (h tStream 0) ++ le 1 0 ++ le 1 1 ++ le 1 16 ++ le 1 0)), rich, taken_of (by decide +kernel), ex_names (by decide +kernel) ⟨(by decide +kernel),
      ex_some (by decide +kernel) (by decide +kernel)⟩⟩,
   ⟨(fr (le 4 (h tMeter 0) ++ le 2 0 ++ le 2 1 ++ le 4 0 ++ le 4 0)), rich, taken_of (by decide +kernel), ex_names (by decide +kernel) ⟨(by decide +kernel), (by decide +kernel),
      ex_some (by decide +kernel) (by decide +kernel)⟩⟩,
   ⟨(fr (le 4 (h tMeter 0) ++ le 2 0 ++ le 2 1 ++ le 4 (h tStrip 0) ++ le 1 12 ++ le 1 0 ++ le 2 0)), rich,
      taken_of (by decide +kernel), ex_names (by decide +kernel) ⟨(by decide +kernel), ex_names (by decide +kernel) ⟨(by decide +kernel), ex_some (by decide +kernel) ⟨(by decide +kernel), (by decide +kernel), (by decide +kernel), (by decide +kernel), (by decide +kernel), (by decide +kernel), (by decide +kernel), (by decide +kernel), (by decide +kernel), (by decide +kernel), ex_eq
      (by decide +kernel)⟩⟩⟩⟩⟩

theorem test_SceneStoreCompletes_hypotheses_met :
    (∃ (f : CmdFrame), ∃ (s : State), Taken opSceneStore f s ∧ u32 f 0 = 0 ∧ u16 f 30 = 0 ∧ u32 f 4 < 128 ∧ ∃ tTwin, timeAt f 8 96000
      480 = .ok tTwin ∧ ∃ w, timeAt f 12 32768 1024 = .ok w ∧ ∃ tRamp, timeAt f 16 96000 480 = .ok tRamp ∧ ∃ tRoute, timeAt f 20 96000
      480 = .ok tRoute ∧ ∃ tNode, timeAt f 24 65535 480 = .ok tNode ∧ ∃ lawTwin, lawAt f 28 0 = .ok lawTwin ∧ ∃ lawRoute, lawAt f 29 1 =
      .ok lawRoute ∧ s.jobsOf f.desk < 32 ∧ within s f.desk 9 1 = .ok () ∧ (s.ofType tScene).length < 1024 ∧ ∃ i, (s.tab tScene).pick 1
      1 0 1024 = some i ∧ True) ∧
    (∃ (s : State), s.serving = true ∧ ∃ d, ∃ q, ∃ j, (s.jobs.find? fun j => j.desk == d && j.seq == q && j.op == 0x0A41 && j.stage ==
      1) = some j ∧ j.num ≤ 1 ∧ ∃ o, s.obj j.handle = some o ∧ ∃ y, o.scene? = some y ∧ ∃ b, y.coming = some b ∧ b.bytes ≤ 16777216 ∧
      s.sceneUse - y.body.bytes + b.bytes ≤ 50331648) :=
  ⟨⟨(fr (le 4 0 ++ le 4 127 ++ le 20 0 ++ le 4 0)), rich, taken_of (by decide +kernel), (by decide +kernel), (by decide +kernel), (by decide +kernel), ex_ok (by decide +kernel) (ex_ok (by decide +kernel) (ex_ok
      (by decide +kernel) (ex_ok (by decide +kernel) (ex_ok (by decide +kernel) (ex_ok (by decide +kernel) (ex_ok (by decide +kernel) ⟨(by decide +kernel), ok_unit (by decide +kernel), (by decide +kernel), ex_some (by decide +kernel) trivial⟩))))))⟩,
   ⟨{ (richWith (h tScene 0) fun o => o.onScene fun x => { x with coming := some { SceneBody.empty with bytes := 16777216 } }) with jobs := [⟨0, 9, 0x0A41, fr [], 1, h tScene 0, 0, [], 1, 0⟩] },
      (by decide +kernel), 0, 9, ex_some (by decide +kernel) ⟨(by decide +kernel), ex_some (by decide +kernel) (ex_some (by decide +kernel) (ex_some (by decide +kernel) (by decide +kernel)))⟩⟩⟩

end Sys2Proof.Tests
end

