-- ==== Sys2Proof/Tests/Witness3.lean ====
section
/-! SUPPORT. For each statement of the obligations that has hypotheses, states and operands that meet those of each of its
clauses (3 of 3). -/
namespace Sys2Proof.Tests
set_option Elab.async false
open Sys2Proof.Machine

theorem test_RecallCommandsComplete_hypotheses_met :
    (∃ (f : CmdFrame), ∃ (s : State), Taken opSceneRecall f s ∧ ∃ o, names s (u32 f 0) [tScene] o ∧ mayChange f o ∧ ∃ overs, oversAt f
      24 = .ok overs ∧ ∃ l, launchAt s f 8 = .ok l ∧ (l.kind = 0 ∨ l.index s 0 ≤ s.idx 0 + 2 ^ 32) ∧ s.jobsOf f.desk < 32 ∧
      s.recalls.length < 16) ∧
    (∃ (f : CmdFrame), ∃ (s : State), Taken opSceneArm f s ∧ u16 f 0 ≠ 0 ∧ u8 f 2 ≤ 1 ∧ fld f 3 1 = 0 ∧ ∃ overs, oversAt f 24 = .ok
      overs ∧ ∃ l, launchAt s f 8 = .ok l ∧ (l.kind = 0 ∨ l.index s 0 ≤ s.idx 0 + 2 ^ 32) ∧ s.isKeeper = true ∧ s.quarry.pMin ≤
      s.quarry.p ∧ s.jobsOf f.desk < 32 ∧ s.recalls.length < 16) ∧
    (∃ (f : CmdFrame), ∃ (s : State), Taken opSceneCancel f s ∧ ∃ r, (s.recalls.find? fun r => r.id == u32 f 0) = some r ∧ (f.desk =
      r.desk ∨ f.desk = 0) ∧ r.quarry = 0 ∧ s.now + 2 ≤ r.ask s / 8) :=
  ⟨⟨(fr (le 4 (h tScene 0) ++ le 4 0 ++ le 16 0 ++ le 24 0)), rich, taken_of (by decide +kernel), ex_names (by decide +kernel) ⟨(by decide +kernel), ex_ok (by decide +kernel)
      (ex_ok (by decide +kernel) (by decide +kernel))⟩⟩,
   ⟨(fr (le 4 0x00010007 ++ le 4 0 ++ le 16 0 ++ le 24 0)), keeper, taken_of (by decide +kernel), (by decide +kernel), (by decide +kernel), (by decide +kernel), ex_ok (by decide +kernel) (ex_ok
      (by decide +kernel) (by decide +kernel))⟩,
   ⟨(fr (le 4 2)), recalling, taken_of (by decide +kernel), ex_some (by decide +kernel) (by decide +kernel)⟩⟩

theorem test_RedSwitchCompletes_hypotheses_met :
    (∃ (f : CmdFrame), ∃ (s : State), Taken opRedSwitch f s ∧ s.red.role = .active ∧ (s.red.peers.any fun p => p.id == u16 f 0 &&
      p.awaited) = true ∧ fld f 2 2 = 0 ∧ ∃ l, launchAt s f 4 = .ok l ∧ ((switchAt s l).2 && strictFlag f) = false) ∧
    (∃ (f : CmdFrame), ∃ (s : State), Taken opRedSwitch f s ∧ s.red.role = .standby ∧ u16 f 0 = s.engineId ∧ s.red.ready = true ∧ fld f
      2 2 = 0 ∧ ∃ l, launchAt s f 4 = .ok l ∧ ((switchAt s l).2 && strictFlag f) = false) :=
  ⟨⟨(fr (le 4 2 ++ le 16 0)), (member .active), taken_of (by decide +kernel), (by decide +kernel), (by decide +kernel), (by decide +kernel), ex_ok (by decide +kernel) (by decide +kernel)⟩,
   ⟨(fr (le 4 1 ++ le 16 0)), (member .standby), taken_of (by decide +kernel), (by decide +kernel), (by decide +kernel), (by decide +kernel), (by decide +kernel), ex_ok (by decide +kernel) (by decide +kernel)⟩⟩

theorem test_RateCommandsComplete_hypotheses_met :
    (∃ (f : CmdFrame), ∃ d, domainAt f 0 = .ok d ∧ fld f 2 2 = 0 ∧ ∃ (s : State), ∃ l, launchAt s f 4 = .ok l ∧ (l.kind = 0 ∨ l.index s
      d ≤ s.idx d + 2 ^ 32) ∧ s.jobsOf f.desk < 32 ∧ Taken opDomainStart f s ∧ u8 f 1 ≤ 5 ∧ d ≠ 0 ∧ (s.dom d).st = .stopped ∧ ∃ start,
      start = (if l.kind = 0 then s.q else max s.q (if l.kind = 2 then l.val else instantOf l.val (s.fs l.dom))) ∧ ∃ (q : RateSeq), q =
      { desk := f.desk, seq := f.seq, op := 0x0A82, oldRate := (s.dom d).rate, newRate := u8 f 1, s := start, restart := restartIndex start (u8 f 1), qtime := none, retyped := [] }
      ∧ ∃ t, rateTests s d q = .ok t ∧ True) ∧
    (∃ (f : CmdFrame), ∃ d, domainAt f 0 = .ok d ∧ fld f 2 2 = 0 ∧ ∃ (s : State), ∃ l, launchAt s f 4 = .ok l ∧ (l.kind = 0 ∨ l.index s
      d ≤ s.idx d + 2 ^ 32) ∧ s.jobsOf f.desk < 32 ∧ Taken opDomainStop f s ∧ u8 f 1 = 0 ∧ d ≠ 0 ∧ (s.dom d).st ≠ .stopped ∧ (s.dom
      d).launchable = true ∧ (s.dom d).seq = none ∧ ∃ w, w = rateWhen s l d ∧ (w.slipped = true → strictFlag f = false)) ∧
    (∃ (f : CmdFrame), ∃ d, domainAt f 0 = .ok d ∧ fld f 2 2 = 0 ∧ ∃ (s : State), ∃ l, launchAt s f 4 = .ok l ∧ (l.kind = 0 ∨ l.index s
      d ≤ s.idx d + 2 ^ 32) ∧ s.jobsOf f.desk < 32 ∧ Taken opDomainRateSet f s ∧ u8 f 1 ≤ 5 ∧ (s.dom d).st ≠ .stopped ∧ ∃ w, w =
      rateWhen s l d ∧ (w.slipped = true → strictFlag f = false) ∧ ∃ (q : RateSeq), q =
      { desk := f.desk, seq := f.seq, op := 0x0A84, oldRate := (s.dom d).rate, newRate := u8 f 1, s := w.s, restart := restartIndex (instantOf (stopIndex s d w.s) (s.fs d)) (u8 f 1), qtime := none, retyped := [] }
      ∧ ∃ t, rateTests s d q = .ok t ∧ True) :=
  ⟨⟨(fr (le 1 1 ++ le 1 5 ++ le 2 0 ++ le 16 0)), ex_ok (by decide +kernel) ⟨(by decide +kernel), running, ex_ok (by decide +kernel) ⟨(by decide +kernel), (by decide +kernel), taken_of (by decide +kernel), (by decide +kernel),
      (by decide +kernel), (by decide +kernel), ex_eq (ex_eq (ex_ok (by decide +kernel) trivial))⟩⟩⟩,
   ⟨(fr (le 1 1 ++ le 1 0 ++ le 2 0 ++ le 16 0)), ex_ok (by decide +kernel) ⟨(by decide +kernel), twoDomains, ex_ok (by decide +kernel) ⟨(by decide +kernel), (by decide +kernel), taken_of (by decide +kernel), (by decide +kernel),
      (by decide +kernel), (by decide +kernel), (by decide +kernel), (by decide +kernel), ex_eq (by decide +kernel)⟩⟩⟩,
   ⟨(fr (le 1 1 ++ le 1 0 ++ le 2 0 ++ le 16 0)), ex_ok (by decide +kernel) ⟨(by decide +kernel), twoDomains, ex_ok (by decide +kernel) ⟨(by decide +kernel), (by decide +kernel), taken_of (by decide +kernel), (by decide +kernel),
      (by decide +kernel), ex_eq ⟨(by decide +kernel), ex_eq (ex_ok (by decide +kernel) trivial)⟩⟩⟩⟩⟩

theorem test_MailboxCompletes_hypotheses_met :
    (∃ (s : State), s.dieOn = true ∧ ∃ (d : Nat), d ≤ 16) ∧
    (∃ (s : State), s.dieOn = true ∧ ∃ (d : Nat), d ≤ 16 ∧ s.serving = true) ∧
    (∃ (s : State), s.dieOn = true ∧ ∃ (d : Nat), d ≤ 16 ∧ s.serving = true ∧ 0 < ringHeld (s.desk d).cmdTail (s.desk d).cmdHead ∧
      rspFree s d = true ∧ ∃ bs, bs = s.read (slotAddr d 0 256 ((s.desk d).cmdHead % 8)) 256 ∧ fieldAt bs 8 2 = d) :=
  ⟨⟨running, (by decide +kernel), 16, (by decide +kernel)⟩,
   ⟨running, (by decide +kernel), 16, (by decide +kernel)⟩,
   ⟨(running.setDesk 0 fun k => { k with cmdTail := 1 }), (by decide +kernel), 0, (by decide +kernel), (by decide +kernel), (by decide +kernel), (by decide +kernel), ex_eq (by decide +kernel)⟩⟩

theorem test_CarriersComplete_hypotheses_met :
    (∃ (s : State), s.serving = true ∧ ∃ d, d.desk ≤ 16 ∧ (s.ethAt d.port).mgmt = true ∧ (s.ethAt d.port).carries = true ∧ datagramOk s
      d = true ∧ d.kind ≠ 4 ∧ (frameOf (.udp d.addr d.srcPort) d.bytes).2.desk = d.desk) ∧
    (∃ (s : State), s.serving = true ∧ ∃ d, d.desk ≤ 16 ∧ (s.ethAt d.port).mgmt = true ∧ (s.ethAt d.port).carries = true ∧ datagramOk s
      d = false) ∧
    (∃ (s : State), s.serving = true ∧ ∃ l, (s.lane l).isUp = true ∧ ∃ (r : CtrlRec), r.typ ≠ 0) ∧
    (∃ (s : State), s.serving = true ∧ ∃ (f : Fragment), f.desk ≤ 16) ∧
    (∃ (s : State), s.serving = true ∧ ∃ d, ∃ c, ∃ j, s.collectJob d = some (c, j) ∧ True) ∧
    (∃ (s : State), s.serving = true ∧ ∃ d, ∃ q, ∃ j, (s.jobs.find? fun j => j.desk == d && j.seq == q && (j.stage == 2 || (j.stage == 0
      && (s.collectJob d).all fun c => c.2.order != j.order))) = some j ∧ True) :=
  ⟨⟨(({ running with eth := (List.replicate 32 EthPort.reset).set 0 { EthPort.reset with link := true, speed := 100, mgmt := true } }
      : State).setDesk 0 fun k => { k with key := le 32 1 }), (by decide +kernel),
      ({ port := 0, addr := 1, srcPort := 1, magicOk := true, version := 0x32, kind := 1, desk := 0, frameLen := 16, macOk := true, bytes := le 16 0 }
      : Datagram), (by decide +kernel)⟩,
   ⟨(({ running with eth := (List.replicate 32 EthPort.reset).set 0 { EthPort.reset with link := true, speed := 100, mgmt := true } }
      : State).setDesk 0 fun k => { k with key := le 32 1 }), (by decide +kernel),
      ({ port := 0, addr := 1, srcPort := 1, magicOk := true, version := 0x32, kind := 1, desk := 0, frameLen := 16, macOk := false, bytes := le 16 0 }
      : Datagram), (by decide +kernel)⟩,
   ⟨running, (by decide +kernel), 4, (by decide +kernel), ({ typ := 1, ttl := 1, src := 1, dst := 2, body := [] } : CtrlRec), (by decide +kernel)⟩,
   ⟨running, (by decide +kernel), ({ via := .pcie, desk := 16, seq := 0, len := 0, index := 0, res := 0, data := [] } :
      Fragment), (by decide +kernel)⟩,
   ⟨{ (running.setDesk 0 fun k => { k with collecting := some { seq := 5, total := 240, have_ := [] } }) with jobs := [⟨0, 5, 0x0A41, fr [], 1, 0, 0, [], 0, 1⟩] },
      (by decide +kernel), 0, ex_somep (by decide +kernel) trivial⟩,
   ⟨{ (running.setDesk 0 fun k => { k with collecting := none }) with jobs := [⟨0, 5, 0x0A41, fr [], 1, 0, 0, [], 2, 1⟩] },
      (by decide +kernel), 0, 5, ex_some (by decide +kernel) trivial⟩⟩

theorem test_RegistersComplete_hypotheses_met :
    (∃ (s : State), s.dieOn = true) ∧
    (∃ (s : State), s.dieOn = true ∧ ∃ b, s.snap.busy (b % 2) = true) ∧
    (∃ (s : State), s.dieOn = true ∧ ∃ b, s.snap.busy (b % 2) = false) ∧
    (∃ (s : State), s.dieOn = true ∧ ∃ m, bit m 10 = true) ∧
    (∃ (s : State), s.dieOn = true ∧ ∃ v, bit v 0 = true) ∧
    (∃ (s : State), s.dieOn = true ∧ ∃ v, bit v 0 = false) ∧
    (∃ (s : State), s.dieOn = true ∧ ∃ (o : Nat), o % 4 = 0) ∧
    (∃ (s : State), s.dieOn = true ∧ ∃ (a : Access), 1 ≤ a.bytes ∧ a.bytes ≤ 512 ∧ a.master ≤ 7 ∧ (¬ (a.master = 1 ∧ 0x10040000 ≤ a.addr
      ∧ a.addr + a.bytes ≤ 0x10060000)) ∧ (∀ i, i < a.bytes → permits s a.master a.write (a.addr + i) = true)) ∧
    (∃ (s : State), s.dieOn = true ∧ ∃ (a : Access), 1 ≤ a.bytes ∧ a.bytes ≤ 512 ∧ a.master ≤ 7 ∧ (¬ (a.master = 1 ∧ 0x10040000 ≤ a.addr
      ∧ a.addr + a.bytes ≤ 0x10060000)) ∧ (∃ i, i < a.bytes ∧ permits s a.master a.write (a.addr + i) = false)) ∧
    (∃ (s : State), s.dieOn = true ∧ pcieBulk s = []) :=
  ⟨⟨running, (by decide +kernel)⟩,
   ⟨{ running with snap := { Snap.reset with pending := [⟨1, 60000, 0, 0, 0, 0, false, none⟩] } }, (by decide +kernel), 3, (by decide +kernel)⟩,
   ⟨running, (by decide +kernel), 2, (by decide +kernel)⟩,
   ⟨running, (by decide +kernel), 0x400, (by decide +kernel)⟩,
   ⟨running, (by decide +kernel), 1, (by decide +kernel)⟩,
   ⟨running, (by decide +kernel), 2, (by decide +kernel)⟩,
   ⟨running, (by decide +kernel), 0, (by decide +kernel)⟩,
   ⟨running, (by decide +kernel), ({ master := 0, write := false, addr := 0x10000100, bytes := 4, enables := [], data := [] } :
      Access), (by decide +kernel)⟩,
   ⟨running, (by decide +kernel), ({ master := 7, write := false, addr := 0x10000100, bytes := 4, enables := [], data := [] } :
      Access), (by decide +kernel), (by decide +kernel), (by decide +kernel), (by decide +kernel), 0, by decide +kernel, by decide +kernel⟩,
   ⟨running, (by decide +kernel)⟩⟩

theorem test_ServicePortCompletes_hypotheses_met :
    (∃ (s : State), s.sv.st ≠ .off ∧ s.sv.st ≠ .dormant) ∧
    (∃ (s : State), s.sv.st ≠ .off ∧ s.sv.st ≠ .dormant ∧ ∃ a, a ≠ 0x38 ∧ a ≠ 0x04 ∧ a ≠ 0x0C ∧ a ≠ 0x14) ∧
    (∃ (s : State), s.sv.st = .dormant) ∧
    (∃ (s : State), s.sv.st = .watch ∧ s.sv.vinGood = true) ∧
    (∃ (s : State), (s.sv.st = .boot ∨ s.sv.st = .running ∨ s.sv.st = .stalled) ∧ 520 ≤ s.sv.vin) ∧
    (∃ (s : State), s.sv.st = .stalled) ∧
    (∃ (s : State), s.serving = true) :=
  ⟨⟨{ running with sv := { running.sv with st := .watch } }, (by decide +kernel)⟩,
   ⟨{ running with sv := { running.sv with st := .watch } }, (by decide +kernel), (by decide +kernel), 0, (by decide +kernel)⟩,
   ⟨{ running with sv := { running.sv with st := .dormant } }, (by decide +kernel)⟩,
   ⟨{ running with sv := { running.sv with st := .watch } }, (by decide +kernel)⟩,
   ⟨running, (by decide +kernel)⟩,
   ⟨{ running with sv := { running.sv with st := .stalled } }, (by decide +kernel)⟩,
   ⟨running, (by decide +kernel)⟩⟩

theorem test_SupplyCompletes_hypotheses_met :
    (∃ v, v ≤ 4800) ∧
    (∃ v, 4800 < v) ∧
    (∃ (s : State), s.sv.st = .watch ∧ s.sv.wake = false ∧ s.sv.wakeAuto = true ∧ s.sv.vinGood = true) ∧
    (∃ (s : State), s.sv.wakeLowShutdown = true ∧ s.sv.up = true) ∧
    (∃ (s : State), s.sv.wakeLowShutdown = false) ∧
    (∃ (s : State), s.sv.st = .watch) ∧
    (∃ (s : State), s.sv.up = true ∧ s.sv.railReady = 0x7F) ∧
    (∃ (s : State), s.sv.up = true ∧ s.sv.railReady ≠ 0x7F) ∧
    (∃ (s : State), s.sv.up = true ∧ ∃ t, t ≤ 1250) ∧
    (∃ (s : State), s.sv.up = true ∧ ∃ t, 1250 < t) :=
  ⟨⟨4800, (by decide +kernel)⟩,
   ⟨4801, (by decide +kernel)⟩,
   ⟨{ running with sv := { running.sv with st := .watch, wakeAuto := true } }, (by decide +kernel)⟩,
   ⟨{ running with sv := { running.sv with wakeLowShutdown := true } }, (by decide +kernel)⟩,
   ⟨{ running with sv := { running.sv with wakeLowShutdown := false } }, (by decide +kernel)⟩,
   ⟨{ running with sv := { running.sv with st := .watch } }, (by decide +kernel)⟩,
   ⟨{ running with sv := { running.sv with railReady := 0x7F } }, (by decide +kernel)⟩,
   ⟨{ running with sv := { running.sv with railReady := 0x3F } }, (by decide +kernel)⟩,
   ⟨running, (by decide +kernel), 1250, (by decide +kernel)⟩,
   ⟨running, (by decide +kernel), 1251, (by decide +kernel)⟩⟩

theorem test_StartupCompletes_hypotheses_met :
    (∃ (s : State), s.sv.st = .sequencing ∧ s.sv.retryWait = false ∧ s.sv.step = 1) ∧
    (∃ (s : State), s.sv.st = .sequencing ∧ s.sv.retryWait = false ∧ s.sv.step = 9) ∧
    (∃ (s : State), s.sv.st = .sequencing ∧ s.sv.retryWait = false ∧ s.sv.step = 10 ∧ s.sv.pass = 1) ∧
    (∃ (s : State), s.sv.st = .sequencing ∧ s.sv.retryWait = false ∧ s.sv.pass = 1) ∧
    (∃ (s : State), s.sv.st = .sequencing ∧ s.sv.retryWait = false ∧ s.sv.pass = 2) ∧
    (∃ (s : State), s.sv.st = .sequencing ∧ s.sv.retryWait = true) ∧
    (∃ (s : State), s.sv.st = .boot ∧ s.sv.imageOk = false ∧ ∃ (v : ImageVerdict), s.sv.order.head? = some v.slot ∧ (v.slot = 2 →
      s.sv.ldState = 1)) ∧
    (∃ (s : State), s.loading = true ∧ s.sv.imageOk = false ∧ s.sv.ldState ≠ 1) ∧
    (∃ (s : State), s.sv.st = .boot ∧ s.sv.source = 5 ∧ s.sv.imageOk = false ∧ s.sv.ldState ≠ 1) ∧
    (∃ (s : State), s.sv.st = .boot ∧ s.sv.imageOk = true ∧ 1 ≤ s.sv.watchdogs) ∧
    (∃ (s : State), s.sv.st = .boot ∧ s.sv.imageOk = true ∧ ∃ r, r ≤ 5) ∧
    (∃ (s : State), s.serving = true ∧ s.journal.antiRollback < s.sv.svn) ∧
    (∃ (s : State), s.sv.up = true ∧ ∃ p, bit s.sv.phaseOk p = true ∧ p ∉ s.faults.phaseTrying ∧ 5 ≤ phaseCount s.sv.phaseOk ∧
      phaseCount (s.sv.phaseOk - 2 ^ p) + 1 = phaseCount s.sv.phaseOk) ∧
    (∃ (s : State), s.sv.up = true ∧ ∃ p, p < 7 ∧ bit s.sv.railReady 2 = true ∧ bit s.sv.phaseOk p = false ∧ bit s.sv.phaseFailed p =
      false) ∧
    (∃ (s : State), s.serving = true ∧ ∃ p, p ∈ s.faults.phaseTrying) :=
  ⟨⟨{ running with sv := { running.sv with st := .sequencing, retryWait := false, step := 1, pass := 1 } },
      (by decide +kernel)⟩,
   ⟨{ running with sv := { running.sv with st := .sequencing, retryWait := false, step := 9, pass := 1 } },
      (by decide +kernel)⟩,
   ⟨{ running with sv := { running.sv with st := .sequencing, retryWait := false, step := 10, pass := 1 } },
      (by decide +kernel)⟩,
   ⟨{ running with sv := { running.sv with st := .sequencing, retryWait := false, step := 10, pass := 1 } },
      (by decide +kernel)⟩,
   ⟨{ running with sv := { running.sv with st := .sequencing, retryWait := false, step := 1, pass := 2 } },
      (by decide +kernel)⟩,
   ⟨{ running with sv := { running.sv with st := .sequencing, retryWait := true } }, (by decide +kernel)⟩,
   ⟨{ running with sv := { running.sv with st := .boot, imageOk := false, ldState := 1, bootOverride := 5 } },
      (by decide +kernel), (by decide +kernel), ({ slot := 2, failed := 0, version := 1, svn := 0 } : ImageVerdict), (by decide +kernel)⟩,
   ⟨{ running with sv := { running.sv with st := .boot, imageOk := false, ldWait := true, bootOverride := 5 }, host := { HostRegs.reset with pcieUp := true } },
      (by decide +kernel)⟩,
   ⟨{ running with sv := { running.sv with st := .boot, imageOk := false, ldWait := true, bootOverride := 5 } },
      (by decide +kernel)⟩,
   ⟨{ running with sv := { running.sv with st := .boot, imageOk := true, watchdogs := 1 } }, (by decide +kernel)⟩,
   ⟨{ running with sv := { running.sv with st := .boot, imageOk := true } }, (by decide +kernel), (by decide +kernel), 5, (by decide +kernel)⟩,
   ⟨{ running with sv := { running.sv with svn := 1 } }, (by decide +kernel)⟩,
   ⟨{ running with sv := { running.sv with phaseOk := 0x7F } }, (by decide +kernel), 6, (by decide +kernel)⟩,
   ⟨{ running with sv := { running.sv with railReady := 0x7F, phaseOk := 0x3F } }, (by decide +kernel), 6, (by decide +kernel)⟩,
   ⟨{ running with faults := { running.faults with phaseTrying := [6] } }, (by decide +kernel), 6, (by decide +kernel)⟩⟩

theorem test_DomainWorkCompletes_hypotheses_met :
    (∃ (s : State), s.dieOn = true ∧ ∃ (d : Nat), d ≤ 2 ∧ (s.dom d).runs = true) ∧
    (∃ (s : State), s.dieOn = true ∧ ∃ (d : Nat), d ≤ 2 ∧ (s.dom d).runs = true ∧ 0 < (s.dom d).next) ∧
    (∃ (s : State), s.dieOn = true ∧ ∃ (d : Nat), d ≤ 2 ∧ (s.dom d).st = .stopped) ∧
    (∃ (s : State), s.dieOn = true ∧ ∃ (d : Nat), d ≤ 2 ∧ ∃ h, ∃ o, s.obj h = some o ∧ ∃ m, o.meter? = some m ∧ m.loud = true ∧ o.dom =
      d ∧ (s.dom d).runs = true) ∧
    (∃ (s : State), s.dieOn = true ∧ ∃ (d : Nat), d ≤ 2 ∧ ∃ h, ∃ o, ∃ r, s.ringAt h = some (o, r) ∧ o.dom = d ∧ r.writer ≠ 0 ∧
      r.lastWrite + 65536 ≤ s.ash d) ∧
    (∃ (s : State), s.dieOn = true ∧ ∃ (d : Nat), d ≤ 2 ∧ ∃ q, (s.dom d).seq = some q ∧ (s.dom d).st = .fadingOut) ∧
    (∃ (s : State), s.dieOn = true ∧ ∃ (d : Nat), d ≤ 2 ∧ ∃ q, (s.dom d).seq = some q ∧ (s.dom d).st = .halted ∧ (q.qtime = none ∨
      q.qtime = some 0)) ∧
    (∃ (s : State), s.dieOn = true ∧ ∃ (d : Nat), d ≤ 2 ∧ ∃ q, (s.dom d).seq = some q ∧ (s.dom d).st = .fadingIn ∧ q.restart = (s.dom
      d).fadeFrom) :=
  ⟨⟨running, (by decide +kernel), 0, (by decide +kernel)⟩,
   ⟨running, (by decide +kernel), 0, (by decide +kernel)⟩,
   ⟨running, (by decide +kernel), 2, (by decide +kernel)⟩,
   ⟨rich, (by decide +kernel), 0, (by decide +kernel), (h tMeter 1), ex_some (by decide +kernel) (ex_some (by decide +kernel) (by decide +kernel))⟩,
   ⟨((State.setDom { rich with clk := { rich.clk with raw := 3000000000 } } 0 fun x =>
      { x with next := 72000 }).modObj tRing 2 fun o => o.onRing fun x => { x with lastWrite := 4000 }), (by decide +kernel),
      0, (by decide +kernel), 2, ex_somep (by decide +kernel) (by decide +kernel)⟩,
   ⟨(running.setDom 0 fun x =>
      { x with st := .fadingOut, seq := some { desk := 0, seq := 5, op := 0x0401, oldRate := 1, newRate := 5, s := 96000, restart := 0, qtime := none, retyped := [] } }),
      (by decide +kernel), 0, (by decide +kernel), ex_some (by decide +kernel) (by decide +kernel)⟩,
   ⟨(running.setDom 0 fun x =>
      { x with st := .halted, seq := some { desk := 0, seq := 5, op := 0x0401, oldRate := 1, newRate := 5, s := 96000, restart := 0, qtime := none, retyped := [] } }),
      (by decide +kernel), 0, (by decide +kernel), ex_some (by decide +kernel) (by decide +kernel)⟩,
   ⟨(running.setDom 0 fun x =>
      { x with st := .fadingIn, fadeFrom := 48000, seq := some { desk := 0, seq := 5, op := 0x0401, oldRate := 1, newRate := 5, s := 96000, restart := 48000, qtime := none, retyped := [] } }),
      (by decide +kernel), 0, (by decide +kernel), ex_some (by decide +kernel) (by decide +kernel)⟩⟩

theorem test_RepairsComplete_hypotheses_met :
    (∃ (s : State), s.dieOn = true ∧ ∃ r, ∃ p, ∃ b, ∃ w, s.faults.moving.contains (r, p, b, w) = true ∧ ∃ o, ∃ x, s.ringAt r = some (o,
      x) ∧ True) ∧
    (∃ (s : State), s.dieOn = true) ∧
    (∃ (s : State), s.dieOn = true ∧ ∃ a, (s.faults.work.any fun w => w.kind == 2 && w.failed == a) = true) ∧
    (∃ (s : State), s.dieOn = true ∧ ∃ a, ∃ b, ∃ t, (s.moves.find? fun m => m.source == a && m.target == b) = some t ∧ True) ∧
    (∃ (s : State), s.dieOn = true ∧ s.serving = true ∧ ∃ k, ∃ u, idleUnit s k u = true) ∧
    (∃ (s : State), s.dieOn = true ∧ s.serving = true ∧ ∃ k, (s.faults.work.any fun w => w.kind == k && w.test) = false ∧ ∃ u, ∃ t,
      (s.faults.tests.find? fun t => t.1 == k && t.2.1 == u) = some t ∧ True) ∧
    (∃ (s : State), s.dieOn = true ∧ ∃ b, ∃ p, (s.snap.pending.find? fun p => p.bank == b) = some p ∧ p.counts = none ∧ (s.dom 0).runs =
      true ∧ p.gap = false ∧ p.ashlar < (s.dom 0).next) ∧
    (∃ (s : State), s.dieOn = true ∧ s.extId ≠ 0) :=
  ⟨⟨{ rich with faults := { Faults.reset with moving := [(2, 0, 0, 1)] } }, (by decide +kernel), 2, 0, 0, 1, (by decide +kernel), ex_somep (by decide +kernel)
      trivial⟩,
   ⟨running, (by decide +kernel)⟩,
   ⟨{ running with faults := { running.faults with work := [{ kind := 2, failed := 3, spare := 16, since := 0, test := false }] } },
      (by decide +kernel), 3, (by decide +kernel)⟩,
   ⟨{ running with moves := [{ source := 0, target := 1, objs := [], dom := 0, slot := 0, retried := false, spare := false }] },
      (by decide +kernel), 0, 1, ex_some (by decide +kernel) trivial⟩,
   ⟨running, (by decide +kernel), (by decide +kernel), 3, 64, (by decide +kernel)⟩,
   ⟨{ running with faults := { running.faults with tests := [(3, 64, 5, 0)] } }, (by decide +kernel), (by decide +kernel), 3, (by decide +kernel), 64, ex_some (by decide +kernel)
      trivial⟩,
   ⟨{ running with snap := { Snap.reset with pending := [⟨1, 5999, 0, 0, 0, 0, false, none⟩] } }, (by decide +kernel), 1,
      ex_some (by decide +kernel) (by decide +kernel)⟩,
   ⟨keeper, (by decide +kernel)⟩⟩

theorem test_ClockEventsComplete_hypotheses_met :
    (∃ (s : State), s.dieOn = true ∧ s.decides = true ∧ s.timing.selected.isSome = true ∧ (s.timing.st = .acquiring ∨ s.timing.st =
      .locked)) ∧
    (∃ (s : State), s.dieOn = true ∧ ∃ c, c < 8) ∧
    (∃ (s : State), s.dieOn = true ∧ ∃ c, c < 8 ∧ (s.cand c).enable = true ∧ (s.cand c).present = true ∧ 0 < s.candQuality c) ∧
    (∃ (s : State), s.dieOn = true ∧ ∃ c, c < 8 ∧ ((s.cand c).valid = true ∨ (s.cand c).present = true)) ∧
    (∃ (s : State), s.dieOn = true ∧ ∃ (e : Int), ∃ i, ∃ a, ∃ b, s.timing.stepDue = some (e, i, a, b) ∧ s.setting = false) ∧
    (∃ (s : State), s.dieOn = true ∧ ∃ t, holdExpiry s.timing = some t ∧ s.timing.st = .holdover ∧ s.timing.expired = false) ∧
    (∃ (s : State), s.dieOn = true ∧ s.timing.st = .locked) ∧
    (∃ (s : State), s.dieOn = true ∧ s.timing.st = .locked ∧ s.timing.fPast.drop 1000 = []) :=
  ⟨⟨{ running with timing := { running.timing with selected := some 0, st := .locked } }, (by decide +kernel)⟩,
   ⟨running, (by decide +kernel), 7, (by decide +kernel)⟩,
   ⟨{ running with timing := { running.timing with cands := List.replicate 8 { Cand.reset with enable := true, present := true, quality := 1, carried := 1 } } },
      (by decide +kernel), 0, (by decide +kernel)⟩,
   ⟨{ running with timing := { running.timing with cands := List.replicate 8 { Cand.reset with present := true } } },
      (by decide +kernel), 7, (by decide +kernel)⟩,
   ⟨{ running with timing := { running.timing with stepDue := some (20, 0, 1, 2) } }, (by decide +kernel), 20, 0, 1, 2, (by decide +kernel)⟩,
   ⟨{ running with timing := { running.timing with st := .holdover } }, (by decide +kernel), ex_some (by decide +kernel) (by decide +kernel)⟩,
   ⟨{ running with timing := { running.timing with st := .locked } }, (by decide +kernel)⟩,
   ⟨{ running with timing := { running.timing with st := .locked } }, (by decide +kernel)⟩⟩

theorem test_PortEventsComplete_hypotheses_met :
    (∃ (s : State), s.dieOn = true) ∧
    (∃ (s : State), s.dieOn = true ∧ ∃ p, p < 128 ∧ (s.port p).configured = true ∧ (s.port p).lost = false ∧ s.red.role = .single) ∧
    (∃ (s : State), s.dieOn = true ∧ ∃ p, p < 128 ∧ (s.port p).lost = true ∧ 16 ≤ (s.port p).valid ∧ s.red.role = .single ∧ p / 16 ∉
      s.host.bankLost) ∧
    (∃ (s : State), s.dieOn = true ∧ s.serving = true) ∧
    (∃ (s : State), s.dieOn = true ∧ s.serving = true ∧ ∃ g, g < 32 ∧ (s.gpiAt g).seen = true ∧ (s.gpiAt g).reading ≠ (s.gpiAt
      g).accepted) ∧
    (∃ (s : State), s.dieOn = true ∧ ∃ g, g < 32 ∧ (s.gpoAt g).on = true ∧ (s.gpoAt g).trip ≠ 2) ∧
    (∃ (s : State), s.dieOn = true ∧ ∃ g, g < 32 ∧ (s.gpoAt g).trip = 1 ∧ (s.gpoAt g).latched = false ∧ (s.gpoAt g).commanded = true) ∧
    (∃ (s : State), s.dieOn = true ∧ ∃ g, g < 32 ∧ (s.gpoAt g).trip = 2 ∧ (s.gpoAt g).on = true) ∧
    (∃ (s : State), s.dieOn = true ∧ s.serving = true ∧ ∃ g, g < 32 ∧ (s.gpoAt g).on = false ∧ (s.gpoAt g).stuckTold = false) :=
  ⟨⟨running, (by decide +kernel)⟩,
   ⟨running, (by decide +kernel), 0, (by decide +kernel)⟩,
   ⟨{ running with tdm := running.tdm.set 0 { Tdm.reset with configured := true, slots := 8, lost := true, valid := 16 } },
      (by decide +kernel), 0, (by decide +kernel)⟩,
   ⟨running, (by decide +kernel)⟩,
   ⟨{ running with gpi := (List.replicate 32 Gpi.reset).set 31 { Gpi.reset with seen := true, reading := true } },
      (by decide +kernel), (by decide +kernel), 31, (by decide +kernel)⟩,
   ⟨{ running with gpo := (List.replicate 32 Gpo.reset).set 31 { Gpo.reset with on := true } }, (by decide +kernel), 31, (by decide +kernel)⟩,
   ⟨{ running with gpo := (List.replicate 32 Gpo.reset).set 31 { Gpo.reset with commanded := true, trip := 1 } },
      (by decide +kernel), 31, (by decide +kernel)⟩,
   ⟨{ running with gpo := (List.replicate 32 Gpo.reset).set 31 { Gpo.reset with on := true, trip := 2 } }, (by decide +kernel),
      31, (by decide +kernel)⟩,
   ⟨{ running with gpo := (List.replicate 32 Gpo.reset).set 31 { Gpo.reset with on := false } }, (by decide +kernel), (by decide +kernel), 31,
      (by decide +kernel)⟩⟩

theorem test_LaneEventsComplete_hypotheses_met :
    (∃ (s : State), s.dieOn = true ∧ ∃ (l : Nat), hears s l = true ∧ ∃ (h : SeamHdr), (h.ok && h.ashOk) = false) ∧
    (∃ (s : State), s.dieOn = true ∧ ∃ (l : Nat), hears s l = true ∧ ∃ (h : SeamHdr), h.ok = true ∧ h.ashOk = true ∧ loopsBack
      (s.headerIn l h) l = false ∧ ((s.headerIn l h).lane l).isUp = true) ∧
    (∃ (s : State), s.dieOn = true ∧ ∃ (l : Nat), hears s l = true ∧ loopsBack s l = false ∧ (s.lane l).isUp = true) ∧
    (∃ (s : State), s.dieOn = true ∧ ∃ (l : Nat), (s.lane l).isUp = true ∧ ∃ p, ∃ fr, ∃ x, (s.lane l).resendable p fr s.frame = some x ∧
      True) ∧
    (∃ (s : State), s.dieOn = true ∧ ∃ (l : Nat), (s.lane l).isUp = true) ∧
    (∃ (s : State), s.dieOn = true ∧ ∃ (l : Nat), ∃ g, ∃ a, ((s.lane l).windows.any fun w => w.seg == g && w.ashlar == a) = true ∧ 28 ≤
      g) ∧
    (∃ (s : State), s.dieOn = true ∧ ∃ (l : Nat), seamMode s l = true ∧ (s.lane l).st = .down) ∧
    (∃ (s : State), s.dieOn = true ∧ ∃ (l : Nat), (s.lane l).st = .training ∧ 3 ≤ (s.lane l).valid ∧ s.extId ≠ 0 ∧ (s.lane l).peer ≠ 0 ∧
      (s.lane l).peer ≠ s.extId) ∧
    (∃ (s : State), s.dieOn = true ∧ ∃ (l : Nat), ((s.lane l).relays.any fun r => decide (r.since + 32 ≤ s.now)) = true) :=
  ⟨⟨running, (by decide +kernel), 4, (by decide +kernel),
      ({ ok := false, ashOk := true, ashlar := 6000, engine := 2, keeper := 2, hops := 0, topo := 0, claim := 0, quality := 0, epoch := 0, mult := 1, window := 8, p := 2, nextP := 2, nextPAshlar := 0, rxOffset := 0, inTime := true, delayPs := 0, records := [] }
      : SeamHdr), (by decide +kernel)⟩,
   ⟨running, (by decide +kernel), 4, (by decide +kernel),
      ({ ok := true, ashOk := true, ashlar := 6000, engine := 2, keeper := 2, hops := 0, topo := 0, claim := 0, quality := 0, epoch := 0, mult := 1, window := 8, p := 2, nextP := 2, nextPAshlar := 0, rxOffset := 0, inTime := true, delayPs := 0, records := [] }
      : SeamHdr), (by decide +kernel)⟩,
   ⟨running, (by decide +kernel), 4, (by decide +kernel)⟩,
   ⟨{ running with engineId := 0, lanes := (List.replicate 32 Lane.reset).set 4 { Lane.reset with st := .up, copies := [(0, 5998, 0)] } },
      (by decide +kernel), 4, (by decide +kernel), 0, (5998 % 256), ex_some (by decide +kernel) trivial⟩,
   ⟨running, (by decide +kernel), 4, (by decide +kernel)⟩,
   ⟨{ running with engineId := 0, lanes := (List.replicate 32 Lane.reset).set 4 { Lane.reset with st := .up, windows := [{ seg := 28, ashlar := 6000, failed := true }] } },
      (by decide +kernel), 4, 28, 6000, (by decide +kernel)⟩,
   ⟨{ running with engineId := 0, lanes := (List.replicate 32 Lane.reset).set 4 { Lane.reset with st := .down } },
      (by decide +kernel), 4, (by decide +kernel)⟩,
   ⟨{ running with engineId := 1, lanes := (List.replicate 32 Lane.reset).set 4 { Lane.reset with st := .training, valid := 3, peer := 2 } },
      (by decide +kernel), 4, (by decide +kernel)⟩,
   ⟨{ running with engineId := 0, lanes := (List.replicate 32 Lane.reset).set 4 { Lane.reset with st := .up, relays := [{ since := 5000, body := { typ := 1, ttl := 1, src := 1, dst := 2, body := [] } }] } },
      (by decide +kernel), 4, (by decide +kernel)⟩⟩

theorem test_QuarryControlCompletes_hypotheses_met :
    (∃ (s : State), s.dieOn = true ∧ s.extId ≠ 0) ∧
    (∃ (s : State), s.dieOn = true ∧ s.extId ≠ 0 ∧ s.isKeeper = true) ∧
    (∃ (s : State), s.dieOn = true ∧ s.extId ≠ 0 ∧ s.isKeeper = false) ∧
    (∃ (s : State), s.dieOn = true ∧ s.extId ≠ 0 ∧ ∃ p, ∃ order, ∃ (y : List Nat), ∃ (w : List Nat), s.quarry.proposal = some (p, order,
      y, w) ∧ w ≠ []) ∧
    (∃ (s : State), s.dieOn = true ∧ s.extId ≠ 0 ∧ s.quarry.nextAt ≠ 0 ∧ ∃ (u : State), u = s.carryTo (instantOf (8 * s.quarry.nextAt)
      (s.fs 0)) ∧ u.quarry.proposal = none) ∧
    (∃ (s : State), s.dieOn = true ∧ s.extId ≠ 0 ∧ s.quarry.nextAt ≠ 0 ∧ ∃ (u : State), u = s.carryTo (instantOf (8 * s.quarry.nextAt)
      (s.fs 0)) ∧ ∃ p, ∃ order, ∃ (y : List Nat), ∃ (w : List Nat), u.quarry.proposal = some (p, order, y, w) ∧ ∃ (t : State), t =
      (u.onQuarry fun q => { q with p := q.nextP, nextAt := 0, proposal := none }).raise0 0x1304 (le 2 u.quarry.nextP ++ le 2 0 ++ le 8
      u.quarry.nextAt) ∧ ∃ j, (t.jobs.find? fun j => some j.order == some order) = some j ∧ True) :=
  ⟨⟨keeper, (by decide +kernel)⟩,
   ⟨keeper, (by decide +kernel)⟩,
   ⟨{ running with engineId := 1, quarry := { Quarry.reset with keeper := 2, engines := [1, 2], p := 2 } },
      (by decide +kernel)⟩,
   ⟨{ running with engineId := 1, quarry := { Quarry.reset with keeper := 1, engines := [1, 2], proposal := some (4, 1, [], [2]), nextP := 4, nextAt := 0 } },
      (by decide +kernel), (by decide +kernel), 4, 1, [], [2], (by decide +kernel)⟩,
   ⟨{ running with engineId := 1, quarry := { Quarry.reset with keeper := 2, engines := [1, 2], nextP := 4, nextAt := 6000 } },
      (by decide +kernel), (by decide +kernel), (by decide +kernel), ex_eq (by decide +kernel)⟩,
   ⟨{ { running with engineId := 1, quarry := { Quarry.reset with keeper := 1, engines := [1, 2], proposal := some (4, 1, [], []), nextP := 4, nextAt := 6000 } } with jobs := [⟨0, 5, 0x0C05, fr [], 1, 0, 0, [], 1, 0⟩] },
      (by decide +kernel), (by decide +kernel), (by decide +kernel), ex_eq ⟨4, 1, [], [], (by decide +kernel), ex_eq (ex_some (by decide +kernel) trivial)⟩⟩⟩

theorem test_RedundancyEventsComplete_hypotheses_met :
    (∃ (s : State), s.dieOn = true ∧ s.red.mode ≠ 0) ∧
    (∃ (s : State), s.dieOn = true ∧ ∃ i, ∃ p, s.peer i = some p ∧ p.seen = true ∧ p.lost = false) ∧
    (∃ (s : State), s.dieOn = true ∧ ∃ i, ∃ p, s.peer i = some p ∧ s.red.role = .active ∧ p.awaited = true) ∧
    (∃ (s : State), s.dieOn = true ∧ s.red.role = .forming ∧ (s.red.peers.any fun p => p.seen) = false) ∧
    (∃ (s : State), s.dieOn = true ∧ ∃ i, i < 2 ∧ s.red.ownIn.getD i false = true) ∧
    (∃ (s : State), s.dieOn = true ∧ ∃ i, i < 2 ∧ s.red.settle = false) ∧
    (∃ (s : State), s.dieOn = true ∧ ∃ i, i < 2 ∧ s.red.settle = true) ∧
    (∃ (s : State), s.dieOn = true ∧ s.red.settle = true ∧ s.red.ownOut = true ∧ (s.red.ownIn.any id) = false ∧ s.red.role ≠ .standby) ∧
    (∃ (s : State), s.dieOn = true ∧ s.red.settle = true ∧ s.red.ownOut = true ∧ (s.red.ownIn.any id) = false ∧ s.red.role = .standby) ∧
    (∃ (s : State), s.dieOn = true ∧ s.red.backoff = true ∧ (s.red.ownIn.any id) = true) ∧
    (∃ (s : State), s.dieOn = true ∧ s.red.backoff = true ∧ (s.red.ownIn.any id) = false ∧ s.red.fenced = false) ∧
    (∃ (s : State), s.dieOn = true ∧ s.red.mode = 2) ∧
    (∃ (s : State), s.dieOn = true ∧ s.red.fenced = true) :=
  ⟨⟨(member .active), (by decide +kernel)⟩,
   ⟨(member .active), (by decide +kernel), 0, ex_some (by decide +kernel) (by decide +kernel)⟩,
   ⟨{ member .active with red := { (member .active).red with peers := [{ Peer.new 2 with seen := true, hdr := { noHeader with ready := true } }], deltas := [(1, .imageEnd)] } },
      (by decide +kernel), 0, ex_some (by decide +kernel) (by decide +kernel)⟩,
   ⟨{ running with red := { Red.reset with mode := 1, role := .forming } }, (by decide +kernel)⟩,
   ⟨{ member .active with red := { (member .active).red with ownIn := [false, true] } }, (by decide +kernel), 1, (by decide +kernel)⟩,
   ⟨(member .standby), (by decide +kernel), 1, (by decide +kernel)⟩,
   ⟨{ member .stale with red := { (member .stale).red with settle := true } }, (by decide +kernel), 1, (by decide +kernel)⟩,
   ⟨{ member .stale with red := { (member .stale).red with settle := true, ownOut := true } }, (by decide +kernel)⟩,
   ⟨{ member .standby with red := { (member .standby).red with settle := true, ownOut := true } }, (by decide +kernel)⟩,
   ⟨{ member .active with red := { (member .active).red with backoff := true, ownIn := [true, false] } }, (by decide +kernel)⟩,
   ⟨{ member .stale with red := { (member .stale).red with backoff := true } }, (by decide +kernel)⟩,
   ⟨{ member .active with red := { (member .active).red with mode := 2 } }, (by decide +kernel)⟩,
   ⟨{ member .stale with red := { (member .stale).red with fenced := true } }, (by decide +kernel)⟩⟩

theorem test_NetworkEventsComplete_hypotheses_met :
    (∃ (s : State), s.dieOn = true ∧ ∃ (p : Nat), (s.ethAt p).carries = true ∧ ∃ (f : EthFrame), (s.frameIn p f).1 = false) ∧
    (∃ (s : State), s.dieOn = true ∧ ∃ (p : Nat), (s.ethAt p).carries = true ∧ ∃ (f : EthFrame), (s.frameIn p f).1 = true ∧ ∃ (d :
      Datagram), f.body = .ruzia d) ∧
    (∃ (s : State), s.dieOn = true ∧ ∃ (p : Nat), (s.ethAt p).carries = true ∧ ∃ (f : EthFrame), (s.frameIn p f).1 = true ∧ (∀ d, f.body
      ≠ .ruzia d)) ∧
    (∃ (s : State), s.dieOn = true ∧ ∃ (p : Nat), (resolvePort s (portHandle (768 + p)) 0).toBool = true ∧ ∃ (u : Bool), ∃ v, ∃ (t :
      State), t = (s.setEth p fun e => { e with link := u, speed := if u then v else 0 }) ∧ (t.ethAt p).carries = false) ∧
    (∃ (s : State), s.dieOn = true ∧ ∃ (p : Nat), (s.ethAt p).carries = true ∧ ∃ ip, ((s.ethAt p).arp.any fun a => a.1 == ip) = true ∧
      arpUsed s p ip = true) ∧
    (∃ (s : State), s.dieOn = true ∧ s.serving = true ∧ ∃ (p : Nat), (s.ethAt p).dhcp = true ∧ (s.ethAt p).carries = true ∧ ∃ a,
      (s.ethAt p).addr ≠ a) ∧
    (∃ (s : State), s.dieOn = true ∧ s.ptp.on = true ∧ ∃ (p : Nat), s.ptp.ports.contains p = true ∧ (s.ethAt p).carries = true ∧
      ptpStateOf (s.addCtr (ctrEth p 6) 1) p = ptpSlave) ∧
    (∃ (s : State), s.dieOn = true ∧ ∃ (p : Nat), (s.ethAt p).carries = true ∧ ptpServes s.ptpRefresh p = true ∧ s.ptpRefresh.ptp.step =
      1) ∧
    (∃ (s : State), s.dieOn = true ∧ s.ptp.on = true ∧ ∃ (p : Nat), s.ptp.ports.contains p = true) ∧
    (∃ (s : State), s.dieOn = true ∧ ∃ h, ∃ o, s.obj h = some o ∧ ∃ x, o.stream? = some x ∧ x.tx = true ∧ (s.dom o.dom).runs = true ∧
      x.silentAt (x.next * x.n (s.mult o.dom)) = false) ∧
    (∃ (s : State), s.dieOn = true ∧ ∃ (p : Nat), p < 32 ∧ (s.ethAt p).carries = true) ∧
    (∃ (s : State), s.dieOn = true ∧ ∃ h, ∃ o, s.obj h = some o ∧ ∃ x, o.stream? = some x ∧ ∃ k, x.hasPath k = true ∧ x.up.getD (k - 1)
      false = true) ∧
    (∃ (s : State), s.dieOn = true ∧ ∃ h, ∃ o, s.obj h = some o ∧ ∃ x, o.stream? = some x ∧ ∃ k, x.hasPath k = true ∧ x.up.getD (k - 1)
      true = false ∧ 8 ≤ x.runs.getD (k - 1) 0) :=
  ⟨⟨running, (by decide +kernel), 0, (by decide +kernel), ({ length := 64, tag := none, fcsOk := false, body := .igmpQuery } : EthFrame), (by decide +kernel)⟩,
   ⟨running, (by decide +kernel), 0, (by decide +kernel),
      ({ length := 64, tag := none, fcsOk := true, body := .ruzia { port := 0, addr := 1, srcPort := 1, magicOk := true, version := 0x32, kind := 1, desk := 0, frameLen := 16, macOk := true, bytes := le 16 0 } }
      : EthFrame), (by decide +kernel),
      ({ port := 0, addr := 1, srcPort := 1, magicOk := true, version := 0x32, kind := 1, desk := 0, frameLen := 16, macOk := true, bytes := le 16 0 }),
      (by decide +kernel)⟩,
   ⟨running, (by decide +kernel), 0, (by decide +kernel), ({ length := 64, tag := none, fcsOk := true, body := .igmpQuery } : EthFrame), (by decide +kernel),
      (fun _ e => EthBody.noConfusion e)⟩,
   ⟨running, (by decide +kernel), 0, (by decide +kernel), false, 0, ex_eq (by decide +kernel)⟩,
   ⟨{ running with eth := (List.replicate 32 EthPort.reset).set 0 { EthPort.reset with link := true, speed := 10000, gateway := 5, arp := [(5, 6)] } },
      (by decide +kernel), 0, (by decide +kernel), 5, (by decide +kernel)⟩,
   ⟨{ running with eth := (List.replicate 32 EthPort.reset).set 0 { EthPort.reset with link := true, speed := 10000, dhcp := true } },
      (by decide +kernel), (by decide +kernel), 0, (by decide +kernel), (by decide +kernel), 9, (by decide +kernel)⟩,
   ⟨{ running with ptp := { Ptp.reset with on := true, ports := [0], states := [9] } }, (by decide +kernel), (by decide +kernel), 0, (by decide +kernel)⟩,
   ⟨{ running with ptp := { Ptp.reset with on := true, ports := [0], role := 1, silent := [0] } }, (by decide +kernel), 0, (by decide +kernel)⟩,
   ⟨{ running with ptp := { Ptp.reset with on := true, ports := [0], role := 1 } }, (by decide +kernel), (by decide +kernel), 0, (by decide +kernel)⟩,
   ⟨rich, (by decide +kernel), (h tStream 0), ex_some (by decide +kernel) (ex_some (by decide +kernel) (by decide +kernel))⟩,
   ⟨running, (by decide +kernel), 0, (by decide +kernel)⟩,
   ⟨(richWith (h tStream 1) fun o => o.onStream fun x => { x with up := [true, false] }), (by decide +kernel), (h tStream 1),
      ex_some (by decide +kernel) (ex_some (by decide +kernel) ⟨1, (by decide +kernel)⟩)⟩,
   ⟨(richWith (h tStream 1) fun o => o.onStream fun x =>
      { x with ethPort2 := portHandle 768, up := [true, false], runs := [0, 8] }), (by decide +kernel), (h tStream 1), ex_some
      (by decide +kernel) (ex_some (by decide +kernel) ⟨2, (by decide +kernel)⟩)⟩⟩

theorem test_CompletionEventsComplete_hypotheses_met :
    (∃ (s : State), s.serving = true ∧ ∃ n, ∃ j, (s.jobs.find? fun j => j.order == n && j.op == 0x0505 && j.stage == 1) = some j ∧ ∃ o,
      s.obj j.handle = some o ∧ ∃ t, o.tiles? = some t ∧ nodeRecordsOk t 0 0 (nodeRecords (u32 j.frame 24) j.data) = .ok () ∧ ∃ (l :
      Launch), launchAt s j.frame 4 = .ok l ∧ ∃ w, ∃ u, applyNodes s o j.frame l (u32 j.frame 20) (nodeRecords (u32 j.frame 24) j.data)
      = .ok (w, u) ∧ True) ∧
    (∃ (s : State), s.serving = true ∧ ∃ j, (s.jobs.find? fun j => j.op == 0x1102 && j.stage == 1) = some j ∧ ∃ a, ∃ b, ∃ p,
      packageCheck s j.data a b = .ok p ∧ True) ∧
    (∃ (s : State), s.serving = true ∧ ∃ j, (s.jobs.find? fun j => j.op == 0x1102 && j.stage == 1) = some j ∧ ∃ a, ∃ b, ∃ n, ∃ e,
      packageCheck s j.data a b = .error (n, e)) ∧
    (∃ (s : State), s.serving = true ∧ ∃ h, ∃ o, s.obj h = some o ∧ ∃ c, o.capture? = some c ∧ c.st = .freezing ∧ c.f + c.post ≤ 8 *
      ((s.dom o.dom).next - 1)) ∧
    (∃ (s : State), s.serving = true ∧ ∃ h, ∃ o, s.obj h = some o ∧ ∃ c, o.capture? = some c ∧ ∃ p, c.play = some p ∧ c.st = .playing ∧
      p.after c.tPlay ≤ 8 * (s.dom o.dom).next) ∧
    (∃ (s : State), s.serving = true ∧ ∃ i, ∃ r, (s.recalls.find? fun r => r.id == i) = some r ∧ r.plan ≠ noPlan ∧ r.quarry = 0 ∧
      r.planned = false ∧ storeFirst s r = false) ∧
    (∃ (s : State), s.serving = true ∧ ∃ i, ∃ a, s.arm i = some a ∧ a.sent = false) ∧
    (∃ (s : State), s.serving = true ∧ ∃ i, ∃ r, (s.recalls.find? fun r => r.id == i) = some r ∧ r.waits = true) ∧
    (∃ (s : State), s.serving = true ∧ s.extId ≠ 0 ∧ s.isKeeper = false) ∧
    (∃ (s : State), s.serving = true ∧ s.extId ≠ 0 ∧ s.isKeeper = true) :=
  ⟨⟨{ rich with jobs := [⟨0, 5, 0x0505, fr (le 4 (h tBlock 0xF0000) ++ le 16 0 ++ le 4 0 ++ le 4 1), 1, (h tBlock 0xF0000), 0, (le 8 0), 1, 1⟩] },
      (by decide +kernel), 1, ex_some (by decide +kernel) (ex_some (by decide +kernel) (ex_some (by decide +kernel) ⟨ok_unit (by decide +kernel), ex_ok (by decide +kernel) (ex_okp (by decide +kernel) trivial)⟩))⟩,
   ⟨{ running with jobs := [⟨0, 5, 0x1102, fr ([]), 1, 0, 0, (le 4 0x474B5043 ++ le 2 1 ++ le 2 256 ++ le 4 9 ++ le 4 1 ++ le 4 0 ++ le 1 0 ++ le 1 0 ++ le 2 1 ++ le 4 1024 ++ le 4 256 ++ le 4 512 ++ le 4 64 ++ le 216 0 ++
    (le 2 1 ++ le 1 1 ++ le 1 1 ++ le 1 0 ++ le 1 22 ++ le 2 0 ++ le 4 64 ++ le 4 64 ++ le 4 64 ++ le 4 64 ++ le 4 64 ++ le 8 0 ++ le 4 0 ++ le 4 320 ++ le 20 0) ++ le 704 0), 1, 1⟩] }, ⟨(by decide +kernel), ex_some (by decide +kernel) ⟨true, ⟨true, ex_ok (by decide +kernel) trivial⟩⟩⟩⟩,
   ⟨{ running with jobs := [⟨0, 5, 0x1102, fr ([]), 1, 0, 0, [], 1, 1⟩] }, (by decide +kernel), ex_some (by decide +kernel) ⟨true, true, 1,
      eRange, (by rfl)⟩⟩,
   ⟨(richWith (h tCapture 0) fun o => o.onCapture fun x =>
      { x with st := .freezing, f := 40000, post := 7992 }), (by decide +kernel), (h tCapture 0), ex_some (by decide +kernel) (ex_some (by decide +kernel) (by decide +kernel))⟩,
   ⟨(richWith (h tCapture 0) fun o => o.onCapture fun x =>
      { x with st := .playing, play := some { s := 40000, start := 0, count := 8000, stop := some 47000 } }),
      (by decide +kernel), (h tCapture 0), ex_some (by decide +kernel) (ex_some (by decide +kernel) (ex_some (by decide +kernel) (by decide +kernel)))⟩,
   ⟨recalling, (by decide +kernel), 2, ex_some (by decide +kernel) (by decide +kernel)⟩,
   ⟨recalling, (by decide +kernel), 3, ex_some (by decide +kernel) (by decide +kernel)⟩,
   ⟨{ recalling with recalls := [{ aRecall 1 true with quarry := 3 }] }, (by decide +kernel), 1, ex_some (by decide +kernel) (by decide +kernel)⟩,
   ⟨{ running with engineId := 1, quarry := { Quarry.reset with keeper := 2, engines := [1, 2], p := 2 } },
      (by decide +kernel)⟩,
   ⟨keeper, (by decide +kernel)⟩⟩

end Sys2Proof.Tests
end

section
/-! The host registers (R13, R14, R516-R519, R524-R527, R541-R544): what each operation does, then each command of the
register interface while the die is on, and from these O33. -/
namespace Sys2Proof.Proofs.Registers
open Sys2Proof.Machine

variable {s : State}

/-! ## The operations behind the commands -/

/-- The index a time capture latches for a domain (R527). -/
def capturedIndex (s : State) (d : Nat) : Nat :=
  match (s.dom d).st with
  | .stopped | .halted => if d == 0 then s.idx d else 2 ^ 64 - 1
  | _ => s.idx d

/-- All ones for a domain B or C without samples. -/
theorem capturedIndex_eq (s : State) (d : Nat) : capturedIndex s d =
    if d ≠ 0 ∧ ((s.dom d).st = .stopped ∨ (s.dom d).st = .halted) then 2 ^ 64 - 1 else s.idx d := by
  unfold capturedIndex
  by_cases hd : d = 0 <;> cases (s.dom d).st <;> simp [hd]

theorem captureTime_eq (s : State) : s.captureTime = s.onHost fun h => { h with
    capSeq := (h.capSeq + 1) % 2 ^ 32, capQ := s.q, capRaw := s.clk.raw % 2 ^ 64,
    capIdx := [capturedIndex s 0, capturedIndex s 1, capturedIndex s 2] } := rfl

theorem capturedIndices_getD (s : State) {d : Nat} (hd : d < 3) :
    [capturedIndex s 0, capturedIndex s 1, capturedIndex s 2].getD d 0 = capturedIndex s d := by
  interval_cases d <;> rfl

theorem snapTake_of_busy {b : Nat} (hb : s.snap.busy b = true) :
    s.snapTake b = { s with snap := { s.snap with bankSel := b, refused := true } } := if_pos hb

theorem snapTake_of_free {b : Nat} (hb : s.snap.busy b = false) :
    s.snapTake b = ({ s with snap := { s.snap with bankSel := b } } : State).takeSnapshot b (s.now + 1) 0 0 0 :=
  if_neg (Bool.eq_false_iff.mp hb)

theorem remap_of_set {v : Nat} (hv : bit v 0 = true) : s.remap v = s.onHost fun h => { h with cpRemap := true } := if_pos hv

theorem remap_of_clear {v : Nat} (hv : bit v 0 = false) : s.remap v = s := if_neg (Bool.eq_false_iff.mp hv)

/-- An access the matrix takes up: 1 to 512 bytes of a master that exists, on a die that is on, outside the host's mailbox window. -/
def Routed (s : State) (a : Access) : Prop :=
  s.dieOn = true ∧ 1 ≤ a.bytes ∧ a.bytes ≤ 512 ∧ a.master ≤ 7 ∧ ¬ (a.master = 1 ∧ 0x10040000 ≤ a.addr ∧ a.addr + a.bytes ≤ 0x10060000)

/-- Past the first two checks only the regions decide (R539, R544). -/
theorem matrix_of_routed {a : Access} (r : Routed s a) : s.matrix a =
    if ∀ i, i < a.bytes → permits s a.master a.write (a.addr + i) = true then s.targetAccess a
    else (s.violation a.master a.addr (enabled a) a.write).answerRead a (zeros a) := by
  obtain ⟨hdie, hmin, hmax, hmaster, hwindow⟩ := r
  have htaken : ¬ (!s.dieOn || a.bytes == 0 || a.bytes > 512 || a.master > 7) = true := by
    simp [hdie]; omega
  have houtside : ¬ (a.master == 1 && barBase + 0x40000 ≤ a.addr && a.addr + a.bytes ≤ barBase + 0x60000) = true := by
    simp only [Bool.and_eq_true, beq_iff_eq, decide_eq_true_eq, and_assoc]
    exact hwindow
  unfold State.matrix
  rw [if_neg htaken, if_neg houtside]
  simp only [List.all_eq_true, List.mem_range]

theorem matrix_of_permitted {a : Access} (r : Routed s a) (hp : ∀ i, i < a.bytes → permits s a.master a.write (a.addr + i) = true) :
    s.matrix a = s.targetAccess a := by rw [matrix_of_routed r, if_pos hp]

theorem matrix_of_violation {a : Access} (r : Routed s a) (hp : ∃ i, i < a.bytes ∧ permits s a.master a.write (a.addr + i) = false) :
    s.matrix a = (s.violation a.master a.addr (enabled a) a.write).answerRead a (zeros a) := by
  obtain ⟨i, hi, hno⟩ := hp
  rw [matrix_of_routed r, if_neg fun hall => Bool.noConfusion (hno.symm.trans (hall i hi))]

/-! ## The commands of a die that is on -/

/-- A register command whose effect needs the die on alone has it. -/
theorem next_of_dieOn (hdie : s.dieOn = true) (t : State) :
    (.next (if s.dieOn then t else s) : Host.Outcome State Fault Refusal) = .next t := congrArg _ (if_pos hdie)

theorem exec_misfitCountRead (hdie : s.dieOn = true) :
    exec .misfitCountRead s = .next ((s.emit (.readData 1 0x10000100 (le 4 s.host.misfitCount))).clearMisfits) := next_of_dieOn hdie _

theorem exec_rvCountRead (hdie : s.dieOn = true) :
    exec .rvCountRead s = .next ((s.emit (.readData 1 0x1000010C (le 4 s.host.rvCount))).clearViolations) := next_of_dieOn hdie _

theorem exec_irqStatusClear (hdie : s.dieOn = true) (m : Nat) :
    exec (.irqStatusClear m) s = .next (s.onHost fun h => { h with irqStatus := w1c h.irqStatus m }) := next_of_dieOn hdie _

theorem exec_stickyWrite (hdie : s.dieOn = true) (m : Nat) :
    exec (.stickyWrite m) s = .next (s.onTiming fun t => { t with sticky := w1c t.sticky m }) := next_of_dieOn hdie _

theorem exec_quarryTimeCapture (hdie : s.dieOn = true) : exec .quarryTimeCapture s = .next s.captureTime := next_of_dieOn hdie _

theorem exec_snapshotTake (hdie : s.dieOn = true) (b : Nat) : exec (.snapshotTake b) s = .next (s.snapTake (b % 2)) :=
  next_of_dieOn hdie _

theorem exec_snapRefusedClear (hdie : s.dieOn = true) {m : Nat} (hm : bit m 10 = true) :
    exec (.snapRefusedClear m) s = .next { s with snap := { s.snap with refused := false } } :=
  congrArg _ (if_pos (by rw [hdie, hm]; rfl))

theorem exec_cpRemapWrite (hdie : s.dieOn = true) (v : Nat) : exec (.cpRemapWrite v) s = .next (s.remap v) := next_of_dieOn hdie _

theorem exec_registerPairLowRead (hdie : s.dieOn = true) (cp : Bool) (o : Nat) : exec (.registerPairLowRead cp o) s =
    .next ((s.regRead cp o).2.emit (.readData (if cp then 0 else 1) (0x10000000 + o) (le 4 (s.regRead cp o).1))) :=
  next_of_dieOn hdie _

theorem exec_registerWrite (hdie : s.dieOn = true) {o : Nat} (ho : o % 4 = 0) (v : Word) :
    exec (.registerWrite o v) s = .next (s.regWrite 1 o v.toNat) :=
  congrArg _ (if_pos (by rw [hdie, ho]; rfl))

theorem exec_matrixAccess (s : State) (a : Access) : exec (.matrixAccess a) s = .next (s.matrix a) := rfl

/-- With no bulk transfer in progress the reset of the endpoint only takes its link down (R522). -/
theorem exec_endpointReset (hdie : s.dieOn = true) (hidle : pcieBulk s = []) :
    exec .endpointReset s = .next (s.onHost fun h => { h with pcieUp := false }) := by
  change execEndpointReset s = _
  simp [execEndpointReset, hdie, hidle]

theorem exec_pcieLinkUp (hdie : s.dieOn = true) : exec .pcieLinkUp s = .next (s.onHost fun h => { h with pcieUp := true }) :=
  next_of_dieOn hdie _

end Sys2Proof.Proofs.Registers

namespace Sys2Proof.Proofs
open Sys2Proof.Machine Registers

/-- Settles O33: each clause is the command's rule above, with the branch of its operation that the clause's hypotheses choose. -/
theorem registersComplete : Obligations.RegistersComplete := by
  intro s hdie
  refine ⟨exec_misfitCountRead hdie, exec_rvCountRead hdie, exec_irqStatusClear hdie, exec_stickyWrite hdie, ?capture, ?busy, ?free,
    fun _ => exec_snapRefusedClear hdie, ?remapSet, ?remapClear, exec_registerPairLowRead hdie,
    fun _ v ho => exec_registerWrite hdie ho v, ?permitted, ?violation, exec_endpointReset hdie, exec_pcieLinkUp hdie⟩
  case capture => exact ⟨_, by rw [exec_quarryTimeCapture hdie, captureTime_eq], fun d hd => by rw [capturedIndices_getD s hd, capturedIndex_eq]⟩
  case busy => intro b hb; rw [exec_snapshotTake hdie, snapTake_of_busy hb]
  case free => intro b hb; rw [exec_snapshotTake hdie, snapTake_of_free hb]
  case remapSet => intro v hv; rw [exec_cpRemapWrite hdie, remap_of_set hv]
  case remapClear => intro v hv; rw [exec_cpRemapWrite hdie, remap_of_clear hv]
  case permitted =>
    intro a hmin hmax hmaster hwindow hp
    rw [exec_matrixAccess, matrix_of_permitted ⟨hdie, hmin, hmax, hmaster, hwindow⟩ hp]
  case violation =>
    intro a hmin hmax hmaster hwindow hp
    rw [exec_matrixAccess, matrix_of_violation ⟨hdie, hmin, hmax, hmaster, hwindow⟩ hp]

end Sys2Proof.Proofs
end

section
/-! Quarry time and sample indices (R32-R41): the index of an instant and the instant of an index are adjoint, a rate update keeps
quarry time at its RAW value, and a step on an empty queue only lets RAW count. From these O55, O56 and O46. -/
namespace Sys2Proof.Proofs.QuarryTime
open Sys2Proof.Machine Sys2Proof.Laws

/-! ## Indices and instants (R37) -/

theorem rateHz_mem (code : Nat) : rateHz code ∈ [44100, 48000, 88200, 96000, 176400, 192000] := by
  unfold rateHz
  split <;> decide

theorem rateHz_pos (code : Nat) : 0 < rateHz code :=
  (by decide : ∀ fs ∈ [44100, 48000, 88200, 96000, 176400, 192000], 0 < fs) _ (rateHz_mem code)

/-- No rate is finer than the resolution of quarry time. -/
theorem rateHz_le_secondQ (code : Nat) : rateHz code ≤ secondQ :=
  (by decide : ∀ fs ∈ [44100, 48000, 88200, 96000, 176400, 192000], fs ≤ secondQ) _ (rateHz_mem code)

theorem secondQ_pos : 0 < secondQ := by decide

theorem ceilDiv_eq {m : Nat} (hm : 0 < m) (n : Nat) : ceilDiv n m = n ⌈/⌉ m :=
  if_neg (by simpa using hm.ne')

theorem ceilDiv_mul_lt {m : Nat} (hm : 0 < m) (n : Nat) : ceilDiv n m * m < n + m := by
  have hle : ceilDiv n m * m ≤ n + m - 1 := by
    rw [ceilDiv_eq hm, Nat.ceilDiv_eq_add_pred_div]
    exact Nat.div_mul_le_self _ _
  omega

/-- The instant of a sample is the least quarry time whose index has reached it. -/
theorem instantOf_le_iff {fs : Nat} (hfs : 0 < fs) (n q : Nat) : instantOf n fs ≤ q ↔ n ≤ indexAt q fs := by
  unfold instantOf indexAt
  rw [ceilDiv_eq hfs, ceilDiv_le_iff_le_mul hfs, Nat.le_div_iff_mul_le secondQ_pos, Nat.mul_comm fs]

theorem indexAt_instantOf {fs : Nat} (hfs : 0 < fs) (hres : fs ≤ secondQ) (n : Nat) : indexAt (instantOf n fs) fs = n := by
  have hreached : n ≤ indexAt (instantOf n fs) fs := (instantOf_le_iff hfs n _).1 le_rfl
  have hnotNext : indexAt (instantOf n fs) fs < n + 1 := by
    unfold indexAt
    rw [Nat.div_lt_iff_lt_mul secondQ_pos]
    calc instantOf n fs * fs < n * secondQ + fs := ceilDiv_mul_lt hfs _
      _ ≤ (n + 1) * secondQ := by rw [Nat.add_one_mul]; exact Nat.add_le_add_left hres _
  omega

/-! ## Ticks (R41) -/

theorem eight_dvd_tickLen (s : State) (d : Nat) : 8 ∣ s.tickLen d := Dvd.dvd.mul_right (by decide) _

/-! ## The update of RATE and OFFSET (R34) -/

/-- What the new pair gives at `c` is what the old one gave: the new OFFSET makes up for the new RATE in 96 bits. -/
theorem quarryAt_setRate (s : State) (rate c : Nat) : quarryAt (s.setRate rate c).clk c = quarryAt s.clk c := by
  change ((s.clk.offset + s.clk.rate * c / 2 ^ 24 + 2 ^ 96 - rate * c / 2 ^ 24 % 2 ^ 96) % 2 ^ 96 + rate * c / 2 ^ 24) % 2 ^ 96 =
    (s.clk.offset + s.clk.rate * c / 2 ^ 24) % 2 ^ 96
  generalize s.clk.offset + s.clk.rate * c / 2 ^ 24 = old
  generalize rate * c / 2 ^ 24 = new
  omega

/-! ## A TIME cycle without a command (R32) -/

theorem wakeUp_of_low {s : State} (hwake : s.sv.wake = false) : s.wakeUp = s := if_pos (by simp [hwake])

/-- With no restart due and WAKE low a TIME cycle of a running die is one count of RAW. -/
theorem timePass_of_dieOn {s : State} (hdie : s.dieOn = true) (hrestart : s.host.restart = none) (hwake : s.sv.wake = false) :
    s.timePass = s.toRaw (s.clk.raw + 1) := by
  obtain ⟨outbox, last, hraw⟩ := toRaw_frame s (s.clk.raw + 1)
  simp only [State.timePass, hdie, Bool.true_or, if_true, hraw, hrestart]
  exact wakeUp_of_low hwake

/-- A supervisor that waits in WATCH has no die that counts. -/
theorem timePass_of_watch {s : State} (hwatch : s.sv.st = .watch) (hrestart : s.host.restart = none) (hwake : s.sv.wake = false) :
    s.timePass = s := by
  have hdie : s.dieOn = false := by simp [State.dieOn, hwatch]
  have hseq : (s.sv.st == .sequencing && s.sv.step == 10) = false := by rw [hwatch]; rfl
  simp only [State.timePass, hdie, hseq, Bool.or_self, Bool.false_eq_true, if_false, hrestart]
  exact wakeUp_of_low hwake

theorem step_of_empty {s : State} (hempty : s.pending = []) : step s = .next s.timePass := by
  simp only [step, hempty]

end Sys2Proof.Proofs.QuarryTime

namespace Sys2Proof.Proofs
open Sys2Proof.Machine Sys2Proof.Laws QuarryTime

/-- Settles O55: index and instant are adjoint (`instantOf_le_iff`), and no rate is finer than the resolution of quarry time. -/
theorem indexAndInstant : Obligations.IndexAndInstant := by
  intro s d
  have hfs : 0 < s.fs d := rateHz_pos _
  refine ⟨rateHz_mem _, rfl, fun n => ⟨indexAt_instantOf hfs (rateHz_le_secondQ _) n, ?before⟩, ?ashlar, rfl, ?tick⟩
  case before =>
    intro q hq
    rw [← not_le] at hq ⊢
    exact mt (instantOf_le_iff hfs n q).2 hq
  case ashlar =>
    rintro i rfl
    unfold State.ash
    omega
  case tick => exact fun k => Nat.mod_eq_zero_of_dvd ((eight_dvd_tickLen s d).mul_left k)

/-- Settles O56: RATE is the new one, RAW stands, and `quarryAt_setRate` at `c`, and at the present RAW, is the continuity. -/
theorem rateChangeIsContinuous : Obligations.RateChangeIsContinuous := fun s rate c =>
  ⟨rfl, (quarryAt_setRate s rate c).symm, quarryAt_setRate s rate c, rfl, quarryAt_setRate s rate s.clk.raw⟩

/-- Settles O46: an empty queue leaves the TIME cycle alone, whose frame is that of `State.toRaw`. -/
theorem stepTakesTheFront : Obligations.StepTakesTheFront := by
  intro s
  refine ⟨fun _ _ => rfl, ?running, ?watch⟩
  case running =>
    intro hempty hdie hrestart hwake
    obtain ⟨outbox, last, hraw⟩ := toRaw_frame s (s.clk.raw + 1)
    have hstep : step s = .next (s.toRaw (s.clk.raw + 1)) := by rw [step_of_empty hempty, timePass_of_dieOn hdie hrestart hwake]
    rw [hraw] at hstep
    exact ⟨_, hstep, rfl, hempty, rfl, rfl, rfl⟩
  case watch =>
    intro hempty hwatch hwake hrestart
    rw [step_of_empty hempty, timePass_of_watch hwatch hrestart hwake]

end Sys2Proof.Proofs
end

section
/-! The quarry's control (R49, R363, R377-R382): what each control event does on an engine of a quarry, and from these O42. -/
namespace Sys2Proof.Proofs.QuarryControl
open Sys2Proof.Machine

variable {s : State}

theorem inQuarry_of (hdie : s.dieOn = true) (hid : s.extId ≠ 0) : s.inQuarry = true := by simp [State.inQuarry, hdie, hid]

theorem next_of_inQuarry (hin : s.inQuarry = true) (t : State) :
    (.next (if s.inQuarry then t else s) : Host.Outcome State Fault Refusal) = .next t := congrArg _ (if_pos hin)

/-! ## Reports -/

theorem exec_topologyReportSend (hin : s.inQuarry = true) : exec .topologyReportSend s = .next s.sendReport := next_of_inQuarry hin _

theorem exec_topologyReport (hin : s.inQuarry = true) (e : Nat) (es : List TopoEntry) :
    exec (.topologyReport e es) s = .next (s.reportIn e es) := next_of_inQuarry hin _

/-- The keeper puts a report in the place of the engine's last one and works the tree out again (R381). -/
theorem reportIn_of_keeper (hk : s.isKeeper = true) (e : Nat) (es : List TopoEntry) : s.reportIn e es =
    (s.onQuarry fun q => { q with reports := (e, es) :: q.reports.filter fun r => r.1 != e }).settleTree :=
  if_neg (by simp [hk])

/-! ## Proposal, votes and commit -/

theorem exec_pPropose (hin : s.inQuarry = true) (p src : Nat) : exec (.pPropose p src) s = .next (s.proposeIn p src) :=
  next_of_inQuarry hin _

theorem proposeIn_of_member (hk : s.isKeeper = false) (p src : Nat) :
    s.proposeIn p src = s.sendCtrl 4 src (settingBody (if mayTakeP s p then 2 else 3) p 0) := if_neg (by simp [hk])

theorem exec_pAccept (hin : s.inQuarry = true) (e : Nat) (accept : Bool) : exec (.pAccept e accept) s = .next (s.acceptIn e accept) :=
  next_of_inQuarry hin _

/-- A proposal that still waits for an answer fails at the timeout. -/
theorem exec_pVoteTimeout (hdie : s.dieOn = true) {p order : Nat} {yes wait : List Nat}
    (hprop : s.quarry.proposal = some (p, order, yes, wait)) (hwait : wait ≠ []) : exec .pVoteTimeout s = .next (s.failP order) := by
  change execPVoteTimeout s = _
  simp [execPVoteTimeout, hprop, hdie, hwait]

theorem exec_pCommit (hin : s.inQuarry = true) (p a : Nat) : exec (.pCommit p a) s = .next (s.commitIn p a) := next_of_inQuarry hin _

theorem commitIn_of_member (hk : s.isKeeper = false) (p a : Nat) :
    s.commitIn p a = s.onQuarry fun q => { q with nextP := p, nextAt := a } := if_neg (by simp [hk])

/-! ## The committed depth comes into force -/

/-- The committed depth is in force, no proposal stands, and desk 0 hears of it. -/
def depthInForce (u : State) : State :=
  (u.onQuarry fun q => { q with p := q.nextP, nextAt := 0, proposal := none }).raise0 0x1304
    (le 2 u.quarry.nextP ++ le 2 0 ++ le 8 u.quarry.nextAt)

/-- The deferred command of acceptance order `order`, if it is still open, completes. -/
def completeOrder (order : Option Nat) (t : State) : State :=
  match t.jobs.find? fun j => some j.order == order with
  | some j => t.done j 0
  | none => t

theorem completeOrder_none (t : State) : completeOrder none t = t := by
  have hnone : (t.jobs.find? fun j => some j.order == none) = none := List.find?_eq_none.2 (by simp)
  simp only [completeOrder, hnone]

theorem completeOrder_of_found {t : State} {order : Option Nat} {j : Job} (hj : (t.jobs.find? fun j => some j.order == order) = some j) :
    completeOrder order t = t.done j 0 := by
  simp only [completeOrder, hj]

/-- RAW is carried to the announced ashlar, the depth is in force there, and the keeper's `seam.p.set` completes (R381). -/
theorem exec_pChangeApply (hdie : s.dieOn = true) (hdue : s.quarry.nextAt ≠ 0) {u : State}
    (hu : u = s.carryTo (instantOf (8 * s.quarry.nextAt) (s.fs 0))) :
    exec .pChangeApply s = .next (completeOrder (u.quarry.proposal.map (·.2.1)) (depthInForce u)) := by
  subst hu
  exact congrArg _ (if_neg (by simp [hdie, hdue]))

end Sys2Proof.Proofs.QuarryControl

namespace Sys2Proof.Proofs
open Sys2Proof.Machine QuarryControl

/-- Settles O42: each clause is the event's rule above, on the side of the quarry (keeper or member) that the clause names. -/
theorem quarryControlCompletes : Obligations.QuarryControlCompletes := by
  intro s hdie hid
  have hin := inQuarry_of hdie hid
  refine ⟨exec_topologyReportSend hin, ?report, ?propose, fun e => ⟨exec_pAccept hin e false, exec_pAccept hin e true⟩,
    fun _ _ _ _ hprop hwait => exec_pVoteTimeout hdie hprop hwait, ?commit, ?applyUnproposed, ?applyProposed⟩
  case report => intro e es hk; rw [exec_topologyReport hin, reportIn_of_keeper hk]
  case propose => intro p src hk; rw [exec_pPropose hin, proposeIn_of_member hk]
  case commit => intro p a hk; rw [exec_pCommit hin, commitIn_of_member hk]
  case applyUnproposed =>
    intro u hdue hu hprop
    rw [exec_pChangeApply hdie hdue hu, hprop, Option.map_none, completeOrder_none, depthInForce]
  case applyProposed =>
    intro u t p order yes wait j hdue hu hprop ht hj
    subst ht
    rw [exec_pChangeApply hdie hdue hu, hprop]
    exact congrArg _ (completeOrder_of_found hj)

end Sys2Proof.Proofs
end

section
/-! The ring and route commands (R55-R85, R324-R326): a command whose own checks all pass answers OK with its effect in force. Each
proof walks the checks of the command's body in their order (R309). From these O9 and O10. -/
namespace Sys2Proof.Proofs.RingsAndRoutes
open Sys2Proof.Machine Sys2Proof.Laws

variable {f : CmdFrame} {s u : State}

/-- A body that answers OK completes its command. -/
theorem ruzia_of_okResp {o : RuziaOp} {p : List Byte} (t : Taken o f s) (h : o.body s f = okResp u p) :
    ruzia o f s = answered o f u 0 p := ruzia_ok (r := ⟨0, p⟩) t h

/-- Checks that a body makes under a condition alone are passed when they pass under it. -/
theorem onlyIf_then {β : Type} {r guarded rest : Except Err β} {c : Prop} [Decidable c] (h : c → rest = r → guarded = r) (k : rest = r) :
    (if c then guarded else rest) = r := by
  by_cases hc : c
  · rw [if_pos hc, h hc k]
  · rw [if_neg hc, k]

/-- What `route.cut`, `route.kerf` and `route.set` share: every record passes and is applied, or none is (R326). -/
theorem routeChangeBody_ok {op kind : Nat} {l : Launch} {qs : List RouteReq} (hcount : (1 ≤ u16 f 16 && u16 f 16 ≤ 11) = true)
    (hzero : fld f 18 2 = 0) (hl : launchAt s f 0 = .ok l) (hqs : eachItem (routeRecord kind s f l) (u16 f 16) 0 = .ok qs)
    (hlist : routeListOk s qs = .ok ()) (hbusy : (qs.zipIdx.forM fun q => routeRecordBusy s q.2 q.1) = .ok ())
    (happly : routeApply op f qs s = .ok u) (hlate : (qs.forM fun q => lateCheck f q.when_) = .ok ()) :
    routeChangeBody op kind s f = okResp u (qs.flatMap fun q => le 8 q.when_.index) :=
  need_then hcount <| reserved_then hzero <| ok_then hl <| ok_then hqs <| ok_then hlist <| ok_then hbusy <| ok_then happly <|
    ok_then hlate rfl

end Sys2Proof.Proofs.RingsAndRoutes

namespace Sys2Proof.Proofs
open Sys2Proof.Machine Sys2Proof.Laws RingsAndRoutes

/-- Settles O9: the checks of each body pass in their order; those of deep rings are made for a deep depth alone. -/
theorem ringCompletes : Obligations.RingCompletes := by
  intro f s
  refine ⟨?info, ?alloc, ?free, ?deep⟩
  case info =>
    intro t o ho r hr
    exact ruzia_of_okResp t <| resolve_then ho <| by rw [hr]
  case alloc =>
    rintro t d hd c hc _ rfl hcount _ rfl _ rfl hdepth hclass hdom hrows hdeepRows hroom i s₁ halloc
    exact ruzia_of_okResp t <| ok_then hd <| ok_then hc <| need_then hcount <| need_then hdepth <| ok_then hclass <| ok_then hdom <|
      ok_then hrows <| onlyIf_then (fun hdeep k => ok_then (hdeepRows hdeep) (need_then (hroom hdeep) k)) <| ok_then halloc rfl
  case free =>
    intro t o ho hfree n s₁ hstart
    exact ruzia_of_okResp t <| ok_then ho <| ok_then hfree <| by rw [hstart]
  case deep =>
    rintro t o ho hdesk r hr _ rfl hdepth _ rfl _ rfl hreaders hlanded hopen hdeepRows _ rfl _ rfl hroom _ rfl
    refine ruzia_of_okResp t <| resolve_then ho <| owned_then hdesk ?_
    rw [hr]
    exact need_then hdepth <| need_then hreaders <| need_then hlanded <| settled_then hopen <|
      onlyIf_then (fun hdeep k => ok_then (hdeepRows hdeep) (need_then (hroom hdeep) k)) rfl

/-- Settles O10: the checks of each body pass in their order; the three changes of a route share `routeChangeBody_ok`. -/
theorem routeCompletes : Obligations.RouteCompletes := by
  intro f s
  refine ⟨?info, ?create, ?delete, ?cut, ?kerf, ?set, ?policy⟩
  case info =>
    intro t o ho r hr
    exact ruzia_of_okResp t <| resolve_then ho <| by rw [hr]
  case create =>
    rintro t _ rfl _ rfl _ rfl _ rfl _ rfl k hk hring hdesk hzero₁ hfit _ rfl hpolicy _ rfl law hlaw cls hcls hzero₁₉ time htime hoffset
      l hl hsource hopen hfree _ rfl hloop hpermit hclass _ rfl w hw hkerf hquota s₁ hadmit i s₂ hadd _ _ ⟨⟩ _ rfl _ rfl hlate _ rfl
    -- steps 9 to 11 of R309: the handles, who may change the sink, the ranges
    refine ruzia_of_okResp t <| ok_then hk <| onlyIf_then (fun hsrc k => let ⟨_, hy⟩ := hring hsrc; resolve_then hy k) <|
      need_then hdesk <| reserved_then hzero₁ <| need_then hfit <| need_then hpolicy <| ok_then hlaw <| ok_then hcls <|
      reserved_then hzero₁₉ <| ok_then htime <| need_then (decide_eq_true hoffset) <| ok_then hl ?_
    -- steps 12 to 14: the sink's state and the feed graph, the class, the waiting Kerf
    refine ok_then hsource <| need_then hopen <| need_then hfree <| ok_then hloop <| ok_then hpermit <|
      need_then (decide_eq_true hclass) <| ok_then hw <|
      onlyIf_then (fun hfades k => ok_then (hkerf hfades) k) ?_
    -- steps 15 to 17: the quota, the room, the launch in time
    exact ok_then hquota <| ok_then hadmit <| ok_then hadd <| ok_then hlate rfl
  case delete =>
    intro t o ho hdesk hopen hstaged
    exact ruzia_of_okResp t <| resolve_then ho <| owned_then hdesk <| settled_then hopen <| need_then hstaged rfl
  case cut | kerf | set =>
    rintro t _ rfl hcount hzero l hl qs hqs hlist hbusy s₁ happly hlate
    exact ruzia_of_okResp t (routeChangeBody_ok hcount hzero hl hqs hlist hbusy happly hlate)
  case policy =>
    rintro t o ho hdesk r hr hpolicy _ rfl law hlaw hzero time htime hopen
    refine ruzia_of_okResp t <| resolve_then ho <| owned_then hdesk ?_
    rw [hr]
    exact need_then hpolicy <| ok_then hlaw <| reserved_then hzero <| ok_then htime <| settled_then hopen rfl

end Sys2Proof.Proofs
end

section
/-! Faults, spares and snapshots (R87, R88, R118, R192, R193, R489, R497-R499, R504, R514-R520): what each event does on a die that
is on, and from these O38. -/
namespace Sys2Proof.Proofs.Repairs
open Sys2Proof.Machine Sys2Proof.Laws

variable {s : State}

/-! ## Copies that have ended -/

/-- The row of the copy takes the place of the ring's own, and the ring's desk hears of it (R87). -/
theorem exec_relocationSwitch (hdie : s.dieOn = true) {ring part bank row : Nat} {o : Obj} {x : Machine.Ring}
    (hmoving : s.faults.moving.contains (ring, part, bank, row) = true) (hring : s.ringAt ring = some (o, x)) :
    exec (.relocationSwitch ring part bank row) s = .next
      (((s.onFaults fun x => { x with moving := x.moving.filter (· != (ring, part, bank, row)) }).moveRow ring part (bank, row)).ringMoved
        ring ((x.rows[part]?).getD (0, 0)).1 (bank, row)) := by
  have hring' : (s.onFaults fun x => { x with moving := x.moving.filter (· != (ring, part, bank, row)) }).ringAt ring = some (o, x) := hring
  change execRelocationSwitch ring part bank row s = _
  simp only [execRelocationSwitch, hdie, hmoving, hring, hring', Bool.not_true, Bool.or_self, Bool.false_eq_true, if_false, Option.bind_some]

theorem exec_bankSpareSwitch (hdie : s.dieOn = true) (failed : Nat) :
    exec (.bankSpareSwitch failed) s = .next (s.switchSpare 3 failed) := if_pos hdie

/-- A shadow that agrees has nothing to report before the switch (R193). -/
theorem exec_arraySpareSwitch_agreeing (hdie : s.dieOn = true) {failed : Nat}
    (hwork : (s.faults.work.any fun w => w.kind == 2 && w.failed == failed) = true) :
    exec (.arraySpareSwitch failed []) s = .next (s.switchSpare 2 failed) := if_neg (by simp [hdie, hwork])

theorem exec_transplantSwitch_agreeing (hdie : s.dieOn = true) {source target : Nat} {t : Transplant}
    (hmove : (s.moves.find? fun m => m.source == source && m.target == target) = some t) (lost : List Nat) :
    exec (.transplantSwitch source target false lost) s = .next (s.switchMove t lost) := by
  change execTransplantSwitch source target false lost s = _
  simp [execTransplantSwitch, hdie, hmove]

/-! ## Errors and tests -/

theorem exec_scrubPass (hdie : s.dieOn = true) (es : List MemError) :
    exec (.scrubPass es) s = .next (es.foldl (fun s e => s.memError e) s) := if_pos hdie

theorem exec_backgroundTest (hserves : s.serving = true) {kind unit : Nat} (hidle : idleUnit s kind unit = true) (pass : Bool) :
    exec (.backgroundTest kind unit pass) s = .next (if pass then
      (if kind = 1 then s.setCore unit fun c => { c with suspect := false } else s) else s.lasting kind unit 0) := by
  change execBackgroundTest kind unit pass s = _
  cases pass <;> simp [execBackgroundTest, hserves, hidle]

/-- The unit goes back to its place, or is a lasting fault (R499). -/
theorem exec_spareTestComplete (hserves : s.serving = true) {kind unit : Nat} {t : Nat × Nat × Nat × Nat}
    (hidle : (s.faults.work.any fun w => w.kind == kind && w.test) = false)
    (htest : (s.faults.tests.find? fun t => t.1 == kind && t.2.1 == unit) = some t) (pass : Bool) :
    exec (.spareTestComplete kind unit pass) s = .next (if pass then s.startSwap kind t.2.2.1 unit true else s.lasting kind unit 0) := by
  change execSpareTestComplete kind unit pass s = _
  cases pass <;> simp [execSpareTestComplete, hserves, hidle, htest]

/-! ## The control halt (R504) -/

@[simp] theorem irq_halted (s : State) (v : Nat) : (s.irq v).halted = s.halted := by
  unfold State.irq
  split <;> rfl

theorem controlHalt_halted (s : State) : s.controlHalt.halted = true := by
  unfold State.controlHalt
  by_cases hhalted : s.halted = true
  · rw [if_pos hhalted]; exact hhalted
  · rw [if_neg hhalted]
    dsimp only
    split
    · rw [irq_halted]
    · rfl

theorem exec_lockstepMismatch (hdie : s.dieOn = true) : exec .lockstepMismatch s = .next s.controlHalt := if_pos hdie

/-! ## Snapshots -/

/-- The end of the ashlar the snapshot names. -/
theorem exec_snapshotLatch (hdie : s.dieOn = true) {bank : Nat} {p : PendSnap}
    (hpending : (s.snap.pending.find? fun p => p.bank == bank) = some p) (hcounts : p.counts = none) (hruns : (s.dom 0).runs = true)
    (hgap : p.gap = false) (hended : p.ashlar < (s.dom 0).next) {u : State}
    (hu : u = s.carryTo (instantOf (8 * (p.ashlar + 1)) (s.fs 0))) : exec (.snapshotLatch bank) s = .next (u.writeBank p u.ctrs) := by
  change execSnapshotLatch bank s = _
  subst hu
  simp [execSnapshotLatch, hpending, hdie, hcounts, hruns, hgap, hended]

theorem exec_quarrySnapshotRecord (hin : s.inQuarry = true) (bank ashlar keeper keeperSeq : Nat) :
    exec (.quarrySnapshotRecord bank ashlar keeper keeperSeq) s = .next (s.quarrySnapshot bank ashlar keeper keeperSeq) :=
  QuarryControl.next_of_inQuarry hin _

/-- A record is taken for a bank that exists and is free, two ashlars or more ahead (R520). -/
theorem quarrySnapshot_eq (s : State) (bank ashlar keeper keeperSeq : Nat) : s.quarrySnapshot bank ashlar keeper keeperSeq =
    if bank ≤ 1 ∧ s.now + 2 ≤ ashlar ∧ s.snap.busy bank = false then s.takeSnapshot bank ashlar 2 keeper keeperSeq else s := by
  simp [State.quarrySnapshot, and_assoc]

end Sys2Proof.Proofs.Repairs

namespace Sys2Proof.Proofs
open Sys2Proof.Machine Repairs

/-- Settles O38: each clause is the event's rule above, with the outcome of a test split by whether the unit passed. -/
theorem repairsComplete : Obligations.RepairsComplete := by
  intro s hdie
  refine ⟨fun _ _ _ _ _ _ => exec_relocationSwitch hdie, exec_scrubPass hdie, exec_bankSpareSwitch hdie,
    fun _ => exec_arraySpareSwitch_agreeing hdie, fun _ _ lost _ hmove => exec_transplantSwitch_agreeing hdie hmove lost,
    fun _ _ hserves hidle => ⟨exec_backgroundTest hserves hidle false, exec_backgroundTest hserves hidle true⟩,
    fun _ _ _ hserves hidle htest => ⟨exec_spareTestComplete hserves hidle htest true, exec_spareTestComplete hserves hidle htest false⟩,
    ⟨_, exec_lockstepMismatch hdie, controlHalt_halted s⟩,
    fun _ _ hpending hcounts hruns hgap hended => exec_snapshotLatch hdie hpending hcounts hruns hgap hended rfl, ?record⟩
  case record =>
    intro bank ashlar keeper keeperSeq hid
    rw [exec_quarrySnapshotRecord (QuarryControl.inQuarry_of hdie hid), quarrySnapshot_eq]

end Sys2Proof.Proofs
end

section
/-! Seam lanes (R357-R379): what each event of a lane does on a die that is on, and from these O41. -/
namespace Sys2Proof.Proofs.LaneEvents
open Sys2Proof.Machine

variable {s : State} {l : Nat}

/-! ## Frames that arrive -/

theorem exec_seamHeaderReceived_bad (hhears : hears s l = true) {h : SeamHdr} (hbad : (h.ok && h.ashOk) = false) :
    exec (.seamHeaderReceived l h) s = .next (s.headerBad l) :=
  congrArg _ ((if_neg (by rw [hhears]; decide)).trans (if_pos (by rw [hbad]; rfl)))

/-- A lane that is up takes the values of a good header, then its records. -/
theorem exec_seamHeaderReceived_good (hhears : hears s l = true) {h : SeamHdr} (hok : h.ok = true) (hash : h.ashOk = true)
    (hloop : loopsBack (s.headerIn l h) l = false) (hup : ((s.headerIn l h).lane l).isUp = true) :
    exec (.seamHeaderReceived l h) s = .next ((s.headerIn l h).recordsIn l h.records) := by
  change execSeamHeaderReceived l h s = _
  simp [execSeamHeaderReceived, hhears, hok, hash, hloop, hup]

theorem exec_segmentReceived (hhears : hears s l = true) (hloop : loopsBack s l = false) (hup : (s.lane l).isUp = true)
    (pos : Nat) (g : Segment) :
    exec (.segmentReceived l pos g) s = .next ((s.segmentIn l pos g).2.recordsIn l (s.segmentIn l pos g).1) := by
  change execSegmentReceived l pos g s = _
  simp [execSegmentReceived, hhears, hloop, hup]

/-! ## Repeats (R369, R370) -/

/-- A readable request owes a resend of a position still held. -/
theorem exec_nakReceived_held (hdie : s.dieOn = true) (hup : (s.lane l).isUp = true) {pos low fr : Nat}
    (hheld : (s.lane l).resendable pos low s.frame = some fr) : exec (.nakReceived l pos low true) s =
      .next ((s.setLane l fun x => { x with owed := x.owed ++ [(pos, fr)] }).fillFrame l) := by
  change execNakReceived l pos low true s = _
  simp [execNakReceived, hdie, hup, hheld]

/-- A request that fails its check is counted alone. -/
theorem exec_nakReceived_unreadable (hdie : s.dieOn = true) (hup : (s.lane l).isUp = true) (pos low : Nat) :
    exec (.nakReceived l pos low false) s = .next (s.addCtr (ctrLane l 4) 1) := by
  change execNakReceived l pos low false s = _
  simp [execNakReceived, hdie, hup]

/-- A control segment whose window closes is forgotten: it was no data that a landing could miss (R370). -/
theorem exec_retryWindowClose_control (hdie : s.dieOn = true) {seg ashlar : Nat}
    (hwindow : ((s.lane l).windows.any fun w => w.seg == seg && w.ashlar == ashlar) = true) (hcontrol : 28 ≤ seg) :
    exec (.retryWindowClose l seg ashlar) s = .next (s.setLane l fun x => { x with
      windows := x.windows.filter (fun w => !(w.seg == seg && w.ashlar == ashlar)), held := (seg, ashlar) :: x.held }) := by
  have hopen : (s.dieOn && (s.lane l).windows.any fun w => w.seg == seg && w.ashlar == ashlar) = true := by rw [hdie, hwindow]; rfl
  exact congrArg _ ((if_pos hopen).trans (if_pos hcontrol))

/-! ## States of a lane (R372) -/

theorem exec_laneSignalDetect (hdie : s.dieOn = true) (hmode : seamMode s l = true) (hdown : (s.lane l).st = .down) :
    exec (.laneSignalDetect l) s = .next ((s.setLane l Lane.train).laneTo l .training) :=
  congrArg _ (if_pos (by rw [hdie, hmode, hdown]; rfl))

theorem exec_laneUp (hdie : s.dieOn = true) (htraining : (s.lane l).st = .training) (hvalid : 3 ≤ (s.lane l).valid)
    (hid : s.extId ≠ 0) (hpeer : (s.lane l).peer ≠ 0) (hother : (s.lane l).peer ≠ s.extId) :
    exec (.laneUp l) s = .next (s.laneTo l .up) :=
  congrArg _ (if_pos (by simp [hdie, htraining, hvalid, hid, hpeer, hother]))

theorem exec_laneAshTimeout (hdie : s.dieOn = true) (hup : (s.lane l).isUp = true) :
    exec (.laneAshTimeout l) s = .next (((s.laneTo l .down).setLane l Lane.train).laneTo l .training) :=
  congrArg _ (if_pos (by rw [hdie, hup]; rfl))

/-! ## Relays (R379) -/

/-- The records that have waited 32 ashlars are dropped and counted, if there is one. -/
theorem exec_ctrlRecordExpiry (hdie : s.dieOn = true)
    (hold : ((s.lane l).relays.any fun r => decide (r.since + 32 ≤ s.now)) = true) :
    exec (.ctrlRecordExpiry l) s = .next ((s.setLane l fun x => { x with relays := x.relays.filter fun r => !(r.since + 32 ≤ s.now) }).addCtr
      (ctrLane l 7) ((s.lane l).relays.filter fun r => r.since + 32 ≤ s.now).length) := by
  have hsome : ((s.lane l).relays.filter fun r => decide (r.since + 32 ≤ s.now)).isEmpty = false := by
    rwa [List.isEmpty_eq_false_iff, ne_eq, List.filter_eq_nil_iff, ← List.any_eq_false, Bool.not_eq_false]
  exact congrArg _ (if_pos (by rw [hdie, hsome]; rfl))

end Sys2Proof.Proofs.LaneEvents

namespace Sys2Proof.Proofs
open Sys2Proof.Machine LaneEvents

/-- Settles O41: each clause is the event's rule above. -/
theorem laneEventsComplete : Obligations.LaneEventsComplete := fun _ _ hdie =>
  ⟨fun _ hhears hbad => exec_seamHeaderReceived_bad hhears hbad,
    fun _ hhears hok hash hloop hup => exec_seamHeaderReceived_good hhears hok hash hloop hup,
    fun pos g hhears hloop hup => exec_segmentReceived hhears hloop hup pos g,
    fun _ _ _ hup hheld => exec_nakReceived_held hdie hup hheld,
    fun pos low hup => exec_nakReceived_unreadable hdie hup pos low,
    fun _ _ hwindow hcontrol => exec_retryWindowClose_control hdie hwindow hcontrol,
    exec_laneSignalDetect hdie, exec_laneUp hdie, exec_laneAshTimeout hdie, exec_ctrlRecordExpiry hdie⟩

end Sys2Proof.Proofs
end

section
/-! The package, key slot and block commands (R98-R117, R338-R340): a command whose own checks all pass answers with its effect in
force. Each proof walks the checks of the command's body in their order (R309). From these O21 and O22. -/
namespace Sys2Proof.Proofs.Blocks
open Sys2Proof.Machine Sys2Proof.Laws

variable {f : CmdFrame} {s u : State}

/-- A body that accepts a deferred command is answered ACCEPTED, with the work held. -/
theorem ruzia_of_accResp {o : RuziaOp} {p : List Byte} (t : Taken o f s) (h : o.body s f = accResp u p) :
    ruzia o f s = answered o f u 1 p := ruzia_ok (r := ⟨1, p⟩) t h

/-! ## Creation (R339) -/

/-- The standalone form needs a type that may stand alone; that it stands in domain A is the model's choice (log entry 49). -/
theorem blockCreateBody_alone {t : PkgType} {cls : Nat} (htype : s.pkgType (u32 f 0) (u16 f 4) = some t) (hhost : (u32 f 8 == 0) = true)
    (hcls : classOf s f 7 = .ok cls) (hposition : (u8 f 6 == 0) = true) (hsound : (!(s.faults.damaged.contains (u32 f 0))) = true)
    (hform : (bit t.flags 4 && t.cycles.getD (multIdx (s.mult 0)) 0 != 0) = true)
    (hpair : (s.red.mode == 0 || !(bit t.flags 0 || t.stateBytes > 65536)) = true)
    (hpermit : classPermitted s f.desk cls 7 = .ok ()) (hdom : allocatable s 0 = .ok ()) :
    blockCreateBody s f = createAlone s f t cls := by
  unfold blockCreateBody
  simp only [htype]
  exact (if_pos hhost).trans <| ok_then hcls <| need_then hposition <| need_then hsound <| need_then hform <| need_then hpair <|
    ok_then hpermit <| ok_then hdom rfl

/-- The form with a host needs a type for the host's kind, and a host its desk may change. -/
theorem blockCreateBody_hosted {t : PkgType} {cls : Nat} {o : Obj} {c : Chan} (htype : s.pkgType (u32 f 0) (u16 f 4) = some t)
    (hhost : ¬ (u32 f 8 == 0) = true) (ho : names s (u32 f 8) [tStrip, tBus] o) (hdesk : f.desk = o.desk ∨ f.desk = 0)
    (hcls : classOf s f 7 = .ok cls) (hposition : u8 f 6 ≤ 3) (hopen : open' o)
    (hsound : (!(s.faults.damaged.contains (u32 f 0))) = true)
    (hform : (bit t.flags (if o.ty == tStrip then 1 else 2) && t.cycles.getD (multIdx (s.mult o.dom)) 0 != 0) = true)
    (hpair : (s.red.mode == 0 || !(bit t.flags 0 || t.stateBytes > 65536)) = true)
    (hpermit : classPermitted s o.desk cls 7 = .ok ()) (hdom : allocatable s o.dom = .ok ()) (hchan : o.chan? = some c) :
    blockCreateBody s f = createHosted s f o c t cls := by
  unfold blockCreateBody
  simp only [htype]
  refine (if_neg hhost).trans <| resolve_then ho <| owned_then hdesk <| ok_then hcls <| need_then (decide_eq_true hposition) <|
    settled_then hopen <| need_then hsound <| need_then hform <| need_then hpair <| ok_then hpermit <| ok_then hdom ?_
  rw [hchan]

/-! ## Parameters (R317, R318) -/

/-- Bulk records are held until their data has arrived. -/
theorem paramSetBody_bulk {op : Nat} {tys : List Nat} {write : ParamWrite} {o : Obj} {b : Bulk} {x : Timing3} {l : Launch}
    (ho : names s (u32 f 0) tys o) (hdesk : f.desk = o.desk ∨ f.desk = 0) (hbulk : (u16 f 30 == 0xFFFF) = true)
    (hb : bulkAt s f 32 0 32768 = .ok b) (hlen : (b.len % 8 == 0 && 1 ≤ b.len) = true) (hx : timing3 f = .ok x)
    (hl : launchAt s f 4 = .ok l) (hopen : open' o) (hroom : s.jobsOf f.desk < 32) :
    paramSetBody op tys write s f = accResp (s.defer f op o.handle (some b) 0 0) :=
  resolve_then ho <| owned_then hdesk <| (if_pos hbulk).trans <| ok_then hb <| need_then hlen <| ok_then hx <| ok_then hl <|
    settled_then hopen <| mayDefer_then hroom rfl

/-- Inline records of a write that opens no deferred command are applied at once. -/
theorem paramSetBody_inline {op : Nat} {tys : List Nat} {write : ParamWrite} {o : Obj} {recs : List (Nat × Nat)} {w : When}
    (ho : names s (u32 f 0) tys o) (hdesk : f.desk = o.desk ∨ f.desk = 0) (hinline : ¬ (u16 f 30 == 0xFFFF) = true)
    (hcount : (1 ≤ u16 f 30 && u16 f 30 ≤ 26) = true) (hrecs : eachItem (recordAt f) (u16 f 30) 0 = .ok recs)
    (hwrite : write s f o recs = .ok (w, u)) (hjobs : u.jobs = s.jobs) :
    paramSetBody op tys write s f = okResp u (le 8 w.index) :=
  resolve_then ho <| owned_then hdesk <| (if_neg hinline).trans <| need_then hcount <| ok_then hrecs <| ok_then hwrite <|
    if_neg (by rw [hjobs]; exact lt_irrefl _)

end Sys2Proof.Proofs.Blocks

namespace Sys2Proof.Proofs
open Sys2Proof.Machine Sys2Proof.Laws RingsAndRoutes Blocks

/-- Settles O21: the checks of each body pass in their order. -/
theorem packageCompletes : Obligations.PackageCompletes := by
  intro f s
  refine ⟨?compute, ?blockInfo, ?ceiling, ?load, ?unload, ?list, ?program, ?revoke⟩
  case compute =>
    intro t hkind hzero hcompute hzero₄
    exact ruzia_of_okResp t <| need_then (decide_eq_true hkind) <| reserved_then hzero <| (if_pos hcompute).trans <|
      reserved_then hzero₄ rfl
  case blockInfo =>
    intro t hkind hzero hblocks o b hblock typ s₁ hdraw
    refine ruzia_of_okResp t <| need_then (decide_eq_true hkind) <| reserved_then hzero <| (if_neg hblocks).trans <|
      ok_then hblock ?_
    simp only [hdraw]
  case ceiling =>
    intro t hrange hpair
    exact ruzia_of_okResp t <| need_then hrange <| need_then hpair rfl
  case load =>
    intro t b hb hroom
    exact ruzia_of_accResp t <| ok_then hb <| mayDefer_then hroom rfl
  case unload =>
    rintro t _ rfl hloaded hunused
    exact ruzia_of_okResp t <| need_then hloaded <| need_then hunused rfl
  case list =>
    rintro t hzero _ rfl
    exact ruzia_of_okResp t <| reserved_then hzero rfl
  case program =>
    intro t k hk hcurve hzero hempty
    exact ruzia_of_okResp t <| ok_then hk <| need_then hcurve <| reserved_then hzero <| need_then hempty rfl
  case revoke =>
    intro t k hk
    exact ruzia_of_okResp t <| ok_then hk rfl

/-- Settles O22: the checks of each body pass in their order; the parameter write of a block opens no deferred command
(`plainWrite_jobs`), so its inline form answers OK. -/
theorem blockCompletes : Obligations.BlockCompletes := by
  intro f s
  refine ⟨?alone, ?hosted, ?free, ?setBulk, ?setInline, ?get⟩
  case alone =>
    rintro t _ rfl typ htype _ rfl hhost cls hcls hposition hsound hform hpair hpermit hdom u ans hcreate
    exact ruzia_ok t <| (blockCreateBody_alone htype hhost hcls hposition hsound hform hpair hpermit hdom).trans hcreate
  case hosted =>
    rintro t _ rfl typ htype _ rfl hhost o ho hdesk cls hcls hposition hopen hsound hform hpair hpermit hdom c hchan u ans hcreate
    exact ruzia_ok t <| (blockCreateBody_hosted htype hhost ho hdesk hcls hposition hopen hsound hform hpair hpermit hdom hchan).trans
      hcreate
  case free =>
    intro t o ho hpackage n s₁ hstart
    exact ruzia_of_okResp t <| ok_then ho <| ok_then hpackage <| by rw [hstart]
  case setBulk =>
    intro t o ho hdesk hbulk b hb hlen x hx l hl hopen hroom
    exact ruzia_of_accResp t <| paramSetBody_bulk ho hdesk hbulk hb hlen hx hl hopen hroom
  case setInline =>
    intro t o ho hdesk hinline hcount recs hrecs w u hwrite
    exact ruzia_of_okResp t <| paramSetBody_inline ho hdesk hinline hcount hrecs hwrite (plainWrite_jobs hwrite)
  case get =>
    intro t o ho hcount hzero ids hids bs s₁ hread
    exact ruzia_of_okResp t <| resolve_then ho <| need_then hcount <| reserved_then hzero <| ok_then hids <|
      congrArg (fun x : List Byte × State => okResp x.2 (le 2 (u16 f 4) ++ le 2 0 ++ x.1)) hread

end Sys2Proof.Proofs
end

section
/-! `strip.alloc` and `bus.alloc` (R103, R105, R123, R124): an allocation whose checks pass and that a core takes without
consolidation. From these O25. -/
namespace Sys2Proof.Proofs.ChanAlloc
open Sys2Proof.Machine Sys2Proof.Laws RingsAndRoutes

variable {f : CmdFrame} {s u : State} {p : List Byte}

/-- A body that checks one thing or another is past its check when each passes under its condition. -/
theorem either_then {β : Type} {r yes no rest : Except Err β} {c : Prop} [Decidable c] (hyes : c → rest = r → yes = r)
    (hno : ¬ c → rest = r → no = r) (k : rest = r) : (if c then yes else no) = r := by
  by_cases hc : c
  · rw [if_pos hc, hyes hc k]
  · rw [if_neg hc, hno hc k]

/-- The checks and steps of the allocation are those of `ChanAllocated`, in the order of the body; a core found by R105 leaves no
moves to wait for. -/
theorem allocChan_of_chanAllocated {op role o0 enableAt pan : Nat} (h : ChanAllocated role o0 enableAt pan f s u p) :
    allocChan op role o0 enableAt pan s f = okResp u p := by
  obtain ⟨d, cls, core, overs, i, o, r, s₁, s₂, s₃, s₄, c, w, hd, hwide, hnarrow, hcls, hzero, hmask, hpan, hpermit, hdom, rfl, rfl,
    hchannels, hwu, hrows, hsieve, hbuses, hdelay, hplace, hindex, rfl, ho, hrings, htaps, hblock, s₅, hpages, rfl, rfl⟩ := h
  have hmayPan : (!(decide (role ≥ 2) && bit (u32 f enableAt) 7)) = true := by
    rw [Bool.not_eq_true', ← Bool.not_eq_true]; simpa using hpan
  -- steps 11 to 14 of R309: the ranges, the class, the domain
  refine ok_then hd <| need_then (by simp [hwide, hnarrow]) <| ok_then hcls <| need_then (decide_eq_true hmask) <|
    onlyIf_then (fun h₀ k => reserved_then (hzero (eq_of_beq h₀)) k) <| need_then hmayPan <| ok_then hpermit <| ok_then hdom ?_
  simp only [beq_iff_eq, hplace, hindex, ho]
  -- steps 15 and 16: the quotas, the room of the engine, the core
  refine ok_then hchannels <| ok_then hwu <| ok_then hrows <| either_then (fun h₀ k => need_then (decide_eq_true (hsieve h₀)) k)
    (fun h₀ k => need_then (decide_eq_true (hbuses h₀)) k) <|
    onlyIf_then (fun h₀ k => need_then (decide_eq_true (hdelay h₀)) k) <| need_then rfl <| need_then rfl ?_
  -- the object, its rings and its blocks
  exact ok_then hrings <| ok_then htaps <| ok_then hblock <| ok_then hpages rfl

end Sys2Proof.Proofs.ChanAlloc

namespace Sys2Proof.Proofs
open Sys2Proof.Machine Sys2Proof.Laws RingsAndRoutes ChanAlloc

/-- Settles O25: `strip.alloc` is the allocation itself; `bus.alloc` first checks its ROLE, PAN_FOLLOW and reserved bytes. -/
theorem chanAllocCompletes : Obligations.ChanAllocCompletes := fun _ _ _ _ =>
  ⟨fun t h => ruzia_of_okResp t (allocChan_of_chanAllocated h), fun t hrole hpan hzero h =>
    ruzia_of_okResp t <| need_then (decide_eq_true hrole) <| need_then (by simpa using hpan) <| reserved_then hzero <|
      allocChan_of_chanAllocated h⟩

end Sys2Proof.Proofs
end

section
/-! The ends of deferred commands (R116, R117, R182, R277, R278) and the messages of a quarry recall (R229-R238): what each event does
on an engine that serves, and from these O45. -/
namespace Sys2Proof.Proofs.CompletionEvents
open Sys2Proof.Machine Sys2Proof.Laws

variable {s u : State}

/-! ## Loads and checks whose data has arrived -/

/-- Records that pass their checks and meet their launch commit the command (R182). -/
theorem exec_nodeLoadComplete (hserves : s.serving = true) {n : Nat} {j : Job} {o : Obj} {t : Tiles} {l : Launch} {w : When}
    (hjob : (s.jobs.find? fun j => j.order == n && j.op == 0x0505 && j.stage == 1) = some j) (hobj : s.obj j.handle = some o)
    (htiles : o.tiles? = some t) (hrecords : nodeRecordsOk t 0 0 (nodeRecords (u32 j.frame 24) j.data) = .ok ())
    (hlaunch : launchAt s j.frame 4 = .ok l)
    (happly : applyNodes s o j.frame l (u32 j.frame 20) (nodeRecords (u32 j.frame 24) j.data) = .ok (w, u)) :
    exec (.nodeLoadComplete n) s = .next ((u.slipEvent j.frame 0x0505 1 w).nodeStaged j 0) := by
  change execNodeLoadComplete n s = _
  simp only [execNodeLoadComplete, hserves, Bool.not_true, Bool.false_eq_true, if_false, hjob, hobj, htiles, hrecords, hlaunch, happly]

/-- The outcome of a package check: the package is kept and PKG_LOADED sent, or PKG_REJECTED names the check (R116). -/
def packageChecked (s : State) (j : Job) : Except (Nat × Nat) Package → State
  | .ok p => ({ s with packages := s.packages ++ [p] } : State).complete j 0x1101 0 (le 4 p.id ++ le 2 p.types.length ++ le 2 0)
  | .error (n, e) => s.complete j 0x1102 e (le 1 n ++ le 3 0)

theorem exec_packageCheckDone (hserves : s.serving = true) {j : Job}
    (hjob : (s.jobs.find? fun j => j.op == 0x1102 && j.stage == 1) = some j) (signatureOk digestOk : Bool) :
    exec (.packageCheckDone signatureOk digestOk) s = .next (packageChecked s j (packageCheck s j.data signatureOk digestOk)) := by
  change execPackageCheckDone signatureOk digestOk s = _
  simp only [execPackageCheckDone, hserves, Bool.not_true, Bool.false_eq_true, if_false, hjob]
  cases packageCheck s j.data signatureOk digestOk <;> rfl

/-! ## Captures -/

theorem exec_captureStopIndexReached (hdie : s.dieOn = true) {h : Nat} {o : Obj} (hobj : s.obj h = some o) :
    exec (.captureStopIndexReached h) s = .next (s.freezeEnd o) := by
  change execCaptureStopIndexReached h s = _
  simp only [execCaptureStopIndexReached, hdie, Bool.not_true, Bool.false_eq_true, if_false, hobj]

theorem exec_capturePlayEnd (hdie : s.dieOn = true) {h : Nat} {o : Obj} (hobj : s.obj h = some o) :
    exec (.capturePlayEnd h) s = .next (s.playEnd o) := by
  change execCapturePlayEnd h s = _
  simp only [execCapturePlayEnd, hdie, Bool.not_true, Bool.false_eq_true, if_false, hobj]

theorem freezeEnd_of_recorded {o : Obj} {c : Capture} (hcapture : o.capture? = some c) (hfreezing : c.st = .freezing)
    (hrecorded : c.f + c.post ≤ 8 * ((s.dom o.dom).next - 1)) : s.freezeEnd o =
    (s.upd o.handle fun x => x.onCapture fun c => { c with st := .frozen }).raiseObj o.desk 0x1201
      (le 4 o.handle ++ le 4 0 ++ le 8 c.f) := by
  simp only [State.freezeEnd, hcapture]
  exact if_pos (by simp [hfreezing, hrecorded])

theorem playEnd_of_written {o : Obj} {c : Capture} {p : Play} (hcapture : o.capture? = some c) (hplay : c.play = some p)
    (hplaying : c.st = .playing) (hwritten : p.after c.tPlay ≤ 8 * (s.dom o.dom).next) : s.playEnd o =
    (s.upd o.handle fun x => x.onCapture fun c => { c with st := .frozen, play := none }).raiseObj o.desk 0x1203
      (le 4 o.handle ++ le 4 0 ++ le 8 (p.after c.tPlay)) := by
  simp only [State.playEnd, hcapture, hplay]
  exact if_pos (by simp [hplaying, hwritten])

/-! ## The instants of a recall: RAW is carried to them first -/

/-- The plan point of an engine's own recall, with no store of its Scene before it (R217, R331). -/
theorem exec_recallPlanPoint_own (hserves : s.serving = true) {i : Nat} {r : Recall}
    (hrecall : (s.recalls.find? fun r => r.id == i) = some r) (hplan : r.plan ≠ noPlan) (hown : r.quarry = 0)
    (hunplanned : r.planned = false) (hstore : storeFirst s r = false) :
    exec (.recallPlanPoint i) s = .next ((s.carryTo (instantOf (8 * r.plan) (s.fs 0))).planPoint r) := by
  change execRecallPlanPoint i s = _
  simp [execRecallPlanPoint, hserves, hrecall, hplan, hown, hunplanned, hstore]

/-- The keeper decides on an arm whose GO it has not sent (R231-R233). -/
theorem exec_keeperDecisionPoint (hserves : s.serving = true) {i : Nat} {a : Arm} (harm : s.arm i = some a) (hsent : a.sent = false) :
    exec (.keeperDecisionPoint i) s = .next ((s.carryTo (instantOf (8 * (a.s / 8 - 4 - s.quarry.p)) (s.fs 0))).decidePoint a) := by
  change execKeeperDecisionPoint i s = _
  simp [execKeeperDecisionPoint, hserves, harm, hsent]

theorem exec_recallOrphanDeadline (hdie : s.dieOn = true) {i : Nat} {r : Recall}
    (hrecall : (s.recalls.find? fun r => r.id == i) = some r) (hwaits : r.waits = true) :
    exec (.recallOrphanDeadline i) s = .next ((s.carryTo (instantOf (8 * (r.ask s / 8)) (s.fs 0))).orphan r) := by
  change execRecallOrphanDeadline i s = _
  simp [execRecallOrphanDeadline, hdie, hrecall, hwaits]

/-! ## Messages of a quarry recall (R380): the keeper's to the other engines, and theirs to the keeper -/

section
variable (hin : s.inQuarry = true) (hk : s.isKeeper = false) (m : QuarryMsg)
include hin hk

/-- A message of the keeper has its effect on every other engine of the quarry. -/
theorem next_of_member (t : State) :
    (.next (if s.inQuarry && !s.isKeeper then t else s) : Host.Outcome State Fault Refusal) = .next t :=
  congrArg _ (if_pos (by rw [hin, hk]; rfl))

theorem exec_quarryArm : exec (.quarryArm m) s = .next (s.armIn m 0xFFFFFFFF) := next_of_member hin hk _

theorem exec_quarryRetarget : exec (.quarryRetarget m) s = .next (s.retargetIn m) := next_of_member hin hk _

theorem exec_quarryGo : exec (.quarryGo m) s = .next (s.goIn m) := next_of_member hin hk _

theorem exec_quarryAbort : exec (.quarryAbort m) s = .next (s.abortIn m) := next_of_member hin hk _

end

section
variable (hin : s.inQuarry = true) (hk : s.isKeeper = true) (m : QuarryMsg)
include hin hk

/-- An engine's answer has its effect on the keeper alone. -/
theorem next_of_keeper (t : State) :
    (.next (if s.inQuarry && s.isKeeper then t else s) : Host.Outcome State Fault Refusal) = .next t :=
  congrArg _ (if_pos (by rw [hin, hk]; rfl))

theorem exec_quarryReady : exec (.quarryReady m) s = .next (s.keeperReady m.recallId m.engine m.s) := next_of_keeper hin hk _

theorem exec_quarryLate : exec (.quarryLate m) s = .next (s.keeperLate m.recallId m.engine m.s) := next_of_keeper hin hk _

end

end Sys2Proof.Proofs.CompletionEvents

namespace Sys2Proof.Proofs
open Sys2Proof.Machine Sys2Proof.Laws CompletionEvents

/-- Settles O45: each clause is the event's rule above; a quarry's messages by the side of the quarry they are for. -/
theorem completionEventsComplete : Obligations.CompletionEventsComplete := by
  intro s hserves
  have hdie := dieOn_of_serving hserves
  refine ⟨fun _ _ _ _ _ _ _ => exec_nodeLoadComplete hserves, ?loaded, ?rejected, ?frozen, ?played,
    fun _ _ => exec_recallPlanPoint_own hserves, fun _ _ => exec_keeperDecisionPoint hserves,
    fun _ _ => exec_recallOrphanDeadline hdie, ?member, ?keeper⟩
  case loaded => intro a b j p hjob hcheck; rw [exec_packageCheckDone hserves hjob, hcheck, packageChecked]
  case rejected => intro a b j n e hjob hcheck; rw [exec_packageCheckDone hserves hjob, hcheck, packageChecked]
  case frozen =>
    intro h o c hobj hcapture hfreezing hrecorded
    rw [exec_captureStopIndexReached hdie hobj, freezeEnd_of_recorded hcapture hfreezing hrecorded]
  case played =>
    intro h o c p hobj hcapture hplay hplaying hwritten
    rw [exec_capturePlayEnd hdie hobj, playEnd_of_written hcapture hplay hplaying hwritten]
  case member =>
    intro m hid hk
    have hin := QuarryControl.inQuarry_of hdie hid
    exact ⟨exec_quarryArm hin hk m, exec_quarryRetarget hin hk m, exec_quarryGo hin hk m, exec_quarryAbort hin hk m⟩
  case keeper =>
    intro m hid hk
    have hin := QuarryControl.inQuarry_of hdie hid
    exact ⟨exec_quarryReady hin hk m, exec_quarryLate hin hk m⟩

end Sys2Proof.Proofs
end

section
/-! The Strip and Bus commands (R123, R124, R131-R133, R155-R157, R317-R319, R322): a Strip and a Bus share the bodies that read what
they are, free them, and write and read their parameters. From these O5 and O6. -/
namespace Sys2Proof.Proofs.Channels
open Sys2Proof.Machine Sys2Proof.Laws RingsAndRoutes Blocks

variable {f : CmdFrame} {s u : State} {o : Obj}

/-- The handles of a channel's block pages 2 to 11, 0 where it has no block. -/
def pageHandles (s : State) (c : Chan) : List Byte := (List.range 10).flatMap fun i =>
  match c.blocks.find? fun b => b.1 == i + 2 with
  | some b => le 4 (((s.objAt tBlock b.2).map Obj.handle).getD 0)
  | none => le 4 0

/-- What a channel tells of itself changes nothing. -/
theorem chanInfoBody_ok {ty : Nat} {c : Chan} (ho : names s (u32 f 0) [ty] o) (hc : o.chan? = some c) :
    chanInfoBody ty s f = okResp s (o.prefixBytes s ++ le 1 c.width ++ le 1 (c.role - 1) ++
      le 1 (if c.role == 0 then 0 else if c.follows then 1 else 0) ++ le 1 0 ++ le 4 c.enable ++ le 4 (s.ringHandle c.outRing) ++
      pageHandles s c) :=
  resolve_then ho <| by rw [hc]; rfl

/-- A free whose checks pass is under way once it is answered. -/
theorem freeBody_ok {tys : List Nat} {ok : State → Obj → Except Err Unit} {before : Obj → State → State} {n : Nat}
    (ho : freeChecks s f tys = .ok o) (hok : ok s o = .ok ()) (hstart : (before o s).startFree o = (n, u)) :
    freeBody tys ok before s f = okResp u (le 4 n) :=
  ok_then ho <| ok_then hok <| by rw [hstart]

/-- Inline records of a parameter write that passes: whether it opened a deferred command decides between ACCEPTED and OK. -/
theorem paramSetBody_records {op : Nat} {tys : List Nat} {write : ParamWrite} {recs : List (Nat × Nat)} {w : When}
    (ho : names s (u32 f 0) tys o) (hdesk : f.desk = o.desk ∨ f.desk = 0) (hinline : ¬ (u16 f 30 == 0xFFFF) = true)
    (hcount : (1 ≤ u16 f 30 && u16 f 30 ≤ 26) = true) (hrecs : eachItem (recordAt f) (u16 f 30) 0 = .ok recs)
    (hwrite : write s f o recs = .ok (w, u)) :
    paramSetBody op tys write s f =
      if u.jobs.length > s.jobs.length then accResp u (le 8 w.index) else okResp u (le 8 w.index) :=
  resolve_then ho <| owned_then hdesk <| (if_neg hinline).trans <| need_then hcount <| ok_then hrecs <| ok_then hwrite rfl

section
variable (spec : State → Obj → Nat → Option PSpec) (use : State → Obj → Nat → PSpec → Nat × State)

/-- The identifier at place `i` of a parameter read; an object without such a parameter has none. -/
def readId (s : State) (f : CmdFrame) (o : Obj) (i : Nat) : Except Err Nat := do
  let id := u16 f (8 + 2 * i)
  if (spec s o id).isNone then .error { status := eRange, field := 8 + 2 * i, item := i, handle := o.handle } else .ok id

/-- The record of one parameter, put behind those read before it (R318). -/
def readRecord (o : Obj) (p : List Byte × State) (id : Nat) : List Byte × State :=
  match spec p.2 o id with
  | none => p
  | some q =>
    let (v, s) := use p.2 o id q
    (p.1 ++ le 2 id ++ le 2 0 ++ le 4 (valOf o.params.vals id q.dflt q.mode).written ++ le 4 v, s)

/-- A read of parameters the object has answers their records in the order asked. -/
theorem paramGetBody_ok {tys : List Nat} {ids : List Nat} {bs : List Byte} (ho : names s (u32 f 0) tys o)
    (hcount : (1 ≤ u16 f 4 && u16 f 4 ≤ 19) = true) (hzero : fld f 6 2 = 0)
    (hids : eachItem (readId spec s f o) (u16 f 4) 0 = .ok ids) (hread : ids.foldl (readRecord spec use o) ([], s) = (bs, u)) :
    paramGetBody tys spec use s f = okResp u (le 2 (u16 f 4) ++ le 2 0 ++ bs) :=
  resolve_then ho <| need_then hcount <| reserved_then hzero <| ok_then hids <|
    congrArg (fun x : List Byte × State => okResp x.2 (le 2 (u16 f 4) ++ le 2 0 ++ x.1)) hread

end

end Sys2Proof.Proofs.Channels

namespace Sys2Proof.Proofs
open Sys2Proof.Machine Sys2Proof.Laws RingsAndRoutes Blocks Channels

/-- Settles O5: each command by the rule of its body above, for a Strip. -/
theorem stripCompletes : Obligations.StripCompletes := by
  intro f s
  refine ⟨?info, ?free, ?setBulk, ?setDeferred, ?setInline, ?get⟩
  case info =>
    rintro t o ho c hc _ rfl
    exact ruzia_of_okResp t (chanInfoBody_ok ho hc)
  case free =>
    intro t o ho hfree n s₁ hstart
    exact ruzia_of_okResp t (freeBody_ok ho hfree hstart)
  case setBulk =>
    intro t o ho hdesk hbulk b hb hlen x hx l hl hopen hroom
    exact ruzia_of_accResp t (paramSetBody_bulk ho hdesk hbulk hb hlen hx hl hopen hroom)
  case setDeferred =>
    intro t o ho hdesk hinline hcount recs hrecs w u hwrite hdeferred
    exact ruzia_of_accResp t ((paramSetBody_records ho hdesk hinline hcount hrecs hwrite).trans (if_pos hdeferred))
  case setInline =>
    intro t o ho hdesk hinline hcount recs hrecs w u hwrite hdone
    exact ruzia_of_okResp t ((paramSetBody_records ho hdesk hinline hcount hrecs hwrite).trans (if_neg hdone))
  case get =>
    intro t o ho hcount hzero ids hids bs u hread
    exact ruzia_of_okResp t (paramGetBody_ok chanGetSpec chanUse ho hcount hzero hids hread)

/-- Settles O6: what a Bus shares with a Strip by the rule of its body above; attributes, layout and allocation by their own checks. -/
theorem busCompletes : Obligations.BusCompletes := by
  intro f s
  refine ⟨?info, ?free, ?setBulk, ?setDeferred, ?setInline, ?get, ?attributes, ?layout, ?alloc⟩
  case info =>
    rintro t o ho c hc _ rfl
    exact ruzia_of_okResp t (chanInfoBody_ok ho hc)
  case free =>
    intro t o ho hfree n s₁ hstart
    exact ruzia_of_okResp t (freeBody_ok ho hfree hstart)
  case setBulk =>
    intro t o ho hdesk hbulk b hb hlen x hx l hl hopen hroom
    exact ruzia_of_accResp t (paramSetBody_bulk ho hdesk hbulk hb hlen hx hl hopen hroom)
  case setDeferred =>
    intro t o ho hdesk hinline hcount recs hrecs w u hwrite hdeferred
    exact ruzia_of_accResp t ((paramSetBody_records ho hdesk hinline hcount hrecs hwrite).trans (if_pos hdeferred))
  case setInline =>
    intro t o ho hdesk hinline hcount recs hrecs w u hwrite hdone
    exact ruzia_of_okResp t ((paramSetBody_records ho hdesk hinline hcount hrecs hwrite).trans (if_neg hdone))
  case get =>
    intro t o ho hcount hzero ids hids bs u hread
    exact ruzia_of_okResp t (paramGetBody_ok chanGetSpec chanUse ho hcount hzero hids hread)
  case attributes =>
    intro t o ho hdesk hpan hzero hopen
    exact ruzia_of_okResp t <| resolve_then ho <| owned_then hdesk <| need_then hpan <| reserved_then hzero <| settled_then hopen rfl
  case layout =>
    intro t o ho hdesk ps hps hopen hwide
    exact ruzia_of_okResp t <| resolve_then ho <| owned_then hdesk <| ok_then hps <| settled_then hopen <| need_then hwide rfl
  case alloc =>
    intro t hrole hpan hzero u ans halloc
    exact ruzia_ok t <| need_then (decide_eq_true hrole) <| need_then hpan <| reserved_then hzero halloc

end Sys2Proof.Proofs
end

section
/-! `port.dither.set` and `meter.tap` (R164, R264, R328, R335): each body walks its checks in their order (R309). From these O26. -/
namespace Sys2Proof.Proofs.DitherTap
open Sys2Proof.Machine Sys2Proof.Laws RingsAndRoutes

variable {f : CmdFrame} {s u : State} {o : Obj}

/-- Two changes at a place of a list are one when they agree on what stands there. -/
theorem modAt_congr {α : Type} {g h : α → α} {d : α} : ∀ {l : List α} {i : Nat}, g (l.getD i d) = h (l.getD i d) → modAt l i g = modAt l i h
  | [], _, _ => rfl
  | _ :: xs, 0, e => congrArg (· :: xs) e
  | x :: xs, _ + 1, e => congrArg (x :: ·) (modAt_congr (l := xs) e)

theorem setPort_congr {p : Nat} {g h : Tdm → Tdm} (e : g (s.port p) = h (s.port p)) : s.setPort p g = s.setPort p h :=
  congrArg (fun tdm => { s with tdm := tdm }) (modAt_congr e)

/-- A word length of R164 that the word limit allows passes the check. -/
theorem ditherWord_ok {w limit : Nat} (hw : w ∈ [0, 16, 20, 24]) (hlimit : w ≤ limit) :
    ((w == 0 || w == 16 || w == 20 || w == 24) && decide (w ≤ limit)) = true := by
  simp only [List.mem_cons, List.not_mem_nil, or_false] at hw
  simp [hlimit, hw, or_assoc]

/-- The slots of a TDM output port take their words from the next ashlar boundary of the port's domain; the body looks the domain up
where it makes the change, hence `setPort_congr`. -/
theorem portDitherBody_tdm {p : Nat} (hport : hType (u32 f 0) ≠ tStream) (hp : tdmPort s (u32 f 0) 0 = .ok p)
    (hdesk : f.desk = (s.port p).owner ∨ f.desk = 0) (hfirst : u8 f 4 < (s.port p).slots) (hsome : 1 ≤ u8 f 5)
    (hfit : u8 f 4 + u8 f 5 ≤ (s.port p).slots) (hword : u8 f 6 ∈ [0, 16, 20, 24]) (hbits : u8 f 6 ≤ (s.port p).dataBits)
    (hzero : fld f 7 1 = 0) (hconfigured : (s.port p).configured = true) (hout : (s.port p).dir = 1) :
    portDitherBody s f = okResp (s.setPort p fun x => { x with
      dither := ditherAt x.dither x.ditherNext (8 * s.ash x.dom),
      ditherNext := some (nextBoundary s (s.port p).dom, (List.range 32).map fun k =>
        if u8 f 4 ≤ k && k < u8 f 4 + u8 f 5 then u8 f 6 else (ditherSet (s.port p).dither (s.port p).ditherNext).getD k 0) }) :=
  (if_neg (by simpa using hport)).trans <| ok_then hp <| owned_then hdesk <| need_then (decide_eq_true hfirst) <|
    need_then (by simp [hsome, hfit]) <| need_then (ditherWord_ok hword hbits) <| reserved_then hzero <|
    need_then (by simp [hconfigured, hout]) <| congrArg (okResp ·) (setPort_congr rfl)

/-- The channels of a transmit Stream take their words from the next ashlar boundary of its domain. -/
theorem portDitherBody_stream {st : Stream} (ho : names s (u32 f 0) [tStream] o) (hdesk : mayChange f o) (hst : o.stream? = some st)
    (hfirst : u8 f 4 < st.channels) (hsome : 1 ≤ u8 f 5) (hfit : u8 f 4 + u8 f 5 ≤ st.channels) (hword : u8 f 6 ∈ [0, 16, 20, 24])
    (hbits : u8 f 6 ≤ if st.format = 0 then 16 else 24) (hzero : fld f 7 1 = 0) (htx : st.tx = true) (hopen : open' o) :
    portDitherBody s f = okResp (s.upd o.handle fun x => x.onStream fun t => { t with
      dither := ditherAt t.dither t.ditherNext (8 * s.ash o.dom),
      ditherNext := some (nextBoundary s o.dom, (List.range 64).map fun k =>
        if u8 f 4 ≤ k && k < u8 f 4 + u8 f 5 then u8 f 6 else (ditherSet st.dither st.ditherNext).getD k 0) }) := by
  have htype : (hType (u32 f 0) == tStream) = true := by simpa using ho.1
  refine (if_pos htype).trans <| resolve_then ho <| owned_then hdesk ?_
  rw [hst]
  exact need_then (decide_eq_true hfirst) <| need_then (by simp [hsome, hfit]) <|
    need_then (ditherWord_ok hword (by simpa using hbits)) <| reserved_then hzero <| need_then htx <| settled_then hopen rfl

/-- The taps of a Meter on other points than the command's. -/
def tapsKept (f : CmdFrame) (m : Meter) : List Tap :=
  m.taps.filter fun t => !(u16 f 4 ≤ t.point && t.point < u16 f 4 + u16 f 6)

/-- The taps the command binds: a point for each channel from the command's first. -/
def tapsBound (f : CmdFrame) (x : Obj) : List Tap :=
  (List.range (u16 f 6)).map fun i => { point := u16 f 4 + i, obj := x.handle, pick := u8 f 12, chan := u16 f 14 + i }

section
variable {m : Meter} (ho : names s (u32 f 0) [tMeter] o) (hdesk : mayChange f o) (hm : o.meter? = some m)
  (hfirst : u16 f 4 < m.points) (hsome : 1 ≤ u16 f 6) (hfit : u16 f 4 + u16 f 6 ≤ m.points) (hzero : fld f 13 1 = 0) (hopen : open' o)
include ho hdesk hm hfirst hsome hfit hzero hopen

/-- Object 0 unbinds the points. -/
theorem meterTapBody_unbind (hobj : u32 f 8 = 0) :
    meterTapBody s f = okResp (s.upd o.handle fun y => y.onMeter fun z => { z with taps := tapsKept f m }) := by
  refine resolve_then ho <| (if_pos (beq_iff_eq.2 hobj)).trans <| ok_then rfl <| owned_then hdesk ?_
  rw [hm]
  exact need_then (decide_eq_true hfirst) <| need_then (by simp [hsome, hfit]) <| reserved_then hzero <| settled_then hopen rfl

/-- An object of the Meter's domain is bound at a pick-off it has, to points no route feeds, while no channel has more than 8 taps. -/
theorem meterTapBody_bind {x : Obj} (hobj : u32 f 8 ≠ 0) (hx : names s (u32 f 8) [tStrip, tBus] x) (hpick : pickOk x (u8 f 12) = true)
    (hwidth : u16 f 14 + u16 f 6 ≤ (x.chan?.map (·.width)).getD 0) (hlive : x.freeing = false) (hdom : x.dom = o.dom)
    (hfree : ∀ i, i < u16 f 6 → s.routeTo 11 (u16 f 4 + i) o.handle = none)
    (hu : u = s.upd o.handle fun y => y.onMeter fun z => { z with taps := tapsKept f m ++ tapsBound f x })
    (htaps : ∀ i, i < u16 f 6 → u.tapsOn x.handle (u16 f 14 + i) ≤ 8) : meterTapBody s f = okResp u := by
  have hnamed : (resolve s [tStrip, tBus] (u32 f 8) 8).map some = .ok (some x) := congrArg _ (resolve_names 8 hx)
  have hunrouted : ((List.range (u16 f 6)).all fun i => (s.routeTo 11 (u16 f 4 + i) o.handle).isNone) = true := by
    simpa using hfree
  have hroom : ((tapsBound f x).all fun t => u.tapsOn t.obj t.chan ≤ 8) = true := by
    simpa [tapsBound] using htaps
  subst hu
  refine resolve_then ho <| (if_neg (mt beq_iff_eq.1 hobj)).trans <| ok_then hnamed <| owned_then hdesk ?_
  rw [hm]
  exact need_then (decide_eq_true hfirst) <| need_then (by simp [hsome, hfit]) <| reserved_then hzero <| need_then hpick <|
    need_then (decide_eq_true hwidth) <| settled_then hopen <| need_then (by simp [hlive, hdom]) <| need_then hunrouted <|
    need_then hroom rfl

end

end Sys2Proof.Proofs.DitherTap

namespace Sys2Proof.Proofs
open Sys2Proof.Machine RingsAndRoutes DitherTap

/-- Settles O26: `port.dither.set` on a TDM port and on a Stream, `meter.tap` without and with an object. -/
theorem ditherTapComplete : Obligations.DitherTapComplete := by
  intro f s
  refine ⟨?port, ?stream, ?unbind, ?bind⟩
  case port =>
    rintro p _ t hport hp rfl hdesk hfirst hsome hfit hword hbits hzero hconfigured hout
    exact ruzia_of_okResp t (portDitherBody_tdm hport hp hdesk hfirst hsome hfit hword hbits hzero hconfigured hout)
  case stream =>
    intro o st t ho hdesk hst hfirst hsome hfit hword hbits hzero htx hopen
    exact ruzia_of_okResp t (portDitherBody_stream ho hdesk hst hfirst hsome hfit hword hbits hzero htx hopen)
  case unbind =>
    intro o m t ho hobj hdesk hm hfirst hsome hfit hzero hopen
    exact ruzia_of_okResp t (meterTapBody_unbind ho hdesk hm hfirst hsome hfit hzero hopen hobj)
  case bind =>
    intro o m x u t ho hobj hx hdesk hm hfirst hsome hfit hzero hopen hpick hwidth hlive hdom hfree hu htaps
    exact ruzia_of_okResp t
      (meterTapBody_bind ho hdesk hm hfirst hsome hfit hzero hopen hobj hx hpick hwidth hlive hdom hfree hu htaps)

end Sys2Proof.Proofs
end

section
/-! Field and TDM ports (R411-R434): what each event does on a die that is on, and from these O40. -/
namespace Sys2Proof.Proofs.PortEvents
open Sys2Proof.Machine Sys2Proof.Laws

variable {s : State}

/-! ## Decisions of a single engine (R433) -/

theorem decides_of_single (h : s.red.role = .single) : s.decides = true := by simp [State.decides, h]

theorem decide_of_single (h : s.red.role = .single) (kind obj : Nat) (value : Int) (apply : State → State) :
    s.decide kind obj value apply = apply s := if_neg (by rw [h]; decide)

/-! ## TDM ports (R411-R420) -/

theorem exec_tdmFrame (s : State) (p : Nat) (f : TdmFrame) : exec (.tdmFrame p f) s = .next (s.tdmFrame p f) := rfl

theorem exec_tdmClockLoss (hdie : s.dieOn = true) {p : Nat} (hp : p < 128) (hconfigured : (s.port p).configured = true)
    (hlost : (s.port p).lost = false) (hsingle : s.red.role = .single) : exec (.tdmClockLoss p) s = .next (s.clockLost p) := by
  have hdue : (p < 128 && (s.port p).configured && !(s.port p).lost && s.decides && s.dieOn) = true := by
    simp [hp, hconfigured, hlost, decides_of_single hsingle, hdie]
  exact congrArg _ ((if_pos hdue).trans (decide_of_single hsingle ..))

theorem clockBack_of_bank {p : Nat} (hbank : p / 16 ∉ s.host.bankLost) : s.clockBack p = s.setPort p fun t =>
    { t with lost := false, paired := false, ages := [], slipDue := [], slipSinceCentre := false,
             fade := if t.dir == 0 then GainRec.start oneW t.fade.value 48 else t.fade } :=
  if_neg (by simpa using hbank)

theorem exec_portClockRecovered (hdie : s.dieOn = true) {p : Nat} (hp : p < 128) (hlost : (s.port p).lost = true)
    (hvalid : 16 ≤ (s.port p).valid) (hsingle : s.red.role = .single) (hbank : p / 16 ∉ s.host.bankLost) :
    exec (.portClockRecovered p) s = .next (s.setPort p fun t =>
      { t with lost := false, paired := false, ages := [], slipDue := [], slipSinceCentre := false,
               fade := if t.dir == 0 then GainRec.start oneW t.fade.value 48 else t.fade }) := by
  have hdue : (s.dieOn && p < 128 && (s.port p).lost && (s.port p).valid ≥ 16 && s.decides && !(s.host.bankLost.contains (p / 16))) =
      true := by
    simp [hdie, hp, hlost, hvalid, decides_of_single hsingle, hbank]
  exact congrArg _ ((if_pos hdue).trans <| (decide_of_single hsingle ..).trans (clockBack_of_bank hbank))

/-! ## Field inputs (R425, R426) -/

theorem exec_gpiSample (hserves : s.serving = true) (mv : List Int) :
    exec (.gpiSample mv) s = .next ((mv.take 32).zipIdx.foldl (fun s m => s.sampleGpi m.2 m.1) s) := congrArg _ (if_pos hserves)

/-- A reading that differs from the accepted level is accepted at the instant its DEBOUNCE has run out. -/
theorem exec_gpiChangeAccepted (hserves : s.serving = true) {g : Nat} (hg : g < 32) (hseen : (s.gpiAt g).seen = true)
    (hnew : (s.gpiAt g).reading ≠ (s.gpiAt g).accepted) : exec (.gpiChangeAccepted g) s =
      .next ((s.carryTo ((s.gpiAt g).since + (s.gpiAt g).debounce * (secondQ / 1000))).acceptGpi g) :=
  congrArg _ (if_pos (by simp [hserves, hg, hseen, hnew]))

/-! ## Field outputs (R427-R429) -/

/-- A first overcurrent trips the output, which then waits for its retry. -/
theorem exec_gpoOvercurrent_first (hdie : s.dieOn = true) {g : Nat} (hg : g < 32) (hon : (s.gpoAt g).on = true)
    (hfirst : (s.gpoAt g).trip ≠ 2) : exec (.gpoOvercurrent g) s =
      .next ((s.addCtr (ctrGpo g 0) 1).setGpo g fun x => { x with on := false, trip := 1, tripAt := s.q }) :=
  congrArg _ <| (if_neg (by simp [hdie, hg, hon])).trans (if_neg (by simp [hfirst]))

theorem exec_gpoRetry_commanded (hdie : s.dieOn = true) {g : Nat} (hg : g < 32) (htrip : (s.gpoAt g).trip = 1)
    (hlatched : (s.gpoAt g).latched = false) (hcommanded : (s.gpoAt g).commanded = true) :
    exec (.gpoRetry g) s = .next (s.setGpo g fun x => { x with on := true, trip := 2, retryAt := s.q }) :=
  congrArg _ <| (if_pos (by simp [hdie, hg, htrip, hlatched])).trans (if_pos hcommanded)

theorem exec_gpoRetryHeld (hdie : s.dieOn = true) {g : Nat} (hg : g < 32) (htrip : (s.gpoAt g).trip = 2)
    (hon : (s.gpoAt g).on = true) : exec (.gpoRetryHeld g) s = .next (s.gpoTrip g 1) :=
  congrArg _ (if_pos (by simp [hdie, hg, htrip, hon]))

theorem exec_gpoStuckLowTimeout (hserves : s.serving = true) {g : Nat} (hg : g < 32) (hoff : (s.gpoAt g).on = false)
    (huntold : (s.gpoAt g).stuckTold = false) : exec (.gpoStuckLowTimeout g) s =
      .next (((s.setGpo g fun x => { x with stuckTold := true }).addCtr (ctrGpo g 2) 1).raiseObj (s.gpoAt g).owner 0x0906
        (le 4 (portHandle (1056 + g)))) :=
  congrArg _ (if_pos (by simp [hg, hoff, huntold, hserves]))

end Sys2Proof.Proofs.PortEvents

namespace Sys2Proof.Proofs
open Sys2Proof.Machine PortEvents

/-- Settles O40: each clause is the event's rule above. -/
theorem portEventsComplete : Obligations.PortEventsComplete := fun s hdie =>
  ⟨exec_tdmFrame s, fun _ => exec_tdmClockLoss hdie, fun _ => exec_portClockRecovered hdie, fun mv hserves => exec_gpiSample hserves mv,
    fun _ hserves => exec_gpiChangeAccepted hserves, fun _ hg hon hfirst => ⟨_, exec_gpoOvercurrent_first hdie hg hon hfirst, rfl⟩,
    fun _ => exec_gpoRetry_commanded hdie, fun _ => exec_gpoRetryHeld hdie, fun _ hserves => exec_gpoStuckLowTimeout hserves⟩

end Sys2Proof.Proofs
end

section
/-! The Sieve with everything off (R141): its set hands each sample on, and outside a transition that set alone is heard. From these
O57. -/
namespace Sys2Proof.Proofs.Sieve
open Sys2Proof.Machine

/-- A set with no high-pass and no DC blocker hands the sample on and draws nothing. -/
theorem sieveSet_off (e : ChainEnv) (x x1 y1 : Word) (r : Run) : sieveSet e 0 0 x x1 y1 r = (x, x1, y1, r) := rfl

/-- Outside a transition the Sieve is its one set: the sample it gives, its memory, and nothing of the standby set. -/
theorem sieveStep_of_settled {e : ChainEnv} {c : Chan} {ended : List Twin} {r r' : Run} {a x1 y1 : Word}
    (hlive : liveTwin c.twins 1 e.j = none) (hended : (ended.filter fun t => t.page == 1) = [])
    (hset : sieveSet e (c.useAt e.m ended 0x0100) (c.useAt e.m ended 0x0102) r.x r.x1 r.y1 r = (a, x1, y1, r')) :
    sieveStep e c ended r = { r' with x1 := x1, y1 := y1, x := a } := by
  simp only [sieveStep, hlive, hended, hset]

end Sys2Proof.Proofs.Sieve

namespace Sys2Proof.Proofs
open Sys2Proof.Machine Sieve

/-- Settles O57: the one set heard is off. -/
theorem sievePassesUnchanged : Obligations.SievePassesUnchanged := by
  intro e c ended r hlive hended horder hdc
  exact sieveStep_of_settled hlive hended (by rw [horder, hdc]; exact sieveSet_off e r.x r.x1 r.y1 r)

end Sys2Proof.Proofs
end

section
/-! The node and group commands (R165-R171, R178, R182-R186, R323): a command whose own checks all pass is answered with its effect in
force. Each proof walks the checks of the command's body in their order (R309). From these O7 and O8. -/
namespace Sys2Proof.Proofs
open Sys2Proof.Machine Sys2Proof.Laws RingsAndRoutes Blocks Channels

/-- Settles O7: the checks of each body pass in their order; a tile set is freed as every object is (`freeBody_ok`), and only
`node.bulk` is deferred. -/
theorem nodeCompletes : Obligations.NodeCompletes := by
  intro f s
  refine ⟨?info, ?alloc, ?free, ?default, ?set, ?bulk, ?get⟩
  case info =>
    rintro t o ho tiles htiles _ rfl
    exact ruzia_of_okResp t <| resolve_then ho <| by rw [htiles]
  case alloc =>
    rintro t feeds hfeeds d hd htier cls hcls hcount _ rfl _ rfl hrows hcols hfit hopen hclass hdom i s₁ hnew o ho _ rfl s₂ hadd hloop
    -- the sinks of the feeds, the ranges, what is open to the feeds and to the desk
    refine ruzia_of_okResp t <| ok_then hfeeds <| ok_then hd <| need_then htier <| ok_then hcls <| need_then (decide_eq_true hcount) <|
      need_then hrows <| need_then hcols <| need_then (decide_eq_true hfit) <| ok_then hopen <| ok_then hclass <| ok_then hdom ?_
    -- the tile set with its rings, then the feeds from its columns
    refine ok_then hnew ?_
    dsimp only
    rw [ho]
    exact ok_then hadd <| ok_then hloop rfl
  case free =>
    intro t o ho hfree n s₁ hstart
    exact ruzia_of_okResp t (freeBody_ok ho hfree hstart)
  case default =>
    rintro t hmult _ rfl hdom hempty i s₁ hinput j s₂ houtput
    exact ruzia_of_okResp t <| need_then hmult <| ok_then hdom <| need_then hempty <| ok_then hinput <| ok_then houtput rfl
  case set =>
    rintro t o ho tiles htiles hdesk _ rfl hsome hzero hlen _ rfl hrecs l hl hopen w s₁ happly
    refine ruzia_of_okResp t <| resolve_then ho ?_
    rw [htiles]
    exact owned_then hdesk <| need_then (decide_eq_true hsome) <| reserved_then hzero <| need_then (decide_eq_true hlen) <|
      ok_then hrecs <| ok_then hl <| settled_then hopen <| ok_then happly rfl
  case bulk =>
    intro t o ho htiles hdesk hsome hlen b hb l hl hdata hopen hroom
    exact ruzia_of_accResp t <| resolve_then ho <| need_then htiles <| owned_then hdesk <| need_then (decide_eq_true hsome) <|
      need_then (decide_eq_true hlen) <| ok_then hb <| ok_then hl <| need_then hdata <| settled_then hopen <| mayDefer_then hroom rfl
  case get =>
    rintro t o ho tiles htiles _ rfl hcount hzero bs hread
    refine ruzia_of_okResp t <| resolve_then ho ?_
    rw [htiles]
    exact need_then hcount <| reserved_then hzero <| ok_then hread rfl

/-- Settles O8: the checks of each body pass in their order, and a Group's change is queued for its domains' tick boundaries. -/
theorem groupCompletes : Obligations.GroupCompletes := by
  intro f s
  refine ⟨?info, ?alloc, ?free, ?set, ?member⟩
  case info =>
    intro t o ho g hg
    exact ruzia_of_okResp t <| resolve_then ho <| by rw [hg]
  case alloc =>
    rintro t cls hcls hzero hclass i hi _ rfl
    refine ruzia_of_okResp t <| ok_then hcls <| reserved_then hzero <| ok_then hclass ?_
    rw [hi]
  case free =>
    rintro t o ho _ rfl _ rfl _ rfl _ rfl
    exact ruzia_of_okResp t <| ok_then ho rfl
  case set =>
    rintro t o ho hdesk g hg hgain htime l hl hopen bs w hwhen _ rfl
    refine ruzia_of_okResp t <| resolve_then ho <| owned_then hdesk ?_
    rw [hg]
    exact need_then hgain <| need_then (decide_eq_true htime) <| ok_then hl <| settled_then hopen <| ok_then hwhen rfl
  case member =>
    rintro t o ho k hk g tiles hg htiles hdesk hdeskTiles _ rfl _ rfl hfirst hrows hisIn hzero htime l hl hopen hopenTiles hroom bs w
      hwhen
    refine ruzia_of_okResp t <| resolve_then ho <| resolve_then hk ?_
    rw [hg, htiles]
    -- who may change the Group and the tile set, the ranges, the launch
    refine owned_then hdesk <| owned_then hdeskTiles <| need_then (decide_eq_true hfirst) <| need_then hrows <|
      need_then (decide_eq_true hisIn) <| reserved_then hzero <| need_then (decide_eq_true htime) <| ok_then hl ?_
    -- both objects are open to change, and each row that joins has room for one more Group
    exact settled_then hopen <| settled_then hopenTiles <| need_then hroom <| ok_then hwhen rfl

end Sys2Proof.Proofs
end

section
/-! The Scene commands (R206-R216, R229-R231, R331): a command whose own checks all pass is answered with its effect in force, or is
held until its later stage. Each proof walks the checks of the command's body in their order (R309). From these O14, O27 and O28. -/
namespace Sys2Proof.Proofs.Scenes
open Sys2Proof.Machine Sys2Proof.Laws

variable {f : CmdFrame} {s : State}

/-- The check that a launch is at most 2^32 samples ahead, where its KIND gives an index (R50, R51). -/
theorem launchNear_ok {l : Launch} {d : Nat} (h : l.kind = 0 ∨ l.index s d ≤ s.idx d + 2 ^ 32) :
    (l.kind == 0 || decide (l.index s d ≤ s.idx d + 2 ^ 32)) = true := by simpa using h

/-- A Scene more stays within the desk's quota and the engine's 1,024 Scenes (R210). -/
theorem storeLimit_new {desk : Nat} (hquota : within s desk 9 1 = .ok ()) (hcount : (s.ofType tScene).length < 1024) :
    storeLimit s desk (none : Option Obj).isSome = .ok () :=
  ok_then hquota <| need_true _ _ _ _ (by simp [hcount])

/-- A Scene that completes within the limits of R210 enters the working copy, and SCENE_STORED reports it (R209). -/
theorem exec_sceneStoreComplete_fits (hserves : s.serving = true) {d q : Nat} {j : Job} {o : Obj} {y : Scene} {b : SceneBody}
    (hjob : (s.jobs.find? fun j => j.desk == d && j.seq == q && j.op == 0x0A41 && j.stage == 1) = some j) (hheld : j.num ≤ 1)
    (hobj : s.obj j.handle = some o) (hscene : o.scene? = some y) (hcoming : y.coming = some b) (hsize : b.bytes ≤ 16777216)
    (hlibrary : s.sceneUse - y.body.bytes + b.bytes ≤ 50331648) : exec (.sceneStoreComplete d q) s =
      .next ((s.upd j.handle fun x => x.onScene fun z => { z with body := b, coming := none, ashlar := s.now }).complete j 0x0A45 0
        (le 4 j.handle ++ le 4 b.objects.length ++ le 4 b.bytes ++ le 4 0)) := by
  have hlimit : ¬ j.num ≥ 2 := by omega
  change execSceneStoreComplete d q s = _
  simp only [execSceneStoreComplete, hserves, Bool.not_true, Bool.false_eq_true, if_false, hjob, hlimit, hobj, hscene, hcoming,
    Option.bind_some, Option.map_some, Option.getD_some, hsize, hlibrary, decide_true, Bool.and_self, if_true]

/-- A recall found and still two ashlars before its launch loses what it staged and ends; the status, the ashlar and the index of its
completion are the next free values (log entries 2 and 41). -/
theorem sceneCancelBody_ok {r : Recall} (hr : (s.recalls.find? fun r => r.id == u32 f 0) = some r)
    (hdesk : f.desk = r.desk ∨ f.desk = 0) (hlocal : r.quarry = 0) (hearly : s.now + 2 ≤ r.ask s / 8) :
    sceneCancelBody s f = okResp ({ s.unstage r with freeCtr := (s.unstage r).freeCtr + 3 }.recallDone { r with objs := [] }
      (Config.freeNat (s.unstage r).freeCtr % 65536) (Config.freeNat ((s.unstage r).freeCtr + 1))
      (Config.freeNat ((s.unstage r).freeCtr + 2))) := by
  unfold sceneCancelBody
  rw [hr]
  exact need_then (by simpa using hdesk) <| need_then (by simp [hlocal, hearly]) rfl

end Sys2Proof.Proofs.Scenes

namespace Sys2Proof.Proofs
open Sys2Proof.Machine Sys2Proof.Laws RingsAndRoutes Blocks Scenes

/-- Settles O14: the checks of each body pass in their order. -/
theorem sceneCompletes : Obligations.SceneCompletes := by
  intro f s
  refine ⟨?info, ?delete, ?safe, ?number, ?plan, ?go⟩
  case info =>
    intro t o ho x hx
    exact ruzia_of_okResp t <| resolve_then ho <| by rw [hx]
  case delete =>
    intro t o ho hdesk hidle
    exact ruzia_of_okResp t <| resolve_then ho <| owned_then hdesk <| need_then hidle rfl
  case safe =>
    intro t o ho hkind hdesk hmask hopen
    exact ruzia_of_okResp t <| resolve_then ho <| need_then hkind <| owned_then hdesk <| need_then (decide_eq_true hmask) <|
      settled_then hopen rfl
  case number =>
    rintro t o ho hdesk hzero _ rfl hopen hunique
    exact ruzia_of_okResp t <| resolve_then ho <| owned_then hdesk <| reserved_then hzero <| settled_then hopen <|
      need_then hunique rfl
  case plan =>
    rintro t hzero r hr _ rfl hplanned _ rfl
    refine ruzia_of_okResp t <| reserved_then hzero ?_
    rw [hr]
    exact need_then hplanned rfl
  case go =>
    intro t a ha hheld
    refine ruzia_of_okResp t ?_
    simp only [opSceneGo, sceneGoBody, ha]
    exact need_then hheld rfl

/-- Settles O27: a store into a new Scene passes its checks, within R210 at its acceptance, and holds what it captured; the
completion keeps it (`exec_sceneStoreComplete_fits`). -/
theorem sceneStoreCompletes : Obligations.SceneStoreCompletes := by
  intro f s
  refine ⟨?store, ?complete⟩
  case store =>
    rintro tTwin w tRamp tRoute tNode lawTwin lawRoute i _ _ t hnew hall hscope hTwin hw hRamp hRoute hNode hlawTwin hlawRoute hroom
      hquota hcount hindex rfl rfl _ rfl
    refine ruzia_of_accResp t ?_
    simp only [opSceneStore, sceneStoreBody, hnew, hall]
    -- steps 9 to 14 of R309: no Scene and no object is named, the ranges, the room for a deferred command
    refine need_then rfl <| ok_then rfl <| ok_then rfl <| ok_then rfl <| need_then (decide_eq_true hscope) <| ok_then hTwin <|
      ok_then hw <| ok_then hRamp <| ok_then hRoute <| ok_then hNode <| ok_then hlawTwin <| ok_then hlawRoute <| ok_then rfl <|
      mayDefer_then hroom ?_
    -- steps 15 and 16: the quota and the room for one Scene more
    rw [storeLimit_new hquota hcount]
    simp only [hindex]
    rfl
  case complete =>
    intro d q j o y b hserves hjob hheld hobj hscene hcoming hsize hlibrary
    exact exec_sceneStoreComplete_fits hserves hjob hheld hobj hscene hcoming hsize hlibrary

/-- Settles O28: a recall and an arm pass their checks and are held; a recall that is cancelled ends by `sceneCancelBody_ok`. That an
arm of KIND 0 launches at the first tick at least 3P + 10 ashlars on, and what the completion of a cancelled recall carries, are the
model's choices (log entries 43 and 41). -/
theorem recallCommandsComplete : Obligations.RecallCommandsComplete := by
  intro f s
  refine ⟨?launch, ?arm, ?cancel⟩
  case launch =>
    rintro o overs l _ t ho hdesk hovers hl hnear hroom hfew rfl
    exact ruzia_of_accResp t <| resolve_then ho <| owned_then hdesk <| ok_then hovers <| ok_then hl <| need_then (launchNear_ok hnear) <|
      mayDefer_then hroom <| need_then (decide_eq_true hfew) rfl
  case arm =>
    rintro overs l _ _ _ _ t hnumber hhold hzero hovers hl hnear hkeeper hdepth hroom hfew rfl rfl rfl rfl
    refine ruzia_of_accResp t <| need_then (by simpa using hnumber) <| need_then (decide_eq_true hhold) <| reserved_then hzero <|
      ok_then hovers <| ok_then hl <| need_then (launchNear_ok hnear) <| need_then hkeeper <| need_then (decide_eq_true hdepth) <|
      mayDefer_then hroom <| need_then (decide_eq_true hfew) ?_
    simp only [beq_iff_eq]
    rfl
  case cancel =>
    intro r t hr hdesk hlocal hearly
    exact ⟨_, _, _, ruzia_of_okResp t (sceneCancelBody_ok hr hdesk hlocal hearly)⟩

end Sys2Proof.Proofs
end

section
/-! The rate domain commands (R242-R259, R332): a command whose own checks all pass is answered with its effect in force, or is
accepted with its rate sequence in progress. Each proof walks the checks of the command's body in their order (R309). From these O15
and O30. -/
namespace Sys2Proof.Proofs.RateDomains
open Sys2Proof.Machine Sys2Proof.Laws Scenes

variable {f : CmdFrame} {s t : State} {d : Nat} {l : Launch}

/-! ## Allocation of a Bridge (R247, R250) -/

/-- The core that has room for a Bridge, or has it once a consolidation has run, is the one that the rest of the allocation takes. -/
theorem chosenCore_then {γ : Type} (pk : Option (Nat × Bool)) (plan : Option (Nat × List (Nat × Nat))) {g : Nat → Except Err γ}
    {r : Except Err γ} (core : Nat) :
    ((match pk, plan with
      | some p, _ => .ok p.1
      | none, some q => .ok q.1
      | none, none => .error { status := eNoResource }) : Except Err Nat) = .ok core → g core = r →
    (match pk, plan with
      | some p, _ => (Except.ok p.1 : Except Err Nat) >>= g
      | none, some q => (Except.ok q.1 : Except Err Nat) >>= g
      | none, none => (Except.error { status := eNoResource } : Except Err Nat) >>= g) = r :=
  match pk, plan with
  | some _, _ => ok_then
  | none, some _ => ok_then
  | none, none => nofun

/-! ## The three commands that begin a rate sequence (R254, R255) -/

/-- A command that keeps its launch, or that is not strict, is not refused as late (R219). -/
theorem not_late {w : When} (h : w.slipped = true → strictFlag f = false) : ¬ (w.slipped && strictFlag f) = true := by
  cases hw : w.slipped
  · simp
  · simp [h hw]

section
variable (hd : domainAt f 0 = .ok d) (hzero : fld f 2 2 = 0) (hl : launchAt s f 4 = .ok l)
  (hnear : l.kind = 0 ∨ l.index s d ≤ s.idx d + 2 ^ 32) (hroom : s.jobsOf f.desk < 32)
include hd hzero hl hnear hroom

/-- A start that passes is held; one whose instant has come halts the domain with its restart set. That a start with a later launch
leaves the domain STOPPED until that launch is the model's choice (log entry 44). -/
theorem rateSetBody_start {start : Nat} {q : RateSeq} (hrate : u8 f 1 ≤ 5) (hdom : d ≠ 0) (hstopped : (s.dom d).st = .stopped)
    (hstart : start = if l.kind = 0 then s.q else max s.q (if l.kind = 2 then l.val else instantOf l.val (s.fs l.dom)))
    (hq : q = { desk := f.desk, seq := f.seq, op := 0x0A82, oldRate := (s.dom d).rate, newRate := u8 f 1, s := start,
                restart := restartIndex start (u8 f 1), qtime := none, retyped := [] })
    (htests : rateTests s d q = .ok t) : rateSetBody 0x0A82 s f = accResp
      (if start = (t.defer f 0x0A82 0 none 1 0).q then (t.defer f 0x0A82 0 none 1 0).haltDom d q else t.defer f 0x0A82 0 none 1 0) := by
  refine ok_then hd <| need_then (decide_eq_true hrate) <| reserved_then hzero <| ok_then hl <| need_then (launchNear_ok hnear) <|
    need_then (by simp [hdom]) <| need_then (by simp [hstopped]) <| need_then rfl <| need_then rfl <| mayDefer_then hroom ?_
  simp only [beq_self_eq_true, if_true, beq_iff_eq, Nat.reduceEqDiff, if_false]
  rw [← hstart, ← hq, htests]

/-- A stop that passes is held with its sequence in the domain; one that slips past its launch tells of it (R219, R255). -/
theorem rateSetBody_stop {w : When} {q : RateSeq} (hrate : u8 f 1 = 0) (hdom : d ≠ 0) (hruns : (s.dom d).st ≠ .stopped)
    (hlaunchable : (s.dom d).launchable = true) (hidle : (s.dom d).seq = none) (hw : w = rateWhen s l d)
    (hstrict : w.slipped = true → strictFlag f = false)
    (hq : q = { desk := f.desk, seq := f.seq, op := 0x0A83, oldRate := (s.dom d).rate, newRate := 0xFF, s := w.s, restart := 0,
                qtime := none, retyped := [] }) : rateSetBody 0x0A83 s f = accResp
      (((s.setDom d fun x => { x with seq := some q }).defer f 0x0A83 0 none 1 0).slipEvent f 0x0A83 1 w) := by
  refine ok_then hd <| need_then (by simp [hrate]) <| reserved_then hzero <| ok_then hl <| need_then (launchNear_ok hnear) <|
    need_then (by simp [hdom]) <| need_then (by simp [hruns]) <| need_then (by simp [hlaunchable]) <| need_then (by simp [hidle]) <|
    mayDefer_then hroom ?_
  simp only [beq_self_eq_true, if_true]
  rw [← hw, ← hq]
  exact if_neg (not_late hstrict)

/-- A rate change that passes is held with what it needs at its new rate reserved; one that slips past its launch tells of it. -/
theorem rateSetBody_rate {w : When} {q : RateSeq} (hrate : u8 f 1 ≤ 5) (hruns : (s.dom d).st ≠ .stopped) (hw : w = rateWhen s l d)
    (hstrict : w.slipped = true → strictFlag f = false)
    (hq : q = { desk := f.desk, seq := f.seq, op := 0x0A84, oldRate := (s.dom d).rate, newRate := u8 f 1, s := w.s,
                restart := restartIndex (instantOf (stopIndex s d w.s) (s.fs d)) (u8 f 1), qtime := none, retyped := [] })
    (htests : rateTests s d q = .ok t) :
    rateSetBody 0x0A84 s f = accResp ((t.defer f 0x0A84 0 none 1 0).slipEvent f 0x0A84 1 w) := by
  refine ok_then hd <| need_then (decide_eq_true hrate) <| reserved_then hzero <| ok_then hl <| need_then (launchNear_ok hnear) <|
    need_then rfl <| need_then (by simp [hruns]) <| need_then rfl <| need_then rfl <| mayDefer_then hroom ?_
  simp only [beq_iff_eq, Nat.reduceEqDiff, if_false]
  rw [← hw, ← hq, htests]
  exact if_neg (not_late hstrict)

end

end Sys2Proof.Proofs.RateDomains

namespace Sys2Proof.Proofs
open Sys2Proof.Machine Sys2Proof.Laws RingsAndRoutes Blocks Channels RateDomains

/-- Settles O15: the checks of each body pass in their order; a Bridge is freed as every object is (`freeBody_ok`). -/
theorem domainCompletes : Obligations.DomainCompletes := by
  intro f s
  refine ⟨?info, ?config, ?bridgeAlloc, ?bridgeFree, ?bridgeInfo, ?bridgeCoefficients⟩
  case info =>
    rintro t d hd hzero _ rfl _ rfl
    exact ruzia_of_okResp t <| ok_then hd <| reserved_then hzero rfl
  case config =>
    rintro t d hd _ rfl hmult hzero hempty hfits
    exact ruzia_of_okResp t <| ok_then hd <| need_then hmult <| reserved_then hzero <| need_then hempty <| need_then hfits rfl
  case bridgeAlloc =>
    rintro t x hx y hy hdiffer _ rfl hcount cls hcls b hb hclass hfrom hto _ rfl _ rfl hwork hrings hbridges _ rfl pk hpk plan hplan
      core hcore i hi _ rfl _ rfl r s₂ hnew _ rfl _ rfl
    refine ruzia_of_okResp t <| ok_then hx <| ok_then hy <| need_then hdiffer <| need_then hcount <| ok_then hcls ?_
    rw [hb]
    -- the class, both domains, the quotas and the 2,048 base-rate channels
    refine ok_then hclass <| ok_then hfrom <| ok_then hto <| ok_then hwork <| ok_then hrings <| need_then (decide_eq_true hbridges) ?_
    -- the core that takes the Bridge, then its rings
    dsimp only
    rw [← hpk, ← hplan]
    refine chosenCore_then pk plan core hcore ?_
    rw [hi]
    exact ok_then hnew rfl
  case bridgeFree =>
    intro t o ho hfree n s₁ hstart
    exact ruzia_of_okResp t (freeBody_ok ho hfree hstart)
  case bridgeInfo =>
    rintro t o ho b hb _ rfl _ rfl hplain
    refine ruzia_of_okResp t <| resolve_then ho ?_
    rw [hb]
    exact if_pos hplain
  case bridgeCoefficients =>
    rintro t o ho b hb _ rfl _ rfl hlong bulk hbulk hroom
    refine ruzia_of_accResp t <| resolve_then ho ?_
    rw [hb]
    exact (if_neg hlong).trans <| ok_then hbulk <| mayDefer_then hroom rfl

/-- Settles O30: each command is the rule of its body above. -/
theorem rateCommandsComplete : Obligations.RateCommandsComplete := by
  intro f s d l hd hzero hl hnear hroom
  refine ⟨?start, ?stop, ?rate⟩
  case start =>
    intro start t q taken hrate hdom hstopped hstart hq htests
    exact ruzia_of_accResp taken <| rateSetBody_start hd hzero hl hnear hroom hrate hdom hstopped hstart hq htests
  case stop =>
    intro w q taken hrate hdom hruns hlaunchable hidle hw hstrict hq
    exact ruzia_of_accResp taken <|
      rateSetBody_stop hd hzero hl hnear hroom hrate hdom hruns hlaunchable hidle hw hstrict hq
  case rate =>
    intro w t q taken hrate hruns hw hstrict hq htests
    exact ruzia_of_accResp taken <| rateSetBody_rate hd hzero hl hnear hroom hrate hruns hw hstrict hq htests

end Sys2Proof.Proofs
end

section
/-! The meter, svc and capture commands (R260-R279, R335): a command whose own checks all pass is answered with its effect in force, or
is held until its later stage. Each proof walks the checks of the command's body in their order (R309). From these O17, O18 and O19. -/
namespace Sys2Proof.Proofs.BroadcastServices
open Sys2Proof.Machine Sys2Proof.Laws RingsAndRoutes Blocks Channels

/-! ## What Meters, Services and Captures share: how they are freed (R315), and how their parameters are written (R317) -/

variable {f : CmdFrame} {s : State} {r : RuziaOp} {tys : List Nat} {op law : Nat} {spec : State → Obj → Nat → Option PSpec}

theorem ruzia_free (hbody : r.body = freeBody tys anyFree noBefore) (t : Taken r f s) (o : Obj) (ho : freeChecks s f tys = .ok o)
    (hfree : anyFree s o = .ok ()) (n : Nat) (u : State) (hstart : (noBefore o s).startFree o = (n, u)) :
    ruzia r f s = answered r f u 0 (le 4 n) :=
  ruzia_of_okResp t (hbody ▸ freeBody_ok ho hfree hstart)

/-- Records that come as bulk data are held until the data has arrived. -/
theorem ruzia_paramSet_bulk (hbody : r.body = paramSetBody op tys (plainWrite op spec law)) (t : Taken r f s) (o : Obj)
    (ho : names s (u32 f 0) tys o) (hdesk : f.desk = o.desk ∨ f.desk = 0) (hbulk : u16 f 30 == 0xFFFF) (b : Bulk)
    (hb : bulkAt s f 32 0 32768 = .ok b) (hlen : b.len % 8 == 0 && 1 ≤ b.len) (x : Timing3) (hx : timing3 f = .ok x) (l : Launch)
    (hl : launchAt s f 4 = .ok l) (hopen : open' o) (hroom : s.jobsOf f.desk < 32) :
    ruzia r f s = answered r f (s.defer f op o.handle (some b) 0 0) 1 [] :=
  ruzia_of_accResp t (hbody ▸ paramSetBody_bulk ho hdesk hbulk hb hlen hx hl hopen hroom)

/-- Records in the frame are applied at once: a write without block pages opens no deferred command (`plainWrite_jobs`). -/
theorem ruzia_paramSet_inline (hbody : r.body = paramSetBody op tys (plainWrite op spec law)) (t : Taken r f s) (o : Obj)
    (ho : names s (u32 f 0) tys o) (hdesk : f.desk = o.desk ∨ f.desk = 0) (hinline : ¬ (u16 f 30 == 0xFFFF))
    (hcount : 1 ≤ u16 f 30 && u16 f 30 ≤ 26) (recs : List (Nat × Nat)) (hrecs : eachItem (recordAt f) (u16 f 30) 0 = .ok recs)
    (w : When) (u : State) (hwrite : plainWrite op spec law s f o recs = .ok (w, u)) :
    ruzia r f s = answered r f u 0 (le 8 w.index) :=
  ruzia_of_okResp t (hbody ▸ paramSetBody_inline ho hdesk hinline hcount hrecs hwrite (plainWrite_jobs hwrite))

end Sys2Proof.Proofs.BroadcastServices

namespace Sys2Proof.Proofs
open Sys2Proof.Machine Sys2Proof.Laws RingsAndRoutes Blocks Channels BroadcastServices

/-- Settles O17: the checks of each body pass in their order; a Meter is freed and written by the shared rules above. That a Meter takes
the lowest free run of slots is the model's choice (log entry 27). -/
theorem meterCompletes : Obligations.MeterCompletes := by
  intro f s
  refine ⟨?info, ?alloc, ruzia_free rfl, ruzia_paramSet_bulk rfl, ruzia_paramSet_inline rfl, ?loud⟩
  case info =>
    intro t o ho m hm
    exact ruzia_of_okResp t <| resolve_then ho <| by rw [hm]
  case alloc =>
    rintro t _ rfl hkind d hd cls hcls hpaired _ rfl hpoints hzero hclass hdom _ rfl _ rfl hwork _ rfl hcount hroom slot i hslot hi
      _ rfl _ rfl ts s₂ hseats u ans hseated
    -- steps 11 to 16 of R309: the ranges, the class, the domain, the quota, the room of the engine
    refine ruzia_ok t <| need_then (decide_eq_true hkind) <| ok_then hd <| ok_then hcls <| need_then (decide_eq_true hpaired) <|
      need_then hpoints <| reserved_then hzero <| ok_then hclass <| ok_then hdom <| ok_then hwork <|
      need_then (decide_eq_true hcount) <| need_then hroom ?_
    -- the slots and the index found, then the cores that take the points
    rw [hslot, hi]
    exact ok_then hseats hseated
  case loud =>
    rintro t _ rfl os hos hstate hzero hcount l hl hopen ws hws hlate _ _ ⟨⟩ _ rfl
    exact ruzia_of_okResp t <| ok_then hos <| need_then (decide_eq_true hstate) <| reserved_then hzero <| need_then hcount <|
      ok_then hl <| ok_then hopen <| ok_then hws <| ok_then hlate rfl

/-- Settles O18: the checks of each body pass in their order; a Service is freed and written by the shared rules above, and its
parameters are read as those of a Strip are (`paramGetBody_ok`). That an IFB takes the lowest free number is the model's choice (log
entry 27). -/
theorem svcCompletes : Obligations.SvcCompletes := by
  intro f s
  refine ⟨?info, ?alloc, ruzia_free rfl, ruzia_paramSet_bulk rfl, ruzia_paramSet_inline rfl, ?get, ?talk, ?solo⟩
  case info =>
    intro t o ho v hv
    exact ruzia_of_okResp t <| resolve_then ho <| by rw [hv]
  case alloc =>
    rintro t _ rfl hkind d hd cls hcls hmode _ rfl hsize hzero hclass hdom _ rfl _ rfl _ rfl hwork hrows _ rfl hcount _ rfl _ rfl
      core hcore i hi _ rfl _ rfl _ rfl r s₂ hrings _ rfl u ans hseated
    -- steps 11 to 14 of R309: the ranges, the class, the domain
    refine ruzia_ok t <| need_then hkind <| ok_then hd <| ok_then hcls <| need_then hmode <| need_then hsize <|
      reserved_then hzero <| ok_then hclass <| ok_then hdom ?_
    -- steps 15 and 16: the quotas, the room of the engine, the core that takes the Service
    refine ok_then hwork <| ok_then hrows <| need_then (decide_eq_true hcount) <| ok_then hcore ?_
    -- the object with its rings
    rw [hi]
    exact ok_then hrings hseated
  case get =>
    intro t o ho hcount hzero ids hids bs u hread
    exact ruzia_of_okResp t (paramGetBody_ok svcSpec svcUse ho hcount hzero hids hread)
  case talk =>
    rintro t ps hps hinput hpress hzero hsome l hl hopen ws hws hlate _ _ ⟨⟩ _ rfl
    exact ruzia_of_okResp t <| ok_then hps <| need_then (decide_eq_true hinput) <| need_then (decide_eq_true hpress) <|
      reserved_then hzero <| need_then hsome <| ok_then hl <| ok_then hopen <| ok_then hws <| ok_then hlate rfl
  case solo =>
    rintro t o ho _ rfl xs hxs hdesk v hv hmonitor hflags hzero hcount srcs hsrcs l hl hopen hlive w hw _ _ ⟨⟩ _ rfl _ rfl hsources
      htaps hlate
    -- steps 9 to 11 of R309: the handles, who may change the Service, the ranges
    refine ruzia_of_okResp t <| resolve_then ho <| ok_then hxs <| owned_then hdesk ?_
    rw [hv]
    refine need_then hmonitor <| need_then (decide_eq_true hflags) <| reserved_then hzero <| need_then (decide_eq_true hcount) <|
      ok_then hsrcs <| ok_then hl ?_
    -- what is open to change, the room for the sources, the launch in time
    exact settled_then hopen <| need_then hlive <| ok_then hw <| need_then (decide_eq_true hsources) <| need_then htaps <|
      ok_then hlate rfl

/-- Settles O19: the checks of each body pass in their order; a Capture is freed and written by the shared rules above, and
`capture.read` is held with the part of the window it sends (R279). -/
theorem captureCompletes : Obligations.CaptureCompletes := by
  intro f s
  refine ⟨?info, ?alloc, ruzia_free rfl, ?freeze, ?play, ?stop, ?release, ?read, ruzia_paramSet_bulk rfl,
    ruzia_paramSet_inline rfl⟩
  case info =>
    intro t o ho c hc
    exact ruzia_of_okResp t <| resolve_then ho <| by rw [hc]
  case alloc =>
    rintro t d hd cls hcls _ rfl _ rfl hchannels hlength hclass hdom _ rfl _ rfl hwork hrows hcount hroom hregion core hcore i hi
      _ rfl _ rfl r s₂ hrings _ rfl u ans hseated
    -- steps 11 to 14 of R309: the ranges, the class, the domain
    refine ruzia_ok t <| ok_then hd <| ok_then hcls <| need_then hchannels <| need_then hlength <| ok_then hclass <| ok_then hdom ?_
    -- steps 15 and 16: the quotas, the Captures, channels and samples of the engine, the core
    refine ok_then hwork <| ok_then hrows <| need_then (decide_eq_true hcount) <| need_then (decide_eq_true hroom) <|
      need_then (decide_eq_true hregion) <| ok_then hcore ?_
    -- the object with its rings
    rw [hi]
    exact ok_then hrings hseated
  case freeze =>
    rintro t o ho hdesk l hl hopen hrolling w hw hlate _ rfl
    exact ruzia_of_okResp t <| resolve_then ho <| owned_then hdesk <| ok_then hl <| settled_then hopen <| ok_then hrolling <|
      ok_then hw <| ok_then hlate rfl
  case play =>
    rintro t o ho hdesk c hc _ rfl _ rfl hfit l hl w hw _ rfl _ rfl hramps hopen hfrozen hlate
    refine ruzia_of_okResp t <| resolve_then ho <| owned_then hdesk ?_
    rw [hc]
    exact need_then (decide_eq_true hfit) <| ok_then hl <| ok_then hw <| need_then (decide_eq_true hramps) <| settled_then hopen <|
      ok_then hfrozen <| ok_then hlate rfl
  case stop =>
    intro t o ho hdesk l hl hopen hplaying w hw hlate
    exact ruzia_of_okResp t <| resolve_then ho <| owned_then hdesk <| ok_then hl <| settled_then hopen <| ok_then hplaying <|
      ok_then hw <| ok_then hlate rfl
  case release =>
    intro t o ho hdesk hopen hfrozen
    exact ruzia_of_okResp t <| resolve_then ho <| owned_then hdesk <| settled_then hopen <| ok_then hfrozen rfl
  case read =>
    rintro t o ho hdesk c hc _ rfl hfirst hchannels hfit b hb hlen hopen hfixed hroom
    refine ruzia_of_accResp t <| resolve_then ho <| owned_then hdesk ?_
    rw [hc]
    exact need_then (decide_eq_true hfirst) <| need_then hchannels <| need_then (decide_eq_true hfit) <| ok_then hb <|
      need_then hlen <| settled_then hopen <| ok_then hfixed <| mayDefer_then hroom rfl

end Sys2Proof.Proofs
end

section
/-! The frames of Ruzia commands (R280, R281, R284, R309, R310): the header's fields read back from the bytes of a frame, a command is
the row of its opcode, and a frame that fails a step of R309 is refused there. From these O53, O52 and O54. -/
namespace Sys2Proof.Proofs.Frames
open Sys2Proof.Machine Sys2Proof.Laws

variable {s : State} {c : Instr} {op : Nat} {f : CmdFrame} {o : RuziaOp}

/-! ## Fields of a frame's bytes (R10) -/

/-- A field behind another one: its offset counts from the end of that one. -/
theorem fieldAt_behind {j o k : Nat} (n : Nat) (bs : List Byte) (h : j ≤ o) : fieldAt (le j n ++ bs) o k = fieldAt bs (o - j) k := by
  rw [fieldAt_skip _ _ _ _ (by simpa using h), le_length]

theorem drop_behind {j o : Nat} (n : Nat) (bs : List Byte) (h : j ≤ o) : (le j n ++ bs).drop o = bs.drop (o - j) := by
  rw [List.drop_append, List.drop_eq_nil_of_le (by simpa using h), le_length, List.nil_append]

/-- R280: what the bytes of a command frame are decoded to is its opcode and the frame itself. -/
theorem frameOf_cmdBytes (h : FitsHeader op f) (rest : List Byte) : frameOf f.via (cmdBytes op f ++ rest) = (op, f) := by
  have hpayload : (f.payload ++ rest).take f.len = f.payload := by rw [← h.whole, List.take_left]
  obtain ⟨hop, hlen, hseq, hdesk, hflags, hres, -⟩ := h
  simp only [Nat.reducePow] at hop hlen hseq hdesk hflags hres
  simp [frameOf, cmdBytes, fieldAt_behind, drop_behind, fieldAt_front, Nat.mod_eq_of_lt, hop, hlen, hseq, hdesk, hflags, hres, hpayload]

/-- R281: every field of a response stands where the table puts it. -/
theorem responseBytes_fields {st a : Nat} {p : List Byte} (hop : op < 2 ^ 16) (hp : p.length < 2 ^ 16) (hseq : f.seq < 2 ^ 32)
    (hdesk : f.desk < 2 ^ 16) (hst : st < 2 ^ 16) :
    fieldAt (responseBytes op f st a p) 0 2 = op ∧ fieldAt (responseBytes op f st a p) 2 2 = p.length ∧
    fieldAt (responseBytes op f st a p) 4 4 = f.seq ∧ fieldAt (responseBytes op f st a p) 8 2 = f.desk ∧
    fieldAt (responseBytes op f st a p) 10 2 = st ∧ fieldAt (responseBytes op f st a p) 12 4 = a % 2 ^ 32 ∧
    (responseBytes op f st a p).drop 16 = p := by
  simp only [Nat.reducePow] at hop hp hseq hdesk hst
  simp [responseBytes, fieldAt_behind, drop_behind, fieldAt_front, Nat.mod_eq_of_lt, hop, hp, hseq, hdesk, hst]

/-- R284: TYPE in bits 31-26, GEN in bits 25-20, INDEX in bits 19-0. -/
theorem mkHandle_fields {ty gen idx : Nat} (hty : ty < 64) (hgen : gen < 64) (hidx : idx < 2 ^ 20) :
    hType (mkHandle ty gen idx) = ty ∧ hGen (mkHandle ty gen idx) = gen ∧ hIdx (mkHandle ty gen idx) = idx ∧
    mkHandle ty gen idx < 2 ^ 32 := by
  unfold hType hGen hIdx mkHandle
  omega

/-! ## A command is the row of its opcode (R310) -/

/-- Each arm of `exec` for a Ruzia command runs the table's row of its opcode, and `red.switch` its relay. -/
theorem exec_of_ruziaOf (h : ruziaOf c = some (op, f)) (s : State) : exec c s = .next (runOpcode op f s) := by
  cases c <;> cases h <;> rfl

/-- Opcode 0 marks a fragment (R299), and is no command's. -/
theorem opcode_ne_zero (h : ruziaOf c = some (op, f)) : op ≠ 0 := by
  cases c <;> cases h <;> decide

/-- A frame of bytes whose opcode is not that of a fragment runs its opcode. -/
theorem frameBytes_of_frameOf {via : Via} {bs : List Byte} (hbs : frameOf via bs = (op, f)) (hop : op ≠ 0) :
    s.frameBytes via bs = runOpcode op f s := by
  have hfirst : fieldAt bs 0 2 = op := congrArg Prod.fst hbs
  simp [State.frameBytes, hfirst, hop, hbs]

theorem op_of_rowOf (h : rowOf op = some o) : o.op = op := by simpa using List.find?_some h

/-! ## The steps of R309 -/

/-- The steps 1 to 7 of R309 let the frame through to the checks of the row's body. -/
def Passes (o : RuziaOp) (f : CmdFrame) (s : State) : Prop :=
  takeable s f = true ∧ frameCheck f = .ok () ∧ clears s o.op o.acc o.desk0 o.lenOk f = .ok ()

theorem isOk_iff {e : Except Err Unit} : e.isOk = true ↔ e = .ok () := by
  rcases e with _ | ⟨⟩ <;> simp [Except.isOk, Except.toBool]

/-- A standby relays only a `red.switch` that it would itself let through (R485). -/
theorem passes_of_relays (h : relays s f = true) : Passes opRedSwitch f s := by
  simp only [relays, Bool.and_eq_true, isOk_iff] at h
  obtain ⟨⟨⟨⟨⟨_, htake⟩, hframe⟩, _⟩, hclear⟩, _⟩ := h
  exact ⟨htake, hframe, hclear⟩

/-- A frame that does not pass the steps is decided by the operation all rows share. -/
theorem exec_of_not_passes (hc : ruziaOf c = some (op, f)) (hrow : rowOf op = some o) (hno : ¬ Passes o f s) :
    exec c s = ruzia o f s := by
  rw [exec_of_ruziaOf hc, runOpcode, hrow]
  by_cases hswitch : op = 0x0E02
  · subst hswitch
    cases hrow
    have hrelay : ¬ relays s f = true := fun h => hno (passes_of_relays h)
    simp [redSwitchState, hrelay, ruzia]
  · simp [hswitch, ruzia]

/-! ### The checks of the steps, and the refusal of each -/

/-- A check that fails refuses with its status, whatever follows it. -/
theorem need_refuses {β : Type} {b : Bool} {st fi h : Nat} {u : Unit → Except Err β} (hb : b = false) :
    (need b st fi h >>= u) = .error { status := st, field := fi, handle := h } := by rw [hb]; rfl

theorem frameCheck_of_long (h : 240 < f.len) : frameCheck f = .error { status := eLength } :=
  need_refuses (by simp [h])

theorem frameCheck_of_reserved (hshort : f.len ≤ 240) (hwhole : f.payload.length = f.len) (h : 8 ≤ f.flags ∨ f.res ≠ 0) :
    frameCheck f = .error { status := eRange } := by
  have hbits : (decide (f.flags < 8) && f.res == 0) = false := by rcases h with h | h <;> simp [h]
  exact need_then (by simp [hshort, hwhole]) (by rw [hbits, need_fail])

/-- Steps 1 and 2: a frame that is no command is turned away. -/
theorem exec_of_frameCheck {e : Err} (hc : ruziaOf c = some (op, f)) (hrow : rowOf op = some o) (htake : takeable s f = true)
    (he : frameCheck f = .error e) : exec c s = .next (s.turnAway op f e) := by
  have hno : ¬ Passes o f s := fun ⟨_, hok, _⟩ => nomatch he.symm.trans hok
  rw [exec_of_not_passes hc hrow hno]
  simp [ruzia, ruziaState, htake, he, op_of_rowOf hrow]

/-- Steps 5 to 7: a command of an attached desk is refused with the error its row's checks give. -/
theorem exec_of_clears {e : Err} (hc : ruziaOf c = some (op, f)) (hrow : rowOf op = some o) (a : Arrived op f s)
    (he : clears s o.op o.acc o.desk0 o.lenOk f = .error e) : exec c s = .next (s.refusedWith op f e) := by
  have hno : ¬ Passes o f s := fun ⟨_, _, hok⟩ => nomatch he.symm.trans hok
  rw [exec_of_not_passes hc hrow hno]
  obtain rfl := op_of_rowOf hrow
  simp [ruzia, ruziaState, takeable_of a, frameCheck_of a, repeated_of a, he, a.attached]

section
variable (a : Arrived o.op f s)
include a

theorem clears_of_closed (hlen : o.lenOk f = true) (hclosed : (s.desk f.desk).isOpen = false) (hfree : sessionFree o.op = false) :
    clears s o.op o.acc o.desk0 o.lenOk f = .error { status := eState } :=
  need_then hlen <| need_then a.attached <| need_refuses (by rw [hclosed, hfree]; rfl)

variable (hlen : o.lenOk f = true) (hsession : (s.desk f.desk).isOpen = true ∨ sessionFree o.op = true)
include hlen hsession

theorem clears_of_otherDesk (hzero : o.desk0 = true) (hother : f.desk ≠ 0) :
    clears s o.op o.acc o.desk0 o.lenOk f = .error { status := eDenied } :=
  need_then hlen <| need_then a.attached <| need_then (by simpa using hsession) <| need_refuses (by simp [hzero, hother])

theorem clears_of_standby (hzero : o.desk0 = true → f.desk = 0) (hchange : o.acc = .change)
    (hrole : s.red.role = .standby ∨ s.red.role = .stale ∨ s.red.role = .forming) :
    clears s o.op o.acc o.desk0 o.lenOk f = .error { status := eStandby } := by
  have hpassive : (!(o.acc == .change && (s.red.role == .standby || s.red.role == .stale || s.red.role == .forming))) = false := by
    rcases hrole with h | h | h <;> simp [hchange, h]
  refine need_then hlen <| need_then a.attached <| need_then (by simpa using hsession) <| need_then ?_ (by rw [hpassive, need_fail])
  cases h : o.desk0
  · rfl
  · simp [hzero h]

end

end Sys2Proof.Proofs.Frames

namespace Sys2Proof.Proofs
open Sys2Proof.Machine Sys2Proof.Laws Frames

/-- Settles O53: the header reads back (`frameOf_cmdBytes`), and the command runs the row of its opcode (`exec_of_ruziaOf`), which is
what a carrier does with the opcode it decodes. -/
theorem framesRunTheirCommands : Obligations.FramesRunTheirCommands := by
  intro op f rest h
  have hframe := frameOf_cmdBytes h rest
  refine ⟨hframe, fun c s hc => ?_⟩
  rw [exec_of_ruziaOf hc, frameBytes_of_frameOf hframe (opcode_ne_zero hc)]

/-- Settles O54. -/
theorem responseAndHandleFields : Obligations.ResponseAndHandleFields :=
  ⟨fun _ _ _ _ _ => responseBytes_fields, fun _ _ _ => mkHandle_fields⟩

/-- Settles O52: steps 1 and 2 by `exec_of_frameCheck`, steps 5 to 7 by `exec_of_clears`, each with the checks before it passed. That a
frame which cannot be taken changes nothing is the model's choice (log entry 7). -/
theorem ruziaChecksInOrder : Obligations.RuziaChecksInOrder := by
  intro s c op f o hc hrow
  refine ⟨?idle, ?long, ?reserved, ?length, ?session, ?desk0, ?standby⟩
  case idle =>
    intro hidle
    have htake := takeable_of_idle hidle f
    rw [exec_of_not_passes hc hrow fun h => by simp [Passes, htake] at h, ruzia_waits htake]
  case long => exact fun htake hlong => exec_of_frameCheck hc hrow htake (frameCheck_of_long hlong)
  case reserved =>
    exact fun htake hshort hwhole hbits => exec_of_frameCheck hc hrow htake (frameCheck_of_reserved hshort hwhole hbits)
  case length => exact fun a hlen => exec_of_clears hc hrow a (need_refuses hlen)
  all_goals obtain rfl := op_of_rowOf hrow
  case session =>
    exact fun a hlen hclosed hfree => exec_of_clears hc hrow a (clears_of_closed a hlen hclosed hfree)
  case desk0 =>
    exact fun a hlen hsession hzero hother => exec_of_clears hc hrow a (clears_of_otherDesk a hlen hsession hzero hother)
  case standby =>
    exact fun a hlen hsession hzero hchange hrole => exec_of_clears hc hrow a (clears_of_standby a hlen hsession hzero hchange hrole)

end Sys2Proof.Proofs
end

section
/-! Steps 9 and 10 of R309: a command whose payload begins with a handle resolves it before any other check of its own (R285), and one
that changes the object then checks who may (R304). From these O59 and O60. -/
namespace Sys2Proof.Proofs.Handles
open Sys2Proof.Machine Sys2Proof.Laws

variable {s : State} {tys : List Nat} {h field : Nat} {o : Obj}
  {p : RuziaOp × List Nat × (CmdFrame → Instr)}

/-! ## What a handle resolves to (R285) -/

theorem resolve_of_unknown (hno : hType h ∉ tys ∨ s.objAt (hType h) (hIdx h) = none) :
    resolve s tys h field = .error { status := eHandle, field := field, handle := h } := by
  unfold resolve
  by_cases htype : hType h ∈ tys
  · simp [htype, hno.resolve_left (not_not.2 htype)]
  · simp [htype]

theorem resolve_of_stale (htype : hType h ∈ tys) (ho : s.objAt (hType h) (hIdx h) = some o) (hgen : o.gen ≠ hGen h) :
    resolve s tys h field = .error { status := eStale, field := field, handle := h } := by
  simp [resolve, htype, ho, hgen]

theorem owned_of_other {f : CmdFrame} {desk : Nat} (hother : f.desk ≠ desk) (hdesk0 : f.desk ≠ 0) :
    owned f desk h field = .error { status := eDenied, field := field, handle := h } := by
  simp [owned, need, hother, hdesk0]

/-! ## Commands that begin with a handle -/

/-- The command is its row, and the first check of the row's body is the handle the payload begins with. -/
def ResolvesFirst (p : RuziaOp × List Nat × (CmdFrame → Instr)) : Prop := ∀ f s, exec (p.2.2 f) s = ruzia p.1 f s ∧
  ∃ rest, p.1.body s f = (resolve s p.2.1 (u32 f 0) 0 >>= rest)

/-- The same, and the next check is whether the frame's desk may change the object. -/
def OwnsNext (p : RuziaOp × List Nat × (CmdFrame → Instr)) : Prop := ∀ f s, exec (p.2.2 f) s = ruzia p.1 f s ∧
  ∃ rest : Obj → Unit → Except Err (State × Resp),
    p.1.body s f = (resolve s p.2.1 (u32 f 0) 0 >>= fun o => owned f o.desk o.handle 0 >>= rest o)

theorem ResolvesFirst.of_ownsNext (hp : OwnsNext p) : ResolvesFirst p := fun f s =>
  let ⟨hexec, _, hbody⟩ := hp f s
  ⟨hexec, _, hbody⟩

theorem ownsNext_of_changeByHandle : ∀ p ∈ changeByHandle, OwnsNext p := by
  simp only [changeByHandle, List.forall_mem_cons, List.not_mem_nil, false_implies, implies_true, and_true]
  and_intros <;> exact fun f s => ⟨rfl, _, rfl⟩

theorem resolvesFirst_of_askByHandle : ∀ p ∈ askByHandle, ResolvesFirst p := by
  simp only [askByHandle, List.forall_mem_cons, List.not_mem_nil, false_implies, implies_true, and_true]
  and_intros <;> exact fun f s => ⟨rfl, _, rfl⟩

theorem resolvesFirst_of_mem : ∀ p ∈ changeByHandle ++ askByHandle, ResolvesFirst p :=
  List.forall_mem_append.2 ⟨fun p hp => .of_ownsNext (ownsNext_of_changeByHandle p hp), resolvesFirst_of_askByHandle⟩

/-- The refusal of the first check is the command's. -/
theorem exec_of_resolve_error {f : CmdFrame} {e : Err} (hp : ResolvesFirst p)
    (t : Taken p.1 f s) (he : resolve s p.2.1 (u32 f 0) 0 = .error e) : exec (p.2.2 f) s = turnedDown p.1 f s e := by
  obtain ⟨hexec, rest, hbody⟩ := hp f s
  rw [hexec, ruzia_refused t (by rw [hbody, he]; rfl)]

/-- The refusal of the second check is the command's once its handle names an object. -/
theorem exec_of_owned_error {f : CmdFrame} {e : Err} (hp : OwnsNext p)
    (t : Taken p.1 f s) (ho : names s (u32 f 0) p.2.1 o) (he : owned f o.desk o.handle 0 = .error e) :
    exec (p.2.2 f) s = turnedDown p.1 f s e := by
  obtain ⟨hexec, rest, hbody⟩ := hp f s
  rw [hexec, ruzia_refused t (hbody.trans <| resolve_then ho <| by rw [he]; rfl)]

end Sys2Proof.Proofs.Handles

namespace Sys2Proof.Proofs
open Sys2Proof.Machine Sys2Proof.Laws Handles

/-- Settles O59: the handle is the first check of each command's body, so its refusal is the command's. -/
theorem handlesAreChecked : Obligations.HandlesAreChecked := by
  intro p hp f s t
  have hfirst := resolvesFirst_of_mem p hp
  exact ⟨fun hno => exec_of_resolve_error hfirst t (resolve_of_unknown hno),
    fun o htype ho hgen => exec_of_resolve_error hfirst t (resolve_of_stale htype ho hgen)⟩

/-- Settles O60: the owner is the second check of each command's body. -/
theorem onlyTheOwnerChanges : Obligations.OnlyTheOwnerChanges := fun p hp _ _ _ t ho hother hdesk0 =>
  exec_of_owned_error (ownsNext_of_changeByHandle p hp) t ho (owned_of_other hother hdesk0)

end Sys2Proof.Proofs
end

section
/-! Desk sessions and settings (R292, R295-R297, R307, R345, R347): a desk command whose own checks all pass is answered with its effect in
force, and what the events of a session do. Each proof walks the checks of the command's body in their order (R309). From these O3 and
O4. -/
namespace Sys2Proof.Proofs.Desks
open Sys2Proof.Machine Sys2Proof.Laws RingsAndRoutes

variable {f : CmdFrame} {s : State} {d : Nat}

/-! ## Sessions (R295-R297) -/

theorem closeDesk_of_open (hopen : (s.desk d).isOpen = true) (reason : Nat) :
    s.closeDesk d reason = (s.setDesk d fun k => { k with isOpen := false }).raise0 0x0205 (le 2 d ++ le 2 reason) := if_pos hopen

theorem leaseOk_of {lease : Nat} (h : lease = 0 ∨ (1000 ≤ lease ∧ lease ≤ 60000)) :
    (lease == 0 || (decide (1000 ≤ lease) && decide (lease ≤ 60000))) = true := by simpa using h

/-- `desk.open` with a lease it may have and, over UDP, an OPEN_TIME that is new and within two seconds (R296). -/
theorem deskOpenBody_ok {q : Nat} {u : State} (hlease : u32 f 4 = 0 ∨ (1000 ≤ u32 f 4 ∧ u32 f 4 ≤ 60000))
    (hq : qOf f.payload 8 = some q)
    (hnew : (s.desk f.desk).transport = .udp → q ≤ s.q + 2 * secondQ ∧ s.q ≤ q + 2 * secondQ ∧ (s.desk f.desk).lastOpen < q)
    (hzero : fld f 22 2 = 0) (hu : u = s.setDesk f.desk (fun k =>
      { k with isOpen := true, sessions := (k.sessions + 1) % 64, lease := if u32 f 4 == 0 then 5000 else u32 f 4,
               newest := (u32 f 0 + (2 ^ 32 - 1)) % 2 ^ 32, lastOpen := q, dstAddr := (eventDest f).1, dstPort := (eventDest f).2 })) :
    deskOpenBody s f = okResp u (le 4 (u.deskHandle f.desk) ++ le 4 (s.desk f.desk).evtSeq) := by
  have hfresh : ((s.desk f.desk).transport != .udp ||
      (decide (q ≤ s.q + 2 * secondQ) && decide (s.q ≤ q + 2 * secondQ) && decide ((s.desk f.desk).lastOpen < q))) = true := by
    by_cases hudp : (s.desk f.desk).transport = .udp
    · simp [hnew hudp]
    · simp [hudp]
  subst hu
  refine need_then (leaseOk_of hlease) ?_
  simp only [hq]
  exact need_then hfresh <| reserved_then hzero rfl

/-- `desk.attach` names an engine with the Seam transport and with no other (R295). -/
theorem deskAttachBody_ok (hdesk : u16 f 0 ≤ 16) (htransport : u8 f 2 ≤ 2) (hzero₃ : fld f 3 1 = 0)
    (hengine : u8 f 2 = 2 ↔ u16 f 4 ≠ 0) (hzero₆ : fld f 6 2 = 0) :
    deskAttachBody s f = okResp (s.setDesk (u16 f 0) fun k => { k with move := some (transportOf (u8 f 2), u16 f 4) }) := by
  have hpair : ((u8 f 2 == 2) == (u16 f 4 != 0)) = true := by
    rw [beq_iff_eq, Bool.eq_iff_iff]; simpa using hengine
  exact need_then (decide_eq_true hdesk) <| need_then (decide_eq_true htransport) <| reserved_then hzero₃ <| need_then hpair <|
    reserved_then hzero₆ rfl

/-- A desk with no command unanswered moves to its new attachment. -/
theorem exec_deskAttachEffect (hserves : s.serving = true) (hd : d ≤ 16) (hnone : s.unanswered d = 0) {t : Transport} {e : Nat}
    (hmove : (s.desk d).move = some (t, e)) : exec (.deskAttachEffect d) s =
      .next ((s.closeDesk d 3).setDesk d fun k => { k with transport := t, engine := e, move := none }) := by
  change execDeskAttachEffect d s = _
  simp [execDeskAttachEffect, hserves, hmove, hnone, hd]

theorem exec_leaseExpired (hserves : s.serving = true) (hd : d ≤ 16) (hleased : (s.desk d).transport ≠ .pcie) :
    exec (.leaseExpired d) s = .next (s.closeDesk d 2) := by
  change execLeaseExpired d s = _
  simp [execLeaseExpired, hserves, hd, hleased]

/-! ## Settings (R292, R345, R347) -/

/-- Checks that find nothing at any place of a list collect what stands there. -/
theorem eachItem_ok {α : Type} {g : Nat → Except Err α} {v : Nat → α} (n i : Nat)
    (h : ∀ k, i ≤ k → k < i + n → g k = .ok (v k)) :
    eachItem g n i = .ok ((List.range' i n).map v) := by
  induction n generalizing i with
  | zero => rfl
  | succ n ih =>
    exact ok_then (h i le_rfl (by omega)) <| ok_then (ih (i + 1) fun k hk hn => h k (by omega) (by omega)) rfl

theorem atItem_ok {α : Type} {x : Except Err α} {a : α} (i : Nat) (h : x = .ok a) : atItem i x = .ok a := by rw [h]; rfl

/-- A record of `desk.quota.set`: a KIND and its figure. -/
def quotaAt (f : CmdFrame) (i : Nat) : Nat × Nat := (u16 f (8 + 8 * i), u32 f (12 + 8 * i))

/-- The checks of a record; the KIND that gives a best class, 11, is bounded besides. -/
def quotaRecord (f : CmdFrame) (i : Nat) : Except Err (Nat × Nat) := atItem i do
  let b := 8 + 8 * i
  need (1 ≤ u16 f b && u16 f b ≤ 11) eRange b
  reserved f (b + 2) 2
  need (u16 f b != 11 || u32 f (b + 4) ≤ 3) eRange (b + 4)
  .ok (u16 f b, u32 f (b + 4))

theorem quotaRecord_ok {i : Nat} (hkind : 1 ≤ u16 f (8 + 8 * i) ∧ u16 f (8 + 8 * i) ≤ 10) (hzero : fld f (10 + 8 * i) 2 = 0) :
    quotaRecord f i = .ok (quotaAt f i) := by
  have hzeroAt : 8 + 8 * i + 2 = 10 + 8 * i := by omega
  have hfigureAt : 8 + 8 * i + 4 = 12 + 8 * i := by omega
  have hbounds : (decide (1 ≤ u16 f (8 + 8 * i)) && decide (u16 f (8 + 8 * i) ≤ 11)) = true := by simp; omega
  have hplain : (u16 f (8 + 8 * i) != 11 || decide (u32 f (12 + 8 * i) ≤ 3)) = true := by simp; omega
  simp only [quotaRecord, hzeroAt, hfigureAt]
  exact atItem_ok i <| need_then hbounds <| reserved_then hzero <| need_then hplain rfl

theorem deskQuotaBody_ok (hdesk : 1 ≤ u16 f 0 ∧ u16 f 0 ≤ 16) (hzero₂ : fld f 2 2 = 0) (hcount : 1 ≤ u16 f 4 ∧ u16 f 4 ≤ 14)
    (hzero₆ : fld f 6 2 = 0) (hrecords : ∀ i, i < u16 f 4 → quotaRecord f i = .ok (quotaAt f i)) :
    deskQuotaBody s f = okResp (((List.range (u16 f 4)).map (quotaAt f)).foldl (fun s r => s.setQuota (u16 f 0) r.1 r.2) s) := by
  have hall : eachItem (quotaRecord f) (u16 f 4) 0 = .ok ((List.range (u16 f 4)).map (quotaAt f)) := by
    rw [List.range_eq_range', eachItem_ok _ 0 fun i _ hi => hrecords i (by omega)]
  exact need_then (by simpa using hdesk) <| reserved_then hzero₂ <| need_then (by simpa using hcount) <| reserved_then hzero₆ <|
    ok_then hall rfl

/-- Settings without override codes are taken as they stand (R313). -/
theorem deskDefaultsBody_ok (hclass : u8 f 0 ≤ 3) (hpermit : f.desk = 0 ∨ (s.desk f.desk).quota.getD 10 3 ≤ u8 f 0)
    (hpolicy : u8 f 1 ≤ 1) (hlaw : u8 f 2 ≤ 2) (hzero : fld f 3 1 = 0) (htime : u32 f 4 ≤ 96000) :
    deskDefaultsBody s f = okResp (s.setDesk f.desk fun k =>
      { k with defClass := u8 f 0, defPolicy := u8 f 1, defLaw := u8 f 2, defT := u32 f 4 }) := by
  have hclass' : u8 f 0 ≠ 0xFF := by omega
  have hpolicy' : u8 f 1 ≠ 0xFF := by omega
  have hlaw' : u8 f 2 ≠ 0xFF := by omega
  have htime' : u32 f 4 ≠ 0xFFFFFFFF := by omega
  have hpermitted : classPermitted s f.desk (u8 f 0) 0 = .ok () := need_true _ _ _ _ (by simpa using hpermit)
  refine need_then (by simp [hclass]) <| need_then (by simp [hpolicy]) <| need_then (by simp [hlaw]) <| reserved_then hzero <|
    need_then (by simp [htime]) <| onlyIf_then (fun _ k => ok_then hpermitted k) ?_
  simp [override, hclass', hpolicy', hlaw', htime']

/-! ## Delivery (R307) -/

/-- A desk with a session over UDP and no loss to tell of is sent its next event by a module that stands alone. -/
theorem exec_eventDelivery_udp (hserves : s.serving = true) (hd : d ≤ 16) (hudp : (s.desk d).transport = .udp)
    (hopen : (s.desk d).isOpen = true) (hlost : (s.desk d).lost = none) (hwaits : (s.desk d).undelivered ≠ 0) {e : Event}
    (hnext : (s.desk d).nextEvent = some e) (hsingle : s.red.role = .single) : exec (.eventDelivery d) s =
      .next ((s.emit (.datagram (s.desk d).dstAddr (s.desk d).dstPort 3 d e.frame)).setDesk d
        fun k => { k with undelivered := k.undelivered - 1 }) := by
  change Host.Outcome.next (s.deliver d) = _
  simp [State.deliver, State.sendEvent, State.tellDelivered, hserves, hd, hudp, hopen, hlost, hwaits, hnext, hsingle]

end Sys2Proof.Proofs.Desks

namespace Sys2Proof.Proofs
open Sys2Proof.Machine Sys2Proof.Laws RingsAndRoutes Blocks Desks

/-- Settles O3: the checks of each body pass in their order; a session that is open is closed by `closeDesk_of_open`, whether its desk
asks for it or its lease runs out. -/
theorem sessionsComplete : Obligations.SessionsComplete := by
  intro f s
  refine ⟨?opened, ?closed, ?attach, ?moved, ?expired⟩
  case opened =>
    intro q t hlease hq hnew hzero u hu
    exact ruzia_of_okResp t (deskOpenBody_ok hlease hq hnew hzero hu)
  case closed =>
    intro t
    have hopen : (s.desk f.desk).isOpen = true := t.session.resolve_right (by decide)
    exact ruzia_of_okResp t (congrArg (okResp ·) (closeDesk_of_open hopen 1))
  case attach =>
    intro t hdesk htransport hzero₃ hengine hzero₆
    exact ruzia_of_okResp t (deskAttachBody_ok hdesk htransport hzero₃ hengine hzero₆)
  case moved => exact fun d t e hserves hd hnone hmove => exec_deskAttachEffect hserves hd hnone hmove
  case expired =>
    intro d hserves hd hleased hopen
    rw [exec_leaseExpired hserves hd hleased, closeDesk_of_open hopen]

/-- Settles O4: the checks of each body pass in their order; the event is delivered by `exec_eventDelivery_udp`. -/
theorem deskSettingsComplete : Obligations.DeskSettingsComplete := by
  intro f s
  refine ⟨?key, ?quota, ?defaults, ?replay, ?delivery⟩
  case key =>
    rintro _ t hdesk hzero rfl
    exact ruzia_of_okResp t <| need_then (decide_eq_true hdesk) <| reserved_then hzero rfl
  case quota =>
    rintro _ t hfirst hlast hzero₂ hsome hfew hzero₆ rfl hrecords
    exact ruzia_of_okResp t <| deskQuotaBody_ok ⟨hfirst, hlast⟩ hzero₂ ⟨hsome, hfew⟩ hzero₆ fun i hi =>
      let ⟨hkind, hbound, hzero⟩ := hrecords i hi
      quotaRecord_ok ⟨hkind, hbound⟩ hzero
  case defaults =>
    intro t hclass hpermit hpolicy hlaw hzero htime
    exact ruzia_of_okResp t (deskDefaultsBody_ok hclass hpermit hpolicy hlaw hzero htime)
  case replay =>
    intro b t hzero hb hroom
    exact ruzia_of_accResp t <| reserved_then hzero <| ok_then hb <| mayDefer_then hroom rfl
  case delivery =>
    intro d e hserves hd hudp hopen hlost hwaits hnext hsingle
    exact exec_eventDelivery_udp hserves hd hudp hopen hlost hwaits hnext hsingle

end Sys2Proof.Proofs
end

section
/-! The mailbox (R286-R290, R293): what each of its registers does on a die that is on, and what a host write to its window stores. From
these O31 and O58. -/
namespace Sys2Proof.Proofs.Mailbox
open Sys2Proof.Machine Sys2Proof.Laws

variable {s : State} {d : Nat}

/-! ## The registers (R287-R290) -/

section
variable (hdie : s.dieOn = true) (hd : d ≤ 16)
include hdie hd

/-- A tail that leaves at most eight slots filled, and none of those announced before, is taken. -/
theorem exec_cmdTailWrite (v : Nat) : exec (.cmdTailWrite d v) s = .next (
    if ringHeld v (s.desk d).cmdHead ≤ 8 ∧ ringHeld (s.desk d).cmdTail (s.desk d).cmdHead ≤ ringHeld v (s.desk d).cmdHead then
      s.setDesk d fun k => { k with cmdTail := v % 65536 } else s.pointerError d) := by
  change execCmdTailWrite d v s = _
  simp [execCmdTailWrite, hdie, hd]

/-- A head that frees only what the engine has written is taken. -/
theorem exec_rspHeadWrite (v : Nat) : exec (.rspHeadWrite d v) s = .next (
    if ringHeld (s.desk d).rspTail v ≤ ringHeld (s.desk d).rspTail (s.desk d).rspHead then
      s.setDesk d fun k => { k with rspHead := v % 65536 } else s.pointerError d) := by
  change execRspHeadWrite d v s = _
  simp [execRspHeadWrite, hdie, hd]

theorem exec_evtHeadWrite (v : Nat) : exec (.evtHeadWrite d v) s = .next (
    if ringHeld (s.desk d).evtTail v ≤ ringHeld (s.desk d).evtTail (s.desk d).evtHead then
      s.setDesk d fun k => { k with evtHead := v % 65536 } else s.pointerError d) := by
  change execEvtHeadWrite d v s = _
  simp [execEvtHeadWrite, hdie, hd]

/-- A mailbox command whose effect needs only the die on and a desk that exists has it. -/
theorem next_of_desk (t : State) : (.next (if s.dieOn && d ≤ 16 then t else s) : Host.Outcome State Fault Refusal) = .next t :=
  congrArg _ (if_pos (by simp [hdie, hd]))

theorem exec_mailboxFlagsClear (m : Nat) : exec (.mailboxFlagsClear d m) s = .next (s.setDesk d fun k =>
    { k with evtLost := k.evtLost && !(bit m 2), protoErr := k.protoErr && !(bit m 3) }) := next_of_desk hdie hd _

theorem exec_protoErrCountRead : exec (.protoErrCountRead d) s = .next ((s.emit (.readData 1 (0x10020000 + 0x40 * d + 0x24)
    (le 4 (s.desk d).protoErrCount))).setDesk d fun k => { k with protoErrCount := 0 }) := next_of_desk hdie hd _

end

theorem exec_ringCmd (hd : d ≤ 16) : exec (.ringCmd d) s = .next (s.takeSlots d) := by
  change execRingCmd d s = _
  rw [execRingCmd, if_pos hd]

theorem exec_ringRsp (hd : d ≤ 16) : exec (.ringRsp d) s = .next (s.takeSlots d) := by
  change execRingRsp d s = _
  rw [execRingRsp, if_pos hd]

theorem exec_ringEvt (hserves : s.serving = true) (hd : d ≤ 16) : exec (.ringEvt d) s = .next (s.deliver d) := by
  change execRingEvt d s = _
  simp [execRingEvt, hserves, hd]

/-- A slot that waits, of the ring's own desk, is taken as a frame of the mailbox once an answer has room (R289, R290). -/
theorem takeSlot_of_waiting (hserves : s.serving = true) (hheld : 0 < ringHeld (s.desk d).cmdTail (s.desk d).cmdHead)
    (hroom : rspFree s d = true) {bs : List Byte} (hbs : bs = s.read (slotAddr d 0 256 ((s.desk d).cmdHead % 8)) 256)
    (hdesk : fieldAt bs 8 2 = d) :
    s.takeSlot d = (s.setDesk d fun k => { k with cmdHead := (k.cmdHead + 1) % 65536 }).frameBytes .pcie bs := by
  subst hbs
  simp [State.takeSlot, hserves, hheld.ne', hroom, hdesk]

/-! ## The window (R286): writes of whole words -/

theorem slice_length (bs : List Byte) (o k : Nat) : (slice bs o k).length = k := by
  simp only [slice, List.length_append, List.length_replicate, List.length_take]
  omega

/-- A byte beyond the end reads 0 in a slice as it does in the data. -/
theorem slice_getElem {bs : List Byte} {o k i : Nat} (h : i < (slice bs o k).length) : (slice bs o k)[i] = bs.getD (o + i) 0 := by
  have hi : i < k := by rwa [slice_length] at h
  by_cases hin : o + i < bs.length
  · simp [slice, hin, hi, show i < bs.length - o by omega]
  · simp [slice, List.getElem_append, hin, show ¬ i < bs.length - o by omega]

/-- The bytes of memory that a word of the window holds. -/
abbrev InWord (w : Nat × Nat × Bool) (x : Nat) : Prop := mailboxBase + w.2.1 ≤ x ∧ x < mailboxBase + w.2.1 + 4

/-- The stores of a window write: the word of the data at each place, at its offset in the window. -/
def storeWords (data : List Byte) (ws : List (Nat × Nat × Bool)) (s : State) : State :=
  ws.foldl (fun s w => s.write (mailboxBase + w.2.1) (slice data (4 * w.1) 4)) s

theorem memRead_storeWord (data : List Byte) (w : Nat × Nat × Bool) (x : Nat) (hwf : memWf s.mem = true) :
    memRead (s.write (mailboxBase + w.2.1) (slice data (4 * w.1) 4)).mem x =
      if InWord w x then data.getD (4 * w.1 + (x - (mailboxBase + w.2.1))) 0 else memRead s.mem x := by
  rw [write_mem, memRead_memWriteAll _ _ _ _ hwf]
  by_cases hx : InWord w x
  · rw [if_pos hx, dif_pos (by rwa [slice_length]), slice_getElem]
  · rw [if_neg hx, dif_neg (by rwa [slice_length])]

/-- Words that stand in the window as in the data leave canonical memory, hold the data's bytes, and leave every other byte. -/
theorem storeWords_mem {data : List Byte} {o : Nat} (ws : List (Nat × Nat × Bool)) (hat : ∀ w ∈ ws, w.2.1 = o + 4 * w.1)
    (hwf : memWf s.mem = true) : memWf (storeWords data ws s).mem = true ∧
      (∀ x, (∃ w ∈ ws, InWord w x) → memRead (storeWords data ws s).mem x = data.getD (x - (mailboxBase + o)) 0) ∧
      (∀ x, (¬ ∃ w ∈ ws, InWord w x) → memRead (storeWords data ws s).mem x = memRead s.mem x) := by
  induction ws generalizing s with
  | nil => exact ⟨hwf, fun x ⟨_, hw, _⟩ => absurd hw List.not_mem_nil, fun _ _ => rfl⟩
  | cons w ws ih =>
    obtain ⟨hw, hws⟩ := List.forall_mem_cons.1 hat
    obtain ⟨hkept, hin, hout⟩ := ih hws (write_memWf s (mailboxBase + w.2.1) (slice data (4 * w.1) 4) hwf)
    refine ⟨hkept, fun x hx => ?_, fun x hx => ?_⟩
    · by_cases hrest : ∃ w ∈ ws, InWord w x
      · exact hin x hrest
      · have hword : InWord w x := ((List.exists_mem_cons_iff _ _ _).1 hx).resolve_right hrest
        refine (hout x hrest).trans <| (memRead_storeWord data w x hwf).trans <| (if_pos hword).trans ?_
        obtain ⟨hle, -⟩ := hword
        congr 1
        omega
    · rw [List.exists_mem_cons_iff, not_or] at hx
      exact (hout x hx.2).trans <| (memRead_storeWord data w x hwf).trans (if_neg hx.1)

/-! ### A host write of a RUNNING engine -/

@[simp] theorem mailboxFault_mem (s : State) (d kind : Nat) : (s.mailboxFault d kind).mem = s.mem := by
  unfold State.mailboxFault
  dsimp only
  split
  · rfl
  · rw [raise_mem]
    split <;> rfl

/-- A pointer error is counted, flagged and told of; memory stays. -/
@[simp] theorem pointerError_mem (s : State) (d : Nat) : (s.pointerError d).mem = s.mem := mailboxFault_mem _ d 1

/-- In RUNNING the host may write command slots alone. -/
theorem windowWritable_of_running (hrunning : s.sv.st = .running) (o : Nat) :
    windowWritable s o = (decide (o < 0x19800) && decide (o % 0x1800 < 0x800)) := by
  simp [windowWritable, State.loading, hrunning]

/-- The words of a window access whose bytes are all enabled. -/
theorem windowWords_of_enabled {a : Access} {o : Nat} (hall : ∀ i, i < a.bytes → a.enables.getD i true = true)
    (haddr : a.addr = 0x10040000 + o) : windowWords a = (List.range (a.bytes / 4)).map fun k => (k, o + 4 * k, true) := by
  refine List.map_congr_left fun k hk => ?_
  have hk : k < a.bytes / 4 := List.mem_range.1 hk
  have hoffset : a.addr - barBase - 0x40000 + 4 * k = o + 4 * k := by rw [haddr, barBase]; omega
  have henabled : ((List.range 4).all fun i => a.enables.getD (4 * k + i) true) = true := by
    simp only [List.all_eq_true, List.mem_range]
    exact fun i hi => hall _ (by omega)
  rw [hoffset, henabled]

/-- The words of a window write that fall on command slots. -/
def slotWords (a : Access) (o : Nat) : List (Nat × Nat × Bool) :=
  ((List.range (a.bytes / 4)).map fun k => (k, o + 4 * k, true)).filter fun w => w.2.1 < 0x19800 && w.2.1 % 0x1800 < 0x800

theorem mem_slotWords {a : Access} {o : Nat} {w : Nat × Nat × Bool} : w ∈ slotWords a o ↔
    ∃ k, k < a.bytes / 4 ∧ w = (k, o + 4 * k, true) ∧ o + 4 * k < 0x19800 ∧ (o + 4 * k) % 0x1800 < 0x800 := by
  simp only [slotWords, List.mem_filter, List.mem_map, List.mem_range, Bool.and_eq_true, decide_eq_true_eq]
  constructor
  · rintro ⟨⟨k, hk, rfl⟩, hslot⟩
    exact ⟨k, hk, rfl, hslot⟩
  · rintro ⟨k, hk, rfl, hslot⟩
    exact ⟨⟨k, hk, rfl⟩, hslot⟩

/-- Words elsewhere are a pointer error, which leaves memory as the stores have left it. -/
theorem windowAccess_mem {a : Access} {o : Nat} (hrunning : s.sv.st = .running) (hwrite : a.write = true)
    (hall : ∀ i, i < a.bytes → a.enables.getD i true = true) (hwords : a.bytes % 4 = 0) (haligned : o % 4 = 0)
    (haddr : a.addr = 0x10040000 + o) : (s.windowAccess a).mem = (storeWords a.data (slotWords a o) s).mem := by
  have hfit : ¬ (a.addr % 4 != 0 || a.bytes % 4 != 0) = true := by simp [haddr, hwords]; omega
  have hwhole : ∀ ws : List Nat, ((ws.map fun k => (k, o + 4 * k, true)).filter fun w => !w.2.2) = [] ∧
      ((ws.map fun k => (k, o + 4 * k, true)).filter fun w => w.2.2) = ws.map fun k => (k, o + 4 * k, true) := by simp
  unfold State.windowAccess
  rw [if_neg hfit, windowWords_of_enabled hall haddr]
  simp only [hwhole, List.foldl_nil, hwrite, Bool.not_true, Bool.false_eq_true, if_false, windowWritable_of_running hrunning]
  split
  · split
    · exact pointerError_mem _ _
    · rfl
  · rfl

/-- M1's accesses to the window are its alone, whatever the regions say (R286). -/
theorem matrix_of_window {a : Access} {o : Nat} (hrunning : s.sv.st = .running) (hmaster : a.master = 1) (hmin : 4 ≤ a.bytes)
    (hmax : a.bytes ≤ 512) (haddr : a.addr = 0x10040000 + o) (hend : o + a.bytes ≤ 0x20000) : s.matrix a = s.windowAccess a := by
  have htaken : ¬ (!s.dieOn || a.bytes == 0 || a.bytes > 512 || a.master > 7) = true := by
    simp [State.dieOn, hrunning, hmaster]; omega
  have hwindow : (a.master == 1 && barBase + 0x40000 ≤ a.addr && a.addr + a.bytes ≤ barBase + 0x60000) = true := by
    simp [hmaster, haddr, barBase]; omega
  rw [State.matrix, if_neg htaken, if_pos hwindow]

/-- A byte of the access lies in a stored word exactly where its offset falls on a command slot. -/
theorem inSlotWord_iff {a : Access} {o x : Nat} (hwords : a.bytes % 4 = 0) (haligned : o % 4 = 0) :
    (∃ w ∈ slotWords a o, InWord w x) ↔
      ∃ i, i < a.bytes ∧ o + i < 0x19800 ∧ (o + i) % 0x1800 < 0x800 ∧ x = mailboxBase + (o + i) := by
  constructor
  · rintro ⟨w, hw, hx⟩
    obtain ⟨k, hk, rfl, hbelow, hslot⟩ := mem_slotWords.1 hw
    obtain ⟨hfirst, hlast⟩ := hx
    dsimp only at hfirst hlast
    refine ⟨x - mailboxBase - o, ?_⟩
    omega
  · rintro ⟨i, hi, hbelow, hslot, rfl⟩
    refine ⟨_, mem_slotWords.2 ⟨i / 4, by omega, rfl, by omega, by omega⟩, ?_⟩
    constructor <;> dsimp only <;> omega

end Sys2Proof.Proofs.Mailbox

namespace Sys2Proof.Proofs
open Sys2Proof.Machine Sys2Proof.Laws Mailbox

/-- Settles O31: each clause is the rule of its register above; the poll runs its rounds as it stands. -/
theorem mailboxCompletes : Obligations.MailboxCompletes := fun _ _ hdie hd =>
  ⟨exec_cmdTailWrite hdie hd, exec_rspHeadWrite hdie hd, exec_evtHeadWrite hdie hd,
    fun hserves => ⟨exec_ringCmd hd, exec_ringRsp hd, exec_ringEvt hserves hd⟩, rfl,
    fun _ hserves hheld hroom hbs hdesk => takeSlot_of_waiting hserves hheld hroom hbs hdesk,
    exec_mailboxFlagsClear hdie hd, exec_protoErrCountRead hdie hd⟩

/-- Settles O58: the stores of the access are the words on command slots (`windowAccess_mem`, `storeWords_mem`). That a host write to the
window is an access of M1 to 0x10040000 + o is the model's choice (log entry 64). -/
theorem mailboxWriteStores : Obligations.MailboxWriteStores := by
  intro s a o hrunning hwf hmaster hwrite hall hmin hmax hwords haligned haddr hend _
  obtain ⟨hkept, hin, hout⟩ := storeWords_mem (data := a.data) (o := o) (slotWords a o)
    (fun w hw => by obtain ⟨k, _, rfl, _⟩ := mem_slotWords.1 hw; rfl) hwf
  have hmem := windowAccess_mem hrunning hwrite hall hwords haligned haddr
  refine ⟨_, rfl, ?_⟩
  rw [matrix_of_window hrunning hmaster hmin hmax haddr hend, hmem]
  refine ⟨hkept, fun i hi hbelow hslot => ?_, fun x hx => ?_⟩
  · rw [hin _ ((inSlotWord_iff hwords haligned).2 ⟨i, hi, hbelow, hslot, rfl⟩)]
    congr 1
    omega
  · refine hout x fun h => ?_
    obtain ⟨i, hi, hbelow, hslot, rfl⟩ := (inSlotWord_iff hwords haligned).1 h
    exact hx i hi hbelow hslot rfl

end Sys2Proof.Proofs
end

section
/-! The port commands (R327, R328, R414-R424): a command whose own checks all pass answers OK with its effect in force. Each proof walks
the checks of the command's body in their order (R309). From these O11. -/
namespace Sys2Proof.Proofs.PortCommands
open Sys2Proof.Machine Sys2Proof.Laws RingsAndRoutes

/-- The bindings of the command's slots on a port. -/
def slotsHeld (f : CmdFrame) (t : Tdm) : List (Nat × Nat) := t.binds.filter fun b => u8 f 4 ≤ b.1 && b.1 < u8 f 4 + u8 f 5

/-- What `port.slot.bind` does past the checks that its two forms share: ring 0 takes the slots from the rings they write to, and slots
that hold no ring become the writers of rings that have none. -/
def bindSlots (s : State) (f : CmdFrame) (p : Nat) : Except Err (State × Resp) :=
  let t := s.port p
  let mine := slotsHeld f t
  if u32 f 8 == 0 then
    okResp ((mine.foldl (fun s b => s.unbindWriter b.2) s).setPort p fun t =>
      { t with binds := t.binds.filter fun b => !(u8 f 4 ≤ b.1 && b.1 < u8 f 4 + u8 f 5) })
  else do
    let rs ← bindRings s f (u32 f 8) (u8 f 5) 8 fun o r => o.dom == t.dom && r.mult == s.mult t.dom
    need mine.isEmpty eState 4 (u32 f 0)
    let s ← State.bindWriters (portHandle p) 1 rs (u8 f 4) s
    okResp (s.setPort p fun t => { t with binds := t.binds ++ rs.zipIdx.map fun r => (u8 f 4 + r.2, r.1) })

theorem portBindBody_eq_bindSlots {f : CmdFrame} {s : State} {p : Nat} (hp : tdmPort s (u32 f 0) 0 = .ok p)
    (hring : (u32 f 8 != 0) = true → ∃ y, names s (u32 f 8) [tRing] y) (hdesk : f.desk = (s.port p).owner ∨ f.desk = 0)
    (hfirst : u8 f 4 < (s.port p).slots) (hfit : (decide (1 ≤ u8 f 5) && decide (u8 f 4 + u8 f 5 ≤ (s.port p).slots)) = true)
    (hzero : fld f 6 2 = 0) (hin : ((s.port p).configured && (s.port p).dir == 0) = true) :
    portBindBody s f = bindSlots s f p :=
  ok_then hp <| onlyIf_then (fun hsome k => let ⟨_, hy⟩ := hring hsome; resolve_then hy k) <| owned_then hdesk <|
    need_then (decide_eq_true hfirst) <| need_then hfit <| reserved_then hzero <| need_then hin rfl

end Sys2Proof.Proofs.PortCommands

namespace Sys2Proof.Proofs
open Sys2Proof.Machine Sys2Proof.Laws RingsAndRoutes PortCommands

/-- Settles O11: the checks of each body pass in their order; the two forms of `port.slot.bind` share `portBindBody_eq_bindSlots`. That
`port.tdm.config` switches off a dither above the new DATA_BITS is the model's deduction (log entry 34). -/
theorem portCompletes : Obligations.PortCompletes := by
  intro f s
  refine ⟨?info, ?assign, ?config, ?unbind, ?bind, ?quad⟩
  case info =>
    rintro t p hp cfg link cs hfields _ rfl
    exact ruzia_of_okResp t <| ok_then hp <| by rw [hfields]
  case assign =>
    intro t p hp hpeer hdesk hzero hidle
    exact ruzia_of_okResp t <| ok_then hp <| need_then hpeer <| need_then (decide_eq_true hdesk) <| reserved_then hzero <|
      need_then hidle rfl
  case config =>
    intro t p hp hdesk hdir hformat hslots hslotBits hdataBits hedges hguard hdom hoffset hflags hzero hbank hidle
    -- steps 9 to 11 of R309: the handle, who may change the port, the ranges
    refine ruzia_of_okResp t <| ok_then hp <| owned_then hdesk <| need_then (decide_eq_true hdir) <|
      need_then (decide_eq_true hformat) <| need_then hslots <| need_then hslotBits <| need_then hdataBits <|
      need_then (decide_eq_true hedges) <| need_then hguard <| need_then (decide_eq_true hdom) <|
      need_then (decide_eq_true hoffset) <| need_then hflags <| reserved_then hzero ?_
    -- step 12: the port's bank and what holds the port
    exact need_then hbank <| need_then hidle rfl
  case unbind =>
    rintro t p hp _ rfl hring hdesk _ rfl _ rfl hfirst hfit hzero hin _ rfl hnone _ rfl
    exact ruzia_of_okResp t <| (portBindBody_eq_bindSlots hp hring hdesk hfirst hfit hzero hin).trans <| if_pos hnone
  case bind =>
    rintro t p hp _ rfl hring hdesk _ rfl _ rfl hfirst hfit hzero hin _ rfl hsome rs hrs hfree s₁ hbound
    exact ruzia_of_okResp t <| (portBindBody_eq_bindSlots hp hring hdesk hfirst hfit hzero hin).trans <| (if_neg hsome).trans <|
      ok_then hrs <| need_then hfree <| ok_then hbound rfl
  case quad =>
    rintro t _ rfl _ rfl hquad hmode hzero hidle hrate _ rfl _ rfl _ rfl
    exact ruzia_of_okResp t <| need_then (decide_eq_true hquad) <| need_then (decide_eq_true hmode) <| reserved_then hzero <|
      need_then hidle <| need_then hrate rfl

end Sys2Proof.Proofs
end

section
/-! The Stream commands (R330, R389-R402): a command whose own checks all pass is answered with its effect in force, or is held until its
later stage. Each proof walks the checks of the command's body in their order (R309). From these O13. -/
namespace Sys2Proof.Proofs.StreamCommands
open Sys2Proof.Machine Sys2Proof.Laws

/-- What `stream.rx.create` and `stream.tx.create` share; a receive Stream alone has rings to answer with. -/
theorem streamCreateBody_ok {tx : Bool} {f : CmdFrame} {s u : State} {cls h r : Nat}
    (hports : streamPorts s f (u32 f 0) (u32 f 4) 0 4 = .ok ())
    (hranges : streamRanges (streamOf tx f) (u8 f 24) (s.mult (u8 f 24)) = .ok ()) (hcls : classOf s f 29 = .ok cls)
    (hzero : fld f 31 1 = 0) (hpermit : classPermitted s f.desk cls 29 = .ok ())
    (hcreate : createStream s f.desk cls (u8 f 24) (streamOf tx f) = .ok (h, r, u)) :
    streamCreateBody tx s f = okResp u (if tx then le 4 h else le 4 h ++ le 4 r) :=
  ok_then hports <| ok_then hranges <| ok_then hcls <| reserved_then hzero <| ok_then hpermit <| ok_then hcreate rfl

end Sys2Proof.Proofs.StreamCommands

namespace Sys2Proof.Proofs
open Sys2Proof.Machine Sys2Proof.Laws RingsAndRoutes Blocks Channels StreamCommands

/-- Settles O13: the checks of each body pass in their order; both creations are `streamCreateBody_ok`, and a Stream is freed as every
object is (`freeBody_ok`), once it has begun its fade. -/
theorem streamCompletes : Obligations.StreamCompletes := by
  intro f s
  refine ⟨?info, ?rx, ?tx, ?delete, ?sdpGet, ?sdpSet⟩
  case info =>
    intro t o ho st hst
    exact ruzia_of_okResp t <| resolve_then ho <| by rw [hst]
  case rx | tx =>
    rintro t hports _ rfl _ rfl hranges cls hcls hzero hpermit h r s₁ hcreate
    exact ruzia_of_okResp t (streamCreateBody_ok hports hranges hcls hzero hpermit hcreate)
  case delete =>
    intro t o ho n s₁ hstart
    exact ruzia_of_okResp t (freeBody_ok (ok := fun _ _ => .ok ()) ho rfl hstart)
  case sdpGet =>
    rintro t o ho st hst b hb hopen hroom _ rfl
    refine ruzia_of_accResp t <| resolve_then ho ?_
    rw [hst]
    exact ok_then hb <| settled_then hopen <| mayDefer_then hroom rfl
  case sdpSet =>
    intro t hports b hb d hd cls hcls hpermit hroom
    exact ruzia_of_accResp t <| ok_then hports <| ok_then hb <| ok_then hd <| ok_then hcls <| ok_then hpermit <|
      mayDefer_then hroom rfl

end Sys2Proof.Proofs
end

section
/-! The timing commands (R333, R334, R435-R447): a command whose own checks all pass is answered with its effect in force, or is held
until its later stage. Each proof walks the checks of the command's body in their order (R309). From these O16. -/
namespace Sys2Proof.Proofs
open Sys2Proof.Machine Sys2Proof.Laws RingsAndRoutes Blocks

/-- Settles O16: the checks of each body pass in their order; what only reads, or only clears, has no checks of its own. -/
theorem timingCompletes : Obligations.TimingCompletes := by
  intro f s
  refine ⟨?info, ?now, ?reference, ?pll, ?holdover, ?offset, ?splice, ?sticky, ?select⟩
  case info =>
    rintro t _ rfl
    exact ruzia_of_okResp t rfl
  case now | sticky => exact fun t => ruzia_of_okResp t rfl
  case reference =>
    rintro t _ rfl hcand henable hnone hport _ rfl _ rfl _ rfl
    exact ruzia_of_okResp t <| need_then (decide_eq_true hcand) <| need_then (decide_eq_true henable) <| need_then hnone <|
      need_then hport rfl
  case pll =>
    rintro t hbandwidth hreport hzero _ rfl
    exact ruzia_of_okResp t <| need_then (decide_eq_true hbandwidth) <| need_then (decide_eq_true hreport) <|
      reserved_then hzero rfl
  case holdover =>
    intro t hdrift hageing hlimit
    exact ruzia_of_okResp t <| need_then (decide_eq_true hdrift) <| need_then (decide_eq_true hageing) <| need_then hlimit rfl
  case offset =>
    intro t q hq hfree hidle hnoRecall hroom
    refine ruzia_of_accResp t ?_
    simp only [opTimingOffsetSet, timingOffsetBody, hq]
    exact need_then hfree <| need_then hidle <| need_then hnoRecall <| mayDefer_then hroom rfl
  case splice =>
    intro t d hd hzero hlength
    exact ruzia_of_okResp t <| ok_then hd <| reserved_then hzero <| need_then (decide_eq_true hlength) rfl
  case select =>
    rintro t _ rfl hcand hzero
    exact ruzia_of_okResp t <| need_then hcand <| reserved_then hzero rfl

end Sys2Proof.Proofs
end

section
/-! The sys commands and what reads a desk (R297, R319, R321, R516, R517): a command whose own checks all pass is answered with its effect
in force, or is held until its later stage. Each proof walks the checks of the command's body in their order (R309). From these O1 and
O2. -/
namespace Sys2Proof.Proofs.SysCommands
open Sys2Proof.Machine Sys2Proof.Laws Scenes

variable {f : CmdFrame} {s : State} {l : Launch} {b : Nat}

@[simp] theorem draw_desks (s : State) : s.draw.2.desks = s.desks := rfl

/-- What the quota records of desk 0 draw leaves every desk as it is. -/
theorem quotaBytes_desks (d : Nat) : (quotaBytes s d).2.desks = s.desks :=
  List.foldlRecOn (motive := fun p : List Byte × State => p.2.desks = s.desks) _ _ rfl fun p hp i _ => by
    by_cases hd : (d == 0) = true
    · simpa [hd] using hp
    · simpa [hd] using hp

theorem deskHandle_of_desks {u : State} (h : u.desks = s.desks) (d : Nat) : u.deskHandle d = s.deskHandle d := by
  simp only [State.deskHandle, State.desk, h]

/-- What a desk is told of a desk: the handle in the answer is the one from before the draws. -/
theorem deskInfoBody_ok (hdesk : u16 f 0 ≤ 16) (hzero : fld f 2 2 = 0) :
    deskInfoBody s f = okResp (quotaBytes s (u16 f 0)).2 (le 4 (s.deskHandle (u16 f 0)) ++
      le 1 (s.desk (u16 f 0)).transport.code ++ le 1 (if (s.desk (u16 f 0)).isOpen then 1 else 0) ++ le 2 0 ++
      le 4 (s.desk (u16 f 0)).lease ++ (quotaBytes s (u16 f 0)).1) := by
  rw [← deskHandle_of_desks (quotaBytes_desks (u16 f 0))]
  exact need_then (decide_eq_true hdesk) <| reserved_then hzero rfl

/-- The bank a snapshot names, or for 0xFF the one the last snapshot did not take (R319). -/
theorem snapshotBank_eq (hbank : u8 f 16 = b ∧ b ≤ 1 ∨ u8 f 16 = 0xFF ∧ b = 1 - s.snap.lastBank) :
    (if u8 f 16 == 0xFF then 1 - s.snap.lastBank else u8 f 16) = b := by
  obtain ⟨rfl, hb⟩ | ⟨h, rfl⟩ := hbank
  · exact if_neg (by simp; omega)
  · exact if_pos (by simp [h])

/-- A snapshot of this engine alone: SCOPE 0 tells no other engine of it, and one that slips past its launch tells of it (R219). -/
theorem sysSnapshotBody_here (hl : launchAt s f 0 = .ok l) (hnear : l.kind = 0 ∨ l.index s 0 ≤ s.idx 0 + 2 ^ 32)
    (hbank : u8 f 16 = b ∧ b ≤ 1 ∨ u8 f 16 = 0xFF ∧ b = 1 - s.snap.lastBank) (hhere : u8 f 17 = 0) (hzero : fld f 18 2 = 0)
    (hidle : s.snap.busy b = false) (hstrict : strictFlag f = true → (snapWhen s l 2).2 = false) :
    sysSnapshotBody s f = okResp ((s.takeSnapshot b (snapWhen s l 2).1 1 0 0).slipEvent f 0x0101 1
      { s := 8 * (snapWhen s l 2).1, tick := false, asked := l.index s 0, slipped := (snapWhen s l 2).2, now := false })
      (le 8 (s.snap.seq + 1)) := by
  have hintime : ¬ ((snapWhen s l 2).2 && strictFlag f) = true := by
    cases h : strictFlag f
    · simp
    · simp [hstrict h]
  have hcode : (decide (u8 f 16 ≤ 1) || u8 f 16 == 0xFF) = true := by simp; omega
  refine ok_then hl <| need_then hcode <| need_then (by simp [hhere]) <| reserved_then hzero <| need_then (launchNear_ok hnear) <|
    need_then (by simp [hhere]) ?_
  simp only [hhere, snapshotBank_eq hbank]
  exact need_then (by simp [hidle]) <| if_neg hintime

end Sys2Proof.Proofs.SysCommands

namespace Sys2Proof.Proofs
open Sys2Proof.Machine Sys2Proof.Laws RingsAndRoutes Blocks SysCommands

/-- Settles O1: `sys.info` and `desk.ping` have no checks of their own, `desk.info` is `deskInfoBody_ok`.
That the quota words of desk 0 are free values is the model's choice (log entry 29). -/
theorem sysDeskReadsComplete : Obligations.SysDeskReadsComplete := by
  intro f s
  refine ⟨?info, ?deskInfo, ?ping⟩
  case info | ping => exact fun t => ruzia_of_okResp t rfl
  case deskInfo =>
    intro t hdesk hzero
    exact ruzia_of_okResp t (deskInfoBody_ok hdesk hzero)

/-- Settles O2: the checks of each body pass in their order; the snapshot is `sysSnapshotBody_here`. -/
theorem sysChangesComplete : Obligations.SysChangesComplete := by
  intro f s
  refine ⟨?snapshot, ?restart, ?image⟩
  case snapshot =>
    intro l b t hl hnear hbank hhere hzero hidle hstrict
    exact ruzia_of_okResp t (sysSnapshotBody_here hl hnear hbank hhere hzero hidle hstrict)
  case restart =>
    intro t hmode hzero
    exact ruzia_of_okResp t <| need_then (decide_eq_true hmode) <| reserved_then hzero rfl
  case image =>
    intro b t hslot hzero hb hother hroom
    exact ruzia_of_accResp t <| need_then (by simpa using hslot) <| reserved_then hzero <| ok_then hb <|
      need_then (by simpa using hother) <| mayDefer_then hroom rfl

end Sys2Proof.Proofs
end

section
/-! With the engine die off (R551, R554): what a command of the engine's side leaves as it is, what a step on an empty queue does, the
one command that turns the die on, and the one reason for which a command stops the machine. From these O48 to O51. -/
namespace Sys2Proof.Proofs.EngineOff
open Sys2Proof.Machine Sys2Proof.Laws QuarryTime Frames

variable {s t : State} {c : Instr}

/-! ## The guards of the engine's commands -/

theorem inQuarry_of_off (hoff : s.dieOn = false) : s.inQuarry = false := by simp [State.inQuarry, hoff]

theorem hears_of_off (hoff : s.dieOn = false) (l : Nat) : hears s l = false := by simp [hears, hoff]

theorem not_boot_of_off (hoff : s.dieOn = false) : (s.sv.st == .boot) = false := by
  unfold State.dieOn at hoff
  cases hst : s.sv.st <;> simp_all

theorem loading_of_off (hoff : s.dieOn = false) : s.loading = false := by simp [State.loading, not_boot_of_off hoff]

/-! ## Ruzia commands -/

/-- An engine that does not serve takes no frame, whatever its opcode (R309). -/
theorem runOpcode_idle (hidle : s.serving = false) (op : Nat) (f : CmdFrame) : runOpcode op f s = s := by
  have htake := takeable_of_idle hidle f
  unfold runOpcode
  split
  · split
    · have hrelay : ¬ relays s f = true := by simp [relays, htake]
      simp [redSwitchState, hrelay, ruziaState, htake]
    · simp [ruziaState, htake]
  · simp [unknownOpcode, htake]

/-! ## Events of the engine's hardware and firmware (log entry 90) -/

theorem imageCheckDone_off (hoff : s.dieOn = false) (v : ImageVerdict) : exec (.imageCheckDone v) s = .next s := by
  unfold State.dieOn at hoff
  change execImageCheckDone v s = _
  unfold execImageCheckDone
  cases hst : s.sv.st <;> simp_all

/-- The polling of the command rings finds none that it serves. -/
theorem cmdTailPoll_idle (hidle : s.serving = false) : exec .cmdTailPoll s = .next s := by
  have hround : (List.range 17).foldl (fun s d => s.takeSlot d) s = s := foldl_same _ _ _ fun d => takeSlot_idle hidle d
  exact congrArg Host.Outcome.next (foldl_same _ _ _ fun _ => hround)

theorem takeSlots_ite_idle (hidle : s.serving = false) (d : Nat) : (if d ≤ 16 then s.takeSlots d else s) = s := by
  rw [takeSlots_idle hidle, ite_self]

theorem exec_event_off (hoff : s.dieOn = false) (hruzia : ruziaOf c = none) (hside : supervisorSide c = false) :
    exec c s = .next s := by
  have hidle := serving_of_off hoff
  have hquarry := inQuarry_of_off hoff
  have hload := loading_of_off hoff
  have hboot := not_boot_of_off hoff
  have hdeaf := hears_of_off hoff
  cases c <;> cases hruzia <;> cases hside
  -- the effect stands behind a guard that the die is on, that the engine serves or that it is in a quarry
  case quarryArm | quarryReady | quarryLate | quarryRetarget | quarryGo | quarryAbort | leaseExpired | tdmClockLoss | portClockRecovered |
      gpoRetry | gpoRetryHeld | gpoStuckLowTimeout | streamPacketReceived | referenceEvent | candidateValid | candidateLost |
      calibrationWrite | formationTimeout | ownReleaseSensed | ownAssertSensed | takeoverSettleEnd | ownCollisionBackoff |
      tetherSelfRelease | fenceAsserted | fenceReleased | pPropose | pAccept | pCommit | topologyReportSend | topologyReport |
      laneSignalDetect | laneUp | laneAshTimeout | retryWindowClose | ctrlRecordExpiry | arpRefresh | gpiSample | gpiChangeAccepted |
      fragmentReceived | ringEvt | mailboxFlagsClear | protoErrCountRead | seamControlRecord | tetherFrameReceived | misfitCountRead |
      rvCountRead | irqStatusClear | stickyWrite | quarryTimeCapture | snapshotTake | snapRefusedClear | cpRemapWrite |
      registerPairLowRead | registerWrite | pcieLinkUp | ashlarSlot | controlTick | quarrySnapshotRecord | hostLoadTimeout |
      antiRollbackBurn =>
    exact congrArg _ (if_neg (by simp [hoff, hidle, hquarry, hboot]))
  case twinWarmupStart | kerfComplete | lockstepMismatch | scrubPass | bankSpareSwitch => exact if_neg (by simp [hoff])
  case scheduledLaunch => exact (if_neg (by simp [hoff])).trans (if_neg (by simp [hoff]))
  -- what needs the die, or an engine that serves, is turned away first
  case captureStopIndexReached | capturePlayEnd | sceneStoreComplete | deskAttachEffect | gpoOvercurrent | pllUpdate | pChangeApply |
      nakReceived | ethLinkChange | dhcpLeaseEvent | ptpMessageReceived | ptpMessageInterval | announceReceiptTimeout |
      fragmentTimeout | bulkTransferDone | cmdTailWrite | rspHeadWrite | evtHeadWrite | ethFrameReceived | seamHeaderReceived |
      segmentReceived | endpointReset | matrixAccess | tdmFrame | bootChunkPost | firmwareWatchdogExpiry | firmwareReady |
      commandDesk0Pcie =>
    exact congrArg _ (if_pos (by simp [hoff, hidle, hload, hboot, hdeaf]))
  case nodeLoadComplete | packageCheckDone | relocationSwitch | arraySpareSwitch | transplantSwitch | backgroundTest | spareTestComplete =>
    exact if_pos (by simp [hoff, hidle])
  case eventDelivery d => exact congrArg _ (deliver_idle hidle d)
  case udpDatagramReceived d => exact congrArg _ (datagram_idle hidle d)
  case ringCmd d | ringRsp d => exact congrArg _ (takeSlots_ite_idle hidle d)
  case cmdTailPoll => exact cmdTailPoll_idle hidle
  case imageCheckDone v => exact imageCheckDone_off hoff v
  -- what the event is about is looked up before the guard
  case keeperDecisionPoint | recallPlanPoint | recallOrphanDeadline | domainStopInstant | domainRestartInstant | domainFadeInEnd |
      holdoverExpiry | peerLostTimeout | ackTimeout | pVoteTimeout | writerSilenceTimeout | phaseStepApply | snapshotLatch =>
    refine congrArg Host.Outcome.next ?_
    split <;> simp [hoff, hidle]
  case streamPacketLaunch | streamPathDownTimeout | streamPathUp =>
    refine congrArg Host.Outcome.next ?_
    split
    · split <;> simp [hoff]
    · rfl
  case loudnessBlockStep =>
    refine congrArg Host.Outcome.next ?_
    split
    · rfl
    · split <;> simp [hoff]

end Sys2Proof.Proofs.EngineOff

namespace Sys2Proof.Proofs
open Sys2Proof.Machine Sys2Proof.Laws Frames EngineOff

/-- Settles O48: a Ruzia command is taken only by an engine that serves, and every event of the engine's side is guarded by the die.
That such an event may be given while the die is off, and then changes nothing, is the model's deduction (log entry 90). -/
theorem engineOffIsInert : Obligations.EngineOffIsInert := by
  intro s c hoff hside
  cases hruzia : ruziaOf c with
  | none => exact exec_event_off hoff hruzia hside
  | some r => rw [exec_of_ruziaOf hruzia, runOpcode_idle (serving_of_off hoff)]

end Sys2Proof.Proofs

namespace Sys2Proof.Proofs.EngineOff
open Sys2Proof.Machine Sys2Proof.Laws QuarryTime Frames

variable {s t : State} {c : Instr}

/-! ## What the supervisor does with the die off -/

/-- The supervisor's state alone says whether the die is on (R551). -/
theorem off_of_st {u : State} (hoff : s.dieOn = false) (hst : u.sv.st = s.sv.st) : u.dieOn = false := by
  rw [← hoff]
  simp only [State.dieOn, hst]

theorem off_onSv {g : Sv → Sv} (hoff : s.dieOn = false) (hg : (g s.sv).st = s.sv.st) : (s.onSv g).dieOn = false :=
  off_of_st hoff hg

theorem off_ite {p : Prop} [Decidable p] {a b : State} (ha : a.dieOn = false) (hb : b.dieOn = false) :
    (if p then a else b).dieOn = false := by
  split
  · exact ha
  · exact hb

theorem off_sequence (s : State) (cause : Nat) : (s.sequence cause).dieOn = false := rfl

theorem off_stall (s : State) (code step attempts : Nat) : (s.stall code step attempts).dieOn = false := rfl

theorem off_stallHere (s : State) (code : Nat) : (s.stallHere code).dieOn = false := by
  unfold State.stallHere
  split <;> rfl

theorem off_restartFor (s : State) (cause : Nat) : (s.restartFor cause).dieOn = false := off_ite rfl rfl

/-- WAKE's level moves the supervisor to WATCH and to SEQUENCING at most. -/
theorem off_wakeUp (hoff : s.dieOn = false) : s.wakeUp.dieOn = false := by
  refine off_ite hoff ?_
  split
  · rfl
  · exact off_ite rfl hoff
  · exact hoff

theorem off_selected (hoff : s.dieOn = false) : s.selected.dieOn = false := off_ite rfl hoff

theorem guardWrites_sv (s : State) : s.guardWrites.sv = s.sv := by
  unfold State.guardWrites
  split
  · rfl
  · split <;> rfl

theorem off_guardWrites (hoff : s.dieOn = false) : s.guardWrites.dieOn = false := off_of_st hoff (by rw [guardWrites_sv])

theorem off_powerOn (s : State) (vin : Nat) : (s.powerOn vin).dieOn = false :=
  off_guardWrites rfl

theorem off_sensed (hoff : s.dieOn = false) (vin : Nat) : (s.sensed vin).dieOn = false :=
  off_ite (off_ite (off_wakeUp (off_wakeUp (off_powerOn s vin))) hoff) <| off_ite rfl <| off_ite rfl <|
    off_wakeUp (off_guardWrites (off_onSv hoff rfl))

/-! ### The service port -/

theorem off_persisted {g : Sv → Sv} (hoff : s.dieOn = false) (hg : (g s.sv).st = s.sv.st) : (s.persisted g).dieOn = false :=
  off_ite (off_of_st hoff hg) (off_of_st hoff hg)

theorem off_cmdWake (hoff : s.dieOn = false) : s.cmdWake.dieOn = false := off_ite (off_sequence s 3) hoff

theorem off_cmdDormant (hoff : s.dieOn = false) : s.cmdDormant.dieOn = false := by
  unfold State.cmdDormant
  split
  · exact hoff
  · exact hoff
  · rfl

theorem off_cmdRestart (hoff : s.dieOn = false) : s.cmdRestart.dieOn = false := by
  unfold State.cmdRestart
  split
  case h_4 => exact hoff
  all_goals exact off_restartFor s 4

theorem off_cmdClearStall (hoff : s.dieOn = false) : s.cmdClearStall.dieOn = false := off_ite rfl hoff

theorem cmdDesk0_idle (hidle : s.serving = false) : s.cmdDesk0 = s := if_pos (by simp [hidle])

theorem off_command (hoff : s.dieOn = false) (n : Nat) : (s.command n).dieOn = false := by
  unfold State.command
  split
  · exact off_cmdWake hoff
  · exact off_cmdDormant hoff
  · exact off_cmdRestart hoff
  · exact off_cmdClearStall hoff
  · rwa [cmdDesk0_idle (serving_of_off hoff)]

theorem off_svPut (hoff : s.dieOn = false) (a w : Nat) : (s.svPut a w).dieOn = false := by
  have hrefused : s.spiRefused.dieOn = false := off_onSv hoff rfl
  unfold State.svPut
  split
  · exact off_ite (off_command hoff _) hrefused
  · exact off_ite (off_onSv hoff rfl) hrefused
  · exact off_ite (off_ite rfl (off_guardWrites (off_persisted hoff rfl))) hrefused
  · exact off_ite (off_persisted hoff rfl) hrefused
  · exact off_ite (off_wakeUp (off_persisted hoff rfl)) hrefused
  · exact hoff

theorem off_svWrite (hoff : s.dieOn = false) (a : Nat) (d : Word) (chk : Byte) (hnext : exec (.svWrite a d chk) s = .next t) :
    t.dieOn = false := by
  obtain rfl := Host.Outcome.next.inj hnext
  split
  · exact hoff
  · exact off_selected hoff
  · exact off_ite (off_svPut hoff _ _) (off_onSv hoff rfl)

theorem off_spiRead (hoff : s.dieOn = false) (a : Nat) : (s.spiRead a).dieOn = false := by
  have hmeasured : (if a == 0x04 || a == 0x0C || a == 0x14 then s.measure else s).dieOn = false := off_ite (off_onSv hoff rfl) hoff
  unfold State.spiRead
  split
  · exact hoff
  · exact off_selected hoff
  · exact off_ite (off_onSv hmeasured rfl) hmeasured

/-! ### The converter's phases -/

theorem off_phasesUp (hoff : s.dieOn = false) (failed : Nat) : (s.phasesUp failed).dieOn = false :=
  off_ite (off_stall _ _ _ _) (off_onSv (off_onSv (off_onSv hoff rfl) rfl) rfl)

/-- Without an engine that serves, a lasting fault of a phase is the supervisor's to keep. -/
theorem off_phaseLost (hoff : s.dieOn = false) (p : Nat) : (s.phaseLost p).dieOn = false := by
  have hkept : ((s.onFaults fun x => { x with phaseTrying := x.phaseTrying.filter (· != p) }).onSv fun v =>
      { v with phaseFailed := v.phaseFailed ||| 2 ^ p }).dieOn = false := off_onSv hoff rfl
  have hidle := serving_of_off hkept
  unfold State.phaseLost
  rwa [if_pos (by simp [hidle])]

theorem off_phaseFault (hoff : s.dieOn = false) (p : Nat) (hnext : exec (.phaseFault p) s = .next t) : t.dieOn = false := by
  obtain rfl := Host.Outcome.next.inj hnext
  have hspare : ((s.onSv fun v => { v with phaseOk := v.phaseOk - 2 ^ p }).spareNow).dieOn = false := off_onSv (off_onSv hoff rfl) rfl
  exact off_ite hoff <| off_ite (off_stallHere _ _) <| off_ite (off_phaseLost hspare p) hspare

theorem off_phaseClean (hoff : s.dieOn = false) (p : Nat) (hnext : exec (.phaseClean p) s = .next t) : t.dieOn = false := by
  obtain rfl := Host.Outcome.next.inj hnext
  have hspare : ((s.onFaults fun x => { x with phaseTrying := x.phaseTrying.filter (· != p) }).spareNow).dieOn = false :=
    off_onSv hoff rfl
  refine off_ite hoff ?_
  rwa [if_neg (by simp [serving_of_off hspare])]

/-! ### The sequence -/

/-- A step of the sequence but the last leaves the die in reset; the last one enters BOOT (R554). -/
theorem off_sequencingStepReady (hoff : s.dieOn = false) (failed strap : Nat)
    (hnext : exec (.sequencingStepReady failed strap) s = .next t) :
    t.dieOn = false ∨ (s.sv.st = .sequencing ∧ s.sv.retryWait = false ∧ t = s.enterBoot) := by
  change execSequencingStepReady failed strap s = _ at hnext
  unfold execSequencingStepReady at hnext
  by_cases hrun : s.sv.st = .sequencing ∧ s.sv.retryWait = false
  · obtain ⟨hseq, hwait⟩ := hrun
    rw [if_neg (by simp [hseq, hwait])] at hnext
    obtain rfl := Host.Outcome.next.inj hnext
    split
    case h_4 => exact .inl (off_phasesUp hoff failed)
    case h_10 => exact .inr ⟨hseq, hwait, rfl⟩
    all_goals exact .inl (off_of_st hoff rfl)
  · rw [if_pos (by_contra fun h => hrun (by simpa using h))] at hnext
    cases hnext
    exact .inl hoff

theorem off_sequencingStepTimeout (hoff : s.dieOn = false) (hnext : exec .sequencingStepTimeout s = .next t) : t.dieOn = false := by
  obtain rfl := Host.Outcome.next.inj hnext
  exact off_ite hoff <| off_ite (off_onSv (s := s.backDown) (off_of_st hoff rfl) rfl) (off_stall _ _ _ _)

/-- Of the supervisor's commands only the one for a step of the sequence can turn the die on. -/
theorem off_supervisor (hoff : s.dieOn = false) (hside : supervisorSide c = true) (hstep : ∀ p k, c ≠ .sequencingStepReady p k)
    (hnext : exec c s = .next t) : t.dieOn = false := by
  cases c <;> cases hside
  case sequencingStepReady p k => exact absurd rfl (hstep p k)
  case supervisorPowerOn v | vinRiseUvlo v | brownoutTrigger v | vinGuardFall v | vinGuardRise v =>
    change sensing v s = _ at hnext
    unfold sensing at hnext
    split at hnext
    · cases hnext
    · obtain rfl := Host.Outcome.next.inj hnext
      exact off_sensed hoff v
  case svWrite a d chk => exact off_svWrite hoff a d chk hnext
  case phaseFault p => exact off_phaseFault hoff p hnext
  case phaseClean p => exact off_phaseClean hoff p hnext
  case sequencingStepTimeout => exact off_sequencingStepTimeout hoff hnext
  all_goals obtain rfl := Host.Outcome.next.inj hnext
  case svRead | spiErrRead => exact off_spiRead hoff _
  case commandWake => exact off_cmdWake hoff
  case commandDormant => exact off_cmdDormant hoff
  case commandRestart => exact off_cmdRestart hoff
  case commandClearStall => exact off_cmdClearStall hoff
  case supervisorPowerOff => rfl
  case wakeHigh => exact off_wakeUp (off_wakeUp (off_onSv hoff rfl))
  case svCsSelect => exact off_selected hoff
  case wakeLowShutdown => exact off_ite rfl (off_onSv hoff rfl)
  case watchIdleTimeout => exact off_ite rfl hoff
  case ilimHeld => exact off_ite hoff <| off_ite (off_onSv hoff rfl) (off_stallHere _ _)
  case overTemperature => exact off_ite hoff <| off_ite (off_stallHere _ _) (off_onSv hoff rfl)
  case sequenceRetry => exact off_ite (off_onSv hoff rfl) hoff
  case phaseRetry => exact off_ite hoff (off_onSv hoff rfl)

/-! ## A step on an empty queue -/

theorem toRaw_sv (s : State) (raw : Nat) : (s.toRaw raw).sv = s.sv := by
  obtain ⟨_, _, h⟩ := toRaw_frame s raw
  rw [h]

theorem toRaw_pending (s : State) (raw : Nat) : (s.toRaw raw).pending = s.pending := by
  obtain ⟨_, _, h⟩ := toRaw_frame s raw
  rw [h]

theorem wakeUp_pending (s : State) : s.wakeUp.pending = s.pending := by
  unfold State.wakeUp
  split
  · rfl
  · split
    · rfl
    · split <;> rfl
    · rfl

/-- With the die off a TIME cycle counts at most, and WAKE acts; a restart that is due is the engine's. -/
theorem timePass_of_off (hoff : s.dieOn = false) :
    s.timePass = (if s.sv.st == .sequencing && s.sv.step == 10 then s.toRaw (s.clk.raw + 1) else s).wakeUp := by
  have hidle : (if s.sv.st == .sequencing && s.sv.step == 10 then s.toRaw (s.clk.raw + 1) else s).serving = false :=
    serving_of_off (off_ite (off_of_st hoff (by rw [toRaw_sv])) hoff)
  simp only [State.timePass, hoff, Bool.false_or]
  congr 1
  split
  · exact if_neg (by rw [hidle, Bool.false_and]; exact Bool.false_ne_true)
  · rfl

theorem off_timePass (hoff : s.dieOn = false) : s.timePass.dieOn = false := by
  rw [timePass_of_off hoff]
  exact off_wakeUp (off_ite (off_of_st hoff (by rw [toRaw_sv])) hoff)

theorem timePass_pending_of_off (hoff : s.dieOn = false) : s.timePass.pending = s.pending := by
  rw [timePass_of_off hoff, wakeUp_pending]
  split
  · exact toRaw_pending _ _
  · rfl

theorem step_of_cons {cs : List Instr} (hpending : s.pending = c :: cs) : step s = exec c { s with pending := cs } := by
  simp only [step, hpending]

/-! ## What can stop the machine -/

theorem goesOn_ite {p : Prop} [Decidable p] {a b : Out} (ha : goesOn a) (hb : goesOn b) : goesOn (if p then a else b) := by
  split
  · exact ha
  · exact hb

theorem goesOn_next (u : State) : goesOn (.next u) := ⟨u, rfl⟩

/-- A node load ends with NODE_STAGED, whichever of its checks fails (R182). -/
theorem goesOn_nodeLoadComplete (order : Nat) (s : State) : goesOn (exec (.nodeLoadComplete order) s) := by
  refine goesOn_ite (goesOn_next _) ?_
  split
  · exact goesOn_next _
  · split
    · exact goesOn_next _
    · split
      · exact goesOn_next _
      · dsimp only
        split
        · exact goesOn_next _
        · exact goesOn_next _
        · split <;> exact goesOn_next _

theorem goesOn_packageCheckDone (a b : Bool) (s : State) : goesOn (exec (.packageCheckDone a b) s) := by
  refine goesOn_ite (goesOn_next _) ?_
  split
  · exact goesOn_next _
  · split <;> exact goesOn_next _

theorem goesOn_relocationSwitch (ring part bank row : Nat) (s : State) : goesOn (exec (.relocationSwitch ring part bank row) s) := by
  refine goesOn_ite (goesOn_next _) ?_
  split <;> exact goesOn_next _

theorem goesOn_spareTestComplete (kind unit : Nat) (pass : Bool) (s : State) : goesOn (exec (.spareTestComplete kind unit pass) s) := by
  refine goesOn_ite (goesOn_next _) ?_
  split
  · exact goesOn_next _
  · exact goesOn_ite (goesOn_next _) (goesOn_next _)

theorem goesOn_transplantSwitch (source target : Nat) (mismatch : Bool) (lost : List Nat) (s : State) :
    goesOn (exec (.transplantSwitch source target mismatch lost) s) := by
  refine goesOn_ite (goesOn_next _) ?_
  split
  · exact goesOn_next _
  · exact goesOn_ite (goesOn_next _) <| goesOn_ite (goesOn_next _) <| goesOn_ite (goesOn_next _) (goesOn_next _)

theorem goesOn_event (hruzia : ruziaOf c = none) (hsense : sensedVin c = none) (s : State) : goesOn (exec c s) := by
  cases c <;> cases hruzia <;> cases hsense
  case nodeLoadComplete order => exact goesOn_nodeLoadComplete order s
  case packageCheckDone a b => exact goesOn_packageCheckDone a b s
  case twinWarmupStart | kerfComplete | lockstepMismatch | scrubPass | bankSpareSwitch | arraySpareSwitch | sequencingStepReady =>
    exact goesOn_ite (goesOn_next _) (goesOn_next _)
  case scheduledLaunch | backgroundTest => exact goesOn_ite (goesOn_next _) <| goesOn_ite (goesOn_next _) (goesOn_next _)
  case relocationSwitch ring part bank row => exact goesOn_relocationSwitch ring part bank row s
  case spareTestComplete kind unit pass => exact goesOn_spareTestComplete kind unit pass s
  case transplantSwitch source target mismatch lost => exact goesOn_transplantSwitch source target mismatch lost s
  all_goals exact ⟨_, rfl⟩

/-- A command that senses no voltage goes on in every state. -/
theorem goesOn_of_not_sensing (hsense : sensedVin c = none) (s : State) : goesOn (exec c s) := by
  cases hruzia : ruziaOf c with
  | some r => exact ⟨_, exec_of_ruziaOf hruzia s⟩
  | none => exact goesOn_event hruzia hsense s

theorem exec_of_sensing {v : Nat} (hsense : sensedVin c = some v) (s : State) : exec c s = sensing v s := by
  cases c <;> cases hsense <;> rfl

theorem sensing_of_rated {v : Nat} (hv : v ≤ 4800) (s : State) : sensing v s = .next (s.sensed v) := if_neg (by omega)

theorem sensing_of_overVoltage {v : Nat} (hv : 4800 < v) (s : State) : sensing v s = .fault .outsideRatings := if_pos hv

end Sys2Proof.Proofs.EngineOff

namespace Sys2Proof.Proofs
open Sys2Proof.Machine Sys2Proof.Laws Frames QuarryTime EngineOff

/-- Settles O49: the command in front changes nothing (O48), and a TIME cycle that passes on an empty queue leaves the die off. -/
theorem offStaysOff : Obligations.OffStaysOff := by
  rintro s t ⟨hoff, hwait⟩ hstep
  cases hpending : s.pending with
  | nil =>
    rw [step_of_empty hpending] at hstep
    cases hstep
    exact ⟨off_timePass hoff, by simp [timePass_pending_of_off hoff, hpending]⟩
  | cons c cs =>
    rw [hpending, List.forall_mem_cons] at hwait
    obtain ⟨hside, hrest⟩ := hwait
    have hinert := engineOffIsInert { s with pending := cs } c hoff hside
    rw [step_of_cons hpending, hinert] at hstep
    cases hstep
    exact ⟨hoff, hrest⟩

/-- Settles O50: an engine command changes nothing (O48), and of the supervisor's commands only the step of the sequence that enters BOOT
turns the die on (R552, R554). The die counts as on in BOOT and RUNNING, which is the model's reading of R551. -/
theorem onlyTheSequencePowersTheDie : Obligations.OnlyTheSequencePowersTheDie := by
  intro s t c hoff hnext hon
  cases hside : supervisorSide c with
  | false =>
    rw [engineOffIsInert s c hoff hside] at hnext
    cases hnext
    exact absurd hon (by simp [hoff])
  | true =>
    by_cases hstep : ∃ p k, c = .sequencingStepReady p k
    · obtain ⟨p, k, rfl⟩ := hstep
      obtain ht | ⟨hsequencing, hwait, rfl⟩ := off_sequencingStepReady hoff p k hnext
      · exact absurd hon (by simp [ht])
      · exact ⟨⟨p, k, rfl⟩, hsequencing, hwait, rfl, rfl⟩
    · have ht := off_supervisor hoff hside (fun p k h => hstep ⟨p, k, h⟩) hnext
      exact absurd hon (by simp [ht])

/-- Settles O51: only a command that senses the input voltage can stop, and it stops above the absolute maximum of R573. That the
machine then ends in a fault of its own name is the model's deduction (log entry 89). -/
theorem onlyOverVoltageStops : Obligations.OnlyOverVoltageStops := by
  intro s c
  cases hsense : sensedVin c with
  | none => exact .inl (goesOn_of_not_sensing hsense s)
  | some v =>
    rw [exec_of_sensing hsense]
    by_cases hv : 4800 < v
    · exact .inr ⟨sensing_of_overVoltage hv s, v, rfl, hv⟩
    · exact .inl ⟨_, sensing_of_rated (not_lt.1 hv) s⟩

end Sys2Proof.Proofs
end

section
/-! The supervisor (R551-R573): the service port, the supply and WAKE, the sequence, BOOT and the converter's phases. What each operation
does in the state a clause names, and from these O34, O35 and O36. -/
namespace Sys2Proof.Proofs.Supervisor
open Sys2Proof.Machine Sys2Proof.Laws QuarryTime EngineOff

variable {s : State}

/-! ## The service port (R567-R571) -/

section
variable (hpower : s.sv.st ≠ .off) (hawake : s.sv.st ≠ .dormant)
include hpower hawake

theorem exec_svWrite (a : Nat) (d : Word) (chk : Byte) : exec (.svWrite a d chk) s = .next (
    if chk.toNat = crc8 ([0x02, BitVec.ofNat 8 a] ++ leWord d) then s.svPut a d.toNat else s.spiRefused) := by
  change execSvWrite a d chk s = _
  unfold execSvWrite
  split
  · exact absurd ‹_› hpower
  · exact absurd ‹_› hawake
  · simp only [beq_iff_eq]

/-- A read measures what has to be measured, answers the register with its check, and clears SPI_ERR where that is what it read. -/
theorem spiRead_awake (a : Nat) : s.spiRead a =
    let m := if a == 0x04 || a == 0x0C || a == 0x14 then s.measure else s
    let u := m.emit (.spi a (BitVec.ofNat 32 (svReg m a)) (BitVec.ofNat 8 (crc8 ([0x0B, BitVec.ofNat 8 a] ++ le 4 (svReg m a)))))
    if a == 0x38 then u.onSv fun v => { v with spiErr := 0 } else u := by
  unfold State.spiRead
  split
  · exact absurd ‹_› hpower
  · exact absurd ‹_› hawake
  · rfl

theorem cmdDormant_awake : s.cmdDormant = s.shutdown .dormant := by
  unfold State.cmdDormant
  split
  · exact absurd ‹_› hpower
  · exact absurd ‹_› hawake
  · rfl

end

/-- A restart goes on to the sequence at once where VIN allows it (R553). -/
theorem restartFor_supplied (hvin : 520 ≤ s.sv.vin) (cause : Nat) : s.restartFor cause = (s.shutdown .watch).sequence cause :=
  if_pos hvin

theorem cmdRestart_eq (hst : s.sv.st = .boot ∨ s.sv.st = .running ∨ s.sv.st = .stalled) : s.cmdRestart = s.restartFor 4 := by
  unfold State.cmdRestart
  rcases hst with h | h | h <;> rw [h]

end Sys2Proof.Proofs.Supervisor

namespace Sys2Proof.Proofs
open Sys2Proof.Machine Sys2Proof.Laws QuarryTime EngineOff Supervisor

/-- Settles O34: the port answers unless the supervisor is off or DORMANT, and each of the five commands acts in the states of R571. -/
theorem servicePortCompletes : Obligations.ServicePortCompletes := by
  intro s
  refine ⟨fun a d c hpower hawake => exec_svWrite hpower hawake a d c, ?read, ?errors, ?select, ?wake, ?dormant, ?restart, ?clear, ?desk0,
    rfl⟩
  case read =>
    intro a hpower hawake herr hstate hvin htemp
    refine congrArg Host.Outcome.next ?_
    simp [spiRead_awake hpower hawake, herr, hstate, hvin, htemp]
  case errors => exact fun hpower hawake => congrArg Host.Outcome.next (spiRead_awake hpower hawake 0x38)
  case select => exact fun hdormant => congrArg _ (if_pos (by simp [hdormant]))
  case wake => exact fun hwatch hgood => congrArg _ (if_pos (by simp [hwatch, hgood]))
  case dormant => exact fun hpower hawake => congrArg Host.Outcome.next (cmdDormant_awake hpower hawake)
  case restart =>
    exact fun hst hvin => congrArg Host.Outcome.next ((cmdRestart_eq hst).trans (restartFor_supplied hvin 4))
  case clear => exact fun hstalled => congrArg _ (if_pos (by simp [hstalled]))
  case desk0 =>
    intro hserves
    exact ⟨_, rfl, congrArg Host.Outcome.next (if_neg (by simp [hserves])).symm⟩

end Sys2Proof.Proofs

namespace Sys2Proof.Proofs.Supervisor
open Sys2Proof.Machine Sys2Proof.Laws QuarryTime EngineOff

variable {s : State}

/-! ## The supply and WAKE (R551, R553) -/

/-- WAKE going high in WATCH starts the sequence where PWR_CFG and VIN let it; the reason is WAKE. -/
theorem exec_wakeHigh_watch (hwatch : s.sv.st = .watch) (hlow : s.sv.wake = false) (hauto : s.sv.wakeAuto = true)
    (hgood : s.sv.vinGood = true) : exec .wakeHigh s = .next ((s.onSv fun v => { v with wake := true, why := 2 }).sequence 2) := by
  have hvin : s.sv.vin ≥ 520 := by
    simp only [Sv.vinGood, Bool.and_eq_true, decide_eq_true_eq] at hgood
    exact hgood.1
  change execWakeHigh s = _
  simp [execWakeHigh, State.wakeUp, State.onSv, State.sequence, Sv.vinGood, hwatch, hlow, hauto, hvin]

/-- The level is low from now on, whatever PWR_CFG makes of it. -/
theorem exec_wakeLowShutdown (s : State) : exec .wakeLowShutdown s = .next (
    if s.sv.wakeLowShutdown && s.sv.up then (s.onSv fun v => { v with wake := false }).shutdown .watch
    else s.onSv fun v => { v with wake := false }) := rfl

end Sys2Proof.Proofs.Supervisor

namespace Sys2Proof.Proofs
open Sys2Proof.Machine Sys2Proof.Laws QuarryTime EngineOff Supervisor

/-- Settles O35: the five commands that sense VIN are `sensing`, and every other one is guarded by the state its clause names. That the
machine stops above the absolute maximum of R573 is the model's deduction (log entry 89). -/
theorem supplyCompletes : Obligations.SupplyCompletes := by
  intro s
  refine ⟨?rated, ?overVoltage, exec_wakeHigh_watch, ?low, ?lowKept, ?idle, ?limit, ?limitStall, ?warm, ?hot⟩
  case rated =>
    intro v hv
    have h := sensing_of_rated hv s
    exact ⟨h, h, h, h, h⟩
  case overVoltage =>
    intro v hv
    have h := sensing_of_overVoltage hv s
    exact ⟨h, h, h, h, h⟩
  case low =>
    intro hcfg hup
    rw [exec_wakeLowShutdown, if_pos (by simp [hcfg, hup])]
  case lowKept =>
    intro hcfg
    rw [exec_wakeLowShutdown, if_neg (by simp [hcfg])]
  case idle => exact fun hwatch => congrArg _ (if_pos (by simp [hwatch]))
  case limit => exact fun hup hrails => congrArg _ ((if_neg (by simp [hup])).trans (if_pos (by simp [hrails])))
  case limitStall => exact fun hup hrails => congrArg _ ((if_neg (by simp [hup])).trans (if_neg (by simpa using hrails)))
  case warm => exact fun t hup ht => congrArg _ ((if_neg (by simp [hup])).trans (if_neg (by omega)))
  case hot => exact fun t hup ht => congrArg _ ((if_neg (by simp [hup])).trans (if_pos ht))

end Sys2Proof.Proofs

namespace Sys2Proof.Proofs.Supervisor
open Sys2Proof.Machine Sys2Proof.Laws QuarryTime EngineOff

variable {s : State}

/-! ## Sequencing and BOOT (R554-R564) -/

section
variable (hseq : s.sv.st = .sequencing) (hrun : s.sv.retryWait = false)
include hseq hrun

theorem exec_sequencingStepTimeout : exec .sequencingStepTimeout s = .next (
    if s.sv.pass == 1 then s.backDown.onSv fun v => { v with failedStep := s.sv.step } else s.stall s.sv.step s.sv.step 2) :=
  congrArg _ (if_neg (by simp [hseq, hrun]))

end

/-- A first pass that came through enters BOOT without a retry to report (R555). -/
theorem enterBoot_of_first (hpass : s.sv.pass = 1) : s.enterBoot = s.onSv fun v => { v with
    st := .boot, step := 0, dramReady := true, imageOk := false, ldWait := v.source == 5, ldState := 0, ldChunk := 0, load := [] } := by
  simp [State.enterBoot, State.onSv, hpass]

theorem exec_imageCheckDone_boot (hboot : s.sv.st = .boot) (hno : s.sv.imageOk = false) {v : ImageVerdict}
    (hnext : s.sv.order.head? = some v.slot) (hload : v.slot = 2 → s.sv.ldState = 1) :
    exec (.imageCheckDone v) s = .next (if failedCheck s v = 0 then s.startImage v else s.refuseImage v.slot) := by
  have hready : (v.slot == 2 && s.sv.ldState != 1) = false := by
    by_cases h : v.slot = 2 <;> simp [h, hload]
  change execImageCheckDone v s = _
  simp [execImageCheckDone, hboot, hno, hnext, hready]

/-- A chunk of length 0 ends the image, whose check begins (R557). -/
theorem exec_bootChunkPost_last (hload : s.loading = true) (hno : s.sv.imageOk = false) (hopen : s.sv.ldState ≠ 1) (n : Nat)
    (data : List Byte) : exec (.bootChunkPost n 0 data) s =
    .next ((s.write (mailboxBase + 0x19848) (le 4 n ++ le 4 0 ++ le 4 0)).onSv fun v => { v with ldState := 1 }) := by
  change execBootChunkPost n 0 data s = _
  simp [execBootChunkPost, hload, hno, hopen]

/-- A phase is switched off and the seventh takes over (R550). -/
def phaseOut (s : State) (p : Nat) : State := (s.onSv fun v => { v with phaseOk := v.phaseOk - 2 ^ p }).spareNow

/-- Fewer than four working phases stall the module (R550). -/
def stallBelowFour (u : State) : State := if phaseCount u.sv.phaseOk < 4 then u.stallHere 0x30 else u

theorem exec_phaseFault (hup : s.sv.up = true) {p : Nat} (hon : bit s.sv.phaseOk p = true) : exec (.phaseFault p) s = .next (stallBelowFour
    (if (phaseOut s p).faults.phaseTrying.contains p then (phaseOut s p).phaseLost p else phaseOut s p)) :=
  congrArg _ (if_neg (by simp [hup, hon]))

/-- A first fault of a phase, with four others at work, is taken over by the seventh and no more. -/
theorem exec_phaseFault_spared (hup : s.sv.up = true) {p : Nat} (hon : bit s.sv.phaseOk p = true) (hfirst : p ∉ s.faults.phaseTrying)
    (hleft : 4 ≤ phaseCount (s.sv.phaseOk - 2 ^ p)) : exec (.phaseFault p) s = .next (phaseOut s p) := by
  have hnew : ¬ s.faults.phaseTrying.contains p = true := by simpa using hfirst
  rw [exec_phaseFault hup hon]
  exact congrArg Host.Outcome.next ((congrArg stallBelowFour (if_neg hnew)).trans (if_neg (not_lt.2 hleft)))

end Sys2Proof.Proofs.Supervisor

namespace Sys2Proof.Proofs
open Sys2Proof.Machine Sys2Proof.Laws QuarryTime EngineOff Supervisor

/-- Settles O36: a step of the sequence is the row of R554 its number names; in BOOT and for the phases each command stands behind the
guard its clause states. The start of the firmware is `firmwareReady` as the model orders R562. -/
theorem startupCompletes : Obligations.StartupCompletes := by
  intro s
  refine ⟨?step1, ?step9, ?step10, ?retry, ?stall, ?again, ?image, ?chunk, ?hostLoad, ?watchdog, ?ready, ?burn, ?fault, ?restart, ?clean⟩
  case step1 | step9 =>
    intro p k hseq hrun hstep
    change execSequencingStepReady p k s = _
    rw [execSequencingStepReady, if_neg (by simp [hseq, hrun]), hstep]
    rfl
  case step10 =>
    intro p k hseq hrun hstep hpass
    change execSequencingStepReady p k s = _
    rw [execSequencingStepReady, if_neg (by simp [hseq, hrun]), hstep]
    exact congrArg Host.Outcome.next (enterBoot_of_first hpass)
  case retry =>
    intro hseq hrun hpass
    rw [exec_sequencingStepTimeout hseq hrun, if_pos (by simp [hpass])]
  case stall =>
    intro hseq hrun hpass
    rw [exec_sequencingStepTimeout hseq hrun, if_neg (by simp [hpass])]
  case again => exact fun hseq hwait => congrArg _ (if_pos (by simp [hseq, hwait]))
  case image => exact fun v hboot hno hnext hload => exec_imageCheckDone_boot hboot hno hnext hload
  case chunk => exact fun n data hload hno hopen => exec_bootChunkPost_last hload hno hopen n data
  case hostLoad => exact fun hboot hsource hno hopen => congrArg _ (if_pos (by simp [hboot, hsource, hno, hopen]))
  case watchdog =>
    intro hboot hok hexpired
    exact congrArg _ ((if_neg (by simp [hboot, hok])).trans (if_pos (by simp [hexpired])))
  case ready =>
    rintro vio r failed _ hboot hok hr rfl
    exact ⟨_, congrArg Host.Outcome.next (if_neg (by simp [hboot, hok, hr])), rfl⟩
  case burn => exact fun hserves hold => congrArg _ (if_pos (by simp [hserves, hold]))
  case fault =>
    intro p hup hon hfirst hmany hone
    exact exec_phaseFault_spared hup hon hfirst (by omega)
  case restart =>
    intro p hup hp hrail hoff hgood
    exact congrArg _ (if_neg (by simp [hup, hp, hrail, hoff, hgood]))
  case clean =>
    intro p hserves htrying
    have hserves' : ((s.onFaults fun x => { x with phaseTrying := x.phaseTrying.filter (· != p) }).spareNow).serving = true := hserves
    exact congrArg Host.Outcome.next ((if_neg (by simp [htrying])).trans (if_pos hserves'))

end Sys2Proof.Proofs
end

section
/-! Clocks, the network side and the redundancy set (R383-R409, R436-R481): what each event does on a die that is on, and from these O39,
O44 and O43. -/
namespace Sys2Proof.Proofs.ClockEvents
open Sys2Proof.Machine

variable {s : State}

/-! ## The loop and its references (R436-R444) -/

/-- An update of a loop that follows a reference steers by the loop's output, which is kept while it is locked (R440, R442). -/
theorem exec_pllUpdate (hdie : s.dieOn = true) (hdecides : s.decides = true) (hselected : s.timing.selected.isSome = true)
    (hst : s.timing.st = .acquiring ∨ s.timing.st = .locked) {f : Int} {t : State} (hdraw : s.drawInt = (f, t)) :
    exec .pllUpdate s = .next (if (t.steerBy f true).timing.st = .locked then
      (t.steerBy f true).onTiming fun x => { x with fPast := (f :: x.fPast).take 61000 } else t.steerBy f true) := by
  have hfollows : (s.timing.st == .acquiring || s.timing.st == .locked) = true := by simpa using hst
  change execPllUpdate s = _
  simp only [execPllUpdate, hdie, hdecides, hselected, hfollows, hdraw, Bool.and_self, Bool.not_true, Bool.false_eq_true, if_false,
    beq_iff_eq]

theorem exec_referenceEvent (hdie : s.dieOn = true) {c : Nat} (hc : c < 8) (e : Int) (q : Nat) :
    exec (.referenceEvent c e q) s = .next (s.referenceIn c e q) := congrArg _ (if_pos (by simp [hdie, hc]))

theorem exec_candidateValid (hdie : s.dieOn = true) {c : Nat} (hc : c < 8) (henable : (s.cand c).enable = true)
    (hpresent : (s.cand c).present = true) (hquality : 0 < s.candQuality c) :
    exec (.candidateValid c) s = .next (s.setCand c fun c => { c with valid := true }).reselect :=
  congrArg _ (if_pos (by simp [hdie, hc, henable, hpresent, hquality]))

theorem exec_candidateLost (hdie : s.dieOn = true) {c : Nat} (hc : c < 8)
    (hthere : (s.cand c).valid = true ∨ (s.cand c).present = true) : exec (.candidateLost c) s = .next (s.loseCand c) :=
  congrArg _ (if_pos (by rcases hthere with h | h <;> simp [hdie, hc, h]))

/-- A step that is due is made, unless a time set is under way (R449). -/
theorem exec_phaseStepApply (hdie : s.dieOn = true) {e : Int} {i a b : Nat} (hdue : s.timing.stepDue = some (e, i, a, b))
    (hset : s.setting = false) :
    exec .phaseStepApply s = .next ((s.onTiming fun t => { t with stepDue := none }).phaseStep e i a b) := by
  have hset' : (s.onTiming fun t => { t with stepDue := none }).setting = false := hset
  change execPhaseStepApply s = _
  simp [execPhaseStepApply, hdue, hdie, hset']

theorem exec_holdoverExpiry (hdie : s.dieOn = true) {t : Nat} (hexpiry : holdExpiry s.timing = some t) (hhold : s.timing.st = .holdover)
    (hfresh : s.timing.expired = false) :
    exec .holdoverExpiry s = .next ((s.carryTo (s.timing.holdFrom + t)).expireHold).reselect := by
  change execHoldoverExpiry s = _
  simp [execHoldoverExpiry, hexpiry, hdie, hhold, hfresh]

theorem exec_calibrationWrite (hdie : s.dieOn = true) (hlocked : s.timing.st = .locked) :
    exec .calibrationWrite s = .next ((holdMean s).2.calibrate (holdMean s).1) := congrArg _ (if_pos (by simp [hdie, hlocked]))

/-- Without a past of the loop before its last second the record is its present output (R442). -/
theorem holdMean_of_young (hyoung : s.timing.fPast.drop 1000 = []) : (holdMean s).1 = s.timing.f := by
  simp [holdMean, hyoung]

end Sys2Proof.Proofs.ClockEvents

namespace Sys2Proof.Proofs
open Sys2Proof.Machine ClockEvents

/-- Settles O39: each clause is the event's rule above. -/
theorem clockEventsComplete : Obligations.ClockEventsComplete := fun s hdie =>
  ⟨fun _ _ hdecides hselected hst hdraw => exec_pllUpdate hdie hdecides hselected hst hdraw,
    fun _ e q hc => exec_referenceEvent hdie hc e q, fun _ => exec_candidateValid hdie, fun _ => exec_candidateLost hdie,
    fun _ _ _ _ hdue hset => exec_phaseStepApply hdie hdue hset, fun _ => exec_holdoverExpiry hdie,
    fun hlocked => ⟨(holdMean s).1, _, exec_calibrationWrite hdie hlocked, rfl, holdMean_of_young⟩⟩

end Sys2Proof.Proofs

namespace Sys2Proof.Proofs.NetworkEvents
open Sys2Proof.Machine

variable {s : State} {p : Nat}

/-! ## Frames, links and addresses (R382-R388) -/

section
variable (hdie : s.dieOn = true) (hlink : (s.ethAt p).carries = true)
include hdie hlink

/-- A frame that the port drops is counted and no more. -/
theorem exec_ethFrameReceived_dropped {f : EthFrame} (hdrop : (s.frameIn p f).1 = false) :
    exec (.ethFrameReceived p f) s = .next (s.frameIn p f).2 := by
  change execEthFrameReceived p f s = _
  simp [execEthFrameReceived, hdie, hlink, hdrop]

theorem exec_ethFrameReceived_ruzia {f : EthFrame} {d : Datagram} (hkept : (s.frameIn p f).1 = true) (hbody : f.body = .ruzia d) :
    exec (.ethFrameReceived p f) s = .next ((s.frameIn p f).2.datagramIn { d with port := p }) := by
  change execEthFrameReceived p f s = _
  simp [execEthFrameReceived, hdie, hlink, hkept, hbody]

theorem exec_ethFrameReceived_other {f : EthFrame} (hkept : (s.frameIn p f).1 = true) (hbody : ∀ d, f.body ≠ .ruzia d) :
    exec (.ethFrameReceived p f) s = .next ((s.frameIn p f).2.netIn p f) := by
  change execEthFrameReceived p f s = _
  cases hb : f.body
  case ruzia d => exact absurd hb (hbody d)
  all_goals simp [execEthFrameReceived, hdie, hlink, hkept, hb]

theorem exec_arpRefresh {ip : Nat} (hknown : ((s.ethAt p).arp.any fun a => a.1 == ip) = true) (hused : arpUsed s p ip = true) :
    exec (.arpRefresh p ip) s = .next ((s.emit (.ethSend p 1 [ip])).txFrame p (64 + tagOctets s p)) :=
  congrArg _ (if_pos (by simp [hdie, hlink, hknown, hused]))

end

/-- A link that does not carry traffic afterwards is reported to the port's owner and moves no Stream (R393, R400). -/
theorem exec_ethLinkChange_idle (hdie : s.dieOn = true) (hport : (resolvePort s (portHandle (768 + p)) 0).toBool = true)
    {up : Bool} {speed : Nat} {t : State} (ht : t = s.setEth p fun e => { e with link := up, speed := if up then speed else 0 })
    (hidle : (t.ethAt p).carries = false) : exec (.ethLinkChange p up speed) s = .next (t.raiseObj (t.ethAt p).owner 0x1401
      (le 4 (portHandle (768 + p)) ++ le 1 (if up then 1 else 0) ++ le 1 (t.ethAt p).speedByte ++ le 2 0)) := by
  subst ht
  exact congrArg Host.Outcome.next ((if_neg (by simp [hdie, hport])).trans (if_neg (by simp [hidle])))

/-- A lease with another address is taken over and reported (R386). -/
theorem exec_dhcpLeaseEvent (hserves : s.serving = true) (hdhcp : (s.ethAt p).dhcp = true) (hlink : (s.ethAt p).carries = true)
    {a : Nat} (hnew : (s.ethAt p).addr ≠ a) (m g : Nat) : exec (.dhcpLeaseEvent p a m g) s =
      .next ((s.setEth p fun e => { e with addr := a, mask := m, gateway := g }).raiseObj (s.ethAt p).owner 0x1403
        (le 4 (portHandle (768 + p)) ++ le 4 a ++ le 4 m ++ le 4 g)) :=
  congrArg _ (if_neg (by simp [hserves, hdhcp, hlink, hnew]))

/-! ## PTP (R403-R407) -/

theorem exec_ptpSync_slave (hdie : s.dieOn = true) (hon : s.ptp.on = true) (hmember : s.ptp.ports.contains p = true)
    (hlink : (s.ethAt p).carries = true) (hslave : ptpStateOf (s.addCtr (ctrEth p 6) 1) p = ptpSlave) (e : Int) :
    exec (.ptpMessageReceived p (.sync e)) s = .next ((s.addCtr (ctrEth p 6) 1).ptpMeasure p e) :=
  congrArg _ <| (if_neg (by simp [hdie, hon, hlink, List.contains_iff_mem.1 hmember])).trans (if_pos (by simp [hslave]))

/-- A one-step master sends its Sync and no Follow_Up. -/
theorem exec_ptpSync_master (hdie : s.dieOn = true) (hlink : (s.ethAt p).carries = true) (hserves : ptpServes s.ptpRefresh p = true)
    (hstep : s.ptpRefresh.ptp.step = 1) :
    exec (.ptpMessageInterval p ptpSync) s = .next (s.ptpRefresh.ptpOut p ptpSync 44 []) := by
  have honeStep : ¬ ((s.ptpRefresh.ptpOut p ptpSync 44 []).ptp.step == 2) = true := by
    change ¬ (s.ptpRefresh.ptp.step == 2) = true
    simp [hstep]
  exact congrArg Host.Outcome.next <| (if_neg (by simp [hdie, hlink])).trans <| (if_pos (by simp [hserves])).trans (if_neg honeStep)

theorem exec_announceReceiptTimeout (hdie : s.dieOn = true) (hon : s.ptp.on = true) (hmember : s.ptp.ports.contains p = true) :
    exec (.announceReceiptTimeout p) s = .next (State.ptpSettle
      { s with ptp := { s.ptp with foreign := s.ptp.foreign.filter (fun x => x.1 != p), silent := (p :: s.ptp.silent).eraseDups } }) :=
  congrArg _ (if_neg (by simp [hdie, hon, List.contains_iff_mem.1 hmember]))

/-! ## Streams (R391-R399) -/

theorem exec_streamPacketReceived (hdie : s.dieOn = true) (hp : p < 32) (hlink : (s.ethAt p).carries = true) (r : RtpPacket) :
    exec (.streamPacketReceived p r) s = .next (s.rtpIn p r) := congrArg _ (if_pos (by simp [hdie, hp, hlink]))

section
variable {h : Nat} {o : Obj} {x : Stream} (hdie : s.dieOn = true) (hobj : s.obj h = some o) (hstream : o.stream? = some x)
include hdie hobj hstream

theorem exec_streamPacketLaunch (htx : x.tx = true) (hruns : (s.dom o.dom).runs = true)
    (hheard : x.silentAt (x.next * x.n (s.mult o.dom)) = false) : exec (.streamPacketLaunch h) s = .next (s.launchPacket o x) := by
  change execStreamPacketLaunch h s = _
  simp [execStreamPacketLaunch, hobj, hstream, htx, hdie, hruns, hheard]

theorem exec_streamPathDownTimeout {k : Nat} (hpath : x.hasPath k = true) (hup : x.up.getD (k - 1) false = true) :
    exec (.streamPathDownTimeout h k) s = .next (s.setPath o k false) := by
  change execStreamPathDownTimeout h k s = _
  simp only [execStreamPathDownTimeout, hobj, hstream, hpath, hup, hdie, Bool.and_self, if_true]

theorem exec_streamPathUp {k : Nat} (hpath : x.hasPath k = true) (hdown : x.up.getD (k - 1) true = false)
    (hrun : 8 ≤ x.runs.getD (k - 1) 0) : exec (.streamPathUp h k) s = .next (s.setPath o k true) := by
  change execStreamPathUp h k s = _
  simp only [execStreamPathUp, hobj, hstream, hpath, hdown, hdie, decide_eq_true hrun, Bool.not_false, Bool.and_self, if_true]

end

end Sys2Proof.Proofs.NetworkEvents

namespace Sys2Proof.Proofs
open Sys2Proof.Machine NetworkEvents

/-- Settles O44: each clause is the event's rule above. -/
theorem networkEventsComplete : Obligations.NetworkEventsComplete := fun _ _ hdie =>
  ⟨fun _ hlink => exec_ethFrameReceived_dropped hdie hlink, fun _ _ hlink => exec_ethFrameReceived_ruzia hdie hlink,
    fun _ hlink => exec_ethFrameReceived_other hdie hlink, fun _ _ _ hport => exec_ethLinkChange_idle hdie hport,
    fun _ hlink => exec_arpRefresh hdie hlink,
    fun _ m g hserves hdhcp hlink hnew => exec_dhcpLeaseEvent hserves hdhcp hlink hnew m g,
    fun e hon hmember hlink hslave => exec_ptpSync_slave hdie hon hmember hlink hslave e, exec_ptpSync_master hdie,
    exec_announceReceiptTimeout hdie, fun _ _ _ => exec_streamPacketLaunch hdie,
    fun r hp hlink => exec_streamPacketReceived hdie hp hlink r, fun _ _ _ _ hobj hstream => exec_streamPathDownTimeout hdie hobj hstream,
    fun _ _ _ _ hobj hstream => exec_streamPathUp hdie hobj hstream⟩

end Sys2Proof.Proofs

namespace Sys2Proof.Proofs.RedundancyEvents
open Sys2Proof.Machine

variable {s : State} {i : Nat} {p : Peer}

/-! ## Peers (R463, R468, R481) -/

theorem exec_tetherFrameReceived (hdie : s.dieOn = true) (hset : s.red.mode ≠ 0) (i : Nat) (f : TetherFrame) :
    exec (.tetherFrameReceived i f) s = .next (s.tetherIn i f) := congrArg _ (if_pos (by simp [hdie, hset]))

theorem exec_peerLostTimeout (hdie : s.dieOn = true) (hpeer : s.peer i = some p) (hseen : p.seen = true) (hkept : p.lost = false) :
    exec (.peerLostTimeout i) s = .next (s.losePeer i p) := by
  change execPeerLostTimeout i s = _
  simp [execPeerLostTimeout, hpeer, hdie, hseen, hkept]

theorem exec_ackTimeout (hdie : s.dieOn = true) (hpeer : s.peer i = some p) (hactive : s.red.role = .active)
    (hawaited : p.awaited = true) : exec (.ackTimeout i) s =
      .next (s.setPeer i fun p => { p with hdr := { p.hdr with ready := false, role := 3 } }).releaseHeld := by
  change execAckTimeout i s = _
  simp [execAckTimeout, hpeer, hdie, hactive, hawaited]

theorem exec_tetherSelfRelease (hdie : s.dieOn = true) (hset : s.red.mode ≠ 0) : exec .tetherSelfRelease s =
    .next (s.onRed fun r => { r with ownOut := false, settle := false, backoff := false }) :=
  congrArg _ (if_pos (by simp [hdie, hset]))

theorem exec_formationTimeout (hdie : s.dieOn = true) (hforming : s.red.role = .forming)
    (hnone : (s.red.peers.any fun p => p.seen) = false) : exec .formationTimeout s =
      .next ((if s.red.ownIn.any id then s.goStale else s.goActive).redDone 0x0E01 0) :=
  congrArg _ (if_pos (by rw [hdie, hforming, hnone]; rfl))

/-! ## The ownership wires (R474-R477) -/

theorem exec_ownReleaseSensed (hdie : s.dieOn = true) (hi : i < 2) (hasserted : s.red.ownIn.getD i false = true) :
    exec (.ownReleaseSensed i) s = .next (s.onRed fun r => { r with ownIn := modAt r.ownIn i fun _ => false }).tryTakeover :=
  congrArg _ (if_pos (by rw [hdie, decide_eq_true hi, hasserted]; rfl))

/-- A peer's assertion is noted; one that meets this member's own in its settle time makes it release and back off (R477). -/
theorem exec_ownAssertSensed (hdie : s.dieOn = true) (hi : i < 2) : exec (.ownAssertSensed i) s = .next (s.onRed fun r =>
    if r.settle then { r with ownIn := modAt r.ownIn i fun _ => true, ownOut := false, settle := false, backoff := true }
    else { r with ownIn := modAt r.ownIn i fun _ => true }) := congrArg _ (if_pos (by simp [hdie, hi]))

theorem onRed_congr {g h : Red → Red} (e : g s.red = h s.red) : s.onRed g = s.onRed h := by simp only [State.onRed, e]

theorem exec_takeoverSettleEnd (hdie : s.dieOn = true) (hsettle : s.red.settle = true) (hown : s.red.ownOut = true)
    (hfree : (s.red.ownIn.any id) = false) : exec .takeoverSettleEnd s = .next (
      ((if s.red.role == .standby then { s with desks := s.desks.map Desk.resume } else s).onRed fun r =>
        { r with settle := false, switchDue := none }).setRole .active) :=
  congrArg _ (if_pos (by rw [hdie, hsettle, hown, hfree]; rfl))

/-- The wait after a collision is over: this member asserts again unless a peer does or it is fenced (R477). -/
theorem exec_ownCollisionBackoff (hdie : s.dieOn = true) (hbackoff : s.red.backoff = true) : exec .ownCollisionBackoff s = .next (
    if s.red.ownIn.any id || s.red.fenced then s.onRed fun r => { r with backoff := false } else s.assertOwn) :=
  congrArg _ (if_pos (by simp [hdie, hbackoff]))

/-! ## The fence (R478) -/

theorem exec_fenceAsserted (hdie : s.dieOn = true) (htriad : s.red.mode = 2) :
    exec .fenceAsserted s = .next (s.onRed fun r => { r with fenced := true }).goStale := congrArg _ (if_pos (by simp [hdie, htriad]))

theorem exec_fenceReleased (hdie : s.dieOn = true) (hfenced : s.red.fenced = true) :
    exec .fenceReleased s = .next (s.onRed fun r => { r with fenced := false }) := congrArg _ (if_pos (by simp [hdie, hfenced]))

end Sys2Proof.Proofs.RedundancyEvents

namespace Sys2Proof.Proofs
open Sys2Proof.Machine RedundancyEvents

/-- Settles O43: each clause is the event's rule above, on the side of its condition that the clause names. -/
theorem redundancyEventsComplete : Obligations.RedundancyEventsComplete := by
  intro s hdie
  refine ⟨fun i f hset => exec_tetherFrameReceived hdie hset i f, fun _ _ => exec_peerLostTimeout hdie, exec_tetherSelfRelease hdie,
    fun _ _ => exec_ackTimeout hdie, exec_formationTimeout hdie, fun _ => exec_ownReleaseSensed hdie, ?noted, ?collided, ?settled,
    ?succeeded, ?held, ?again, exec_fenceAsserted hdie, exec_fenceReleased hdie⟩
  case noted =>
    intro i hi hsettle
    exact (exec_ownAssertSensed hdie hi).trans <| congrArg Host.Outcome.next <| onRed_congr (if_neg (by rw [hsettle]; exact Bool.false_ne_true))
  case collided =>
    intro i hi hsettle
    exact (exec_ownAssertSensed hdie hi).trans <| congrArg Host.Outcome.next <| onRed_congr (if_pos hsettle)
  case settled =>
    intro hsettle hown hfree hother
    rw [exec_takeoverSettleEnd hdie hsettle hown hfree, if_neg (by simp [hother])]
  case succeeded =>
    intro hsettle hown hfree hstandby
    rw [exec_takeoverSettleEnd hdie hsettle hown hfree, if_pos (by simp [hstandby])]
  case held =>
    intro hbackoff hasserted
    rw [exec_ownCollisionBackoff hdie hbackoff, if_pos (by rw [hasserted, Bool.true_or])]
  case again =>
    intro hbackoff hfree hunfenced
    rw [exec_ownCollisionBackoff hdie hbackoff, if_neg (by rw [hfree, hunfenced]; exact Bool.false_ne_true)]
    rfl

end Sys2Proof.Proofs
end

section
/-! The commands of the field ports, of redundancy, faults and spares, of the Seam and of Ethernet (R327-R329, R336, R337, R341): a command
whose own checks all pass is answered with its effect in force, or is held until its later stage. Each proof walks the checks of the
command's body in their order (R309). From these O12, O20, O23 and O24. -/
namespace Sys2Proof.Proofs.LinkCommands
open Sys2Proof.Machine Sys2Proof.Laws RingsAndRoutes

variable {f : CmdFrame} {s : State}

/-- The landings of the command's slots on a lane. -/
def slotsLanded (f : CmdFrame) (l : Lane) : List (Nat × Nat) := l.lands.filter fun b => u16 f 4 ≤ b.1 && b.1 < u16 f 4 + u16 f 6

/-- What `seam.land` does past the checks that its two forms share: ring 0 takes the slots from the rings they land in, and slots that
land nowhere become the writers of rings that have none (R49). -/
def landSlots (s : State) (f : CmdFrame) (i : Nat) : Except Err (State × Resp) :=
  let l := s.lane i
  let mine := slotsLanded f l
  if u32 f 8 == 0 then
    okResp ((mine.foldl (fun s b => s.unbindWriter b.2) s).setLane i fun x =>
      { x with lands := x.lands.filter fun b => !(u16 f 4 ≤ b.1 && b.1 < u16 f 4 + u16 f 6) })
  else do
    let rs ← landRings s f l.mult (u16 f 6) (u32 f 8)
    need mine.isEmpty eState 4 (u32 f 0)
    let s ← State.bindWriters (laneHandle i) 2 rs (u16 f 4) s
    okResp (s.setLane i fun x => { x with lands := x.lands ++ rs.zipIdx.map fun r => (u16 f 4 + r.2, r.1) })

theorem seamLandBody_eq_landSlots {i : Nat} (hi : lanePort s (u32 f 0) 0 = .ok i)
    (hring : (u32 f 8 != 0) = true → ∃ y, names s (u32 f 8) [tRing] y) (hdesk : f.desk = (s.lane i).owner ∨ f.desk = 0)
    (hfirst : u16 f 4 < (s.lane i).slots)
    (hfit : (decide (1 ≤ u16 f 6) && decide (u16 f 6 ≤ 64) && decide (u16 f 4 + u16 f 6 ≤ (s.lane i).slots)) = true)
    (hmode : seamMode s i = true) : seamLandBody s f = landSlots s f i :=
  ok_then hi <| onlyIf_then (fun hsome k => let ⟨_, hy⟩ := hring hsome; resolve_then hy k) <| owned_then hdesk <|
    need_then (decide_eq_true hfirst) <| need_then hfit <| need_then hmode rfl

end Sys2Proof.Proofs.LinkCommands

namespace Sys2Proof.Proofs
open Sys2Proof.Machine Sys2Proof.Laws RingsAndRoutes Blocks LinkCommands

/-- Settles O12: the checks of each body pass in their order; those of a function's target are made for the functions that have one, and
those of a recall for a target that is no Scene. -/
theorem fieldPortCompletes : Obligations.FieldPortCompletes := by
  intro f s
  refine ⟨?gpiBind, ?gpoBind, ?gpoSet, ?gpoClear⟩
  case gpiBind =>
    rintro t g hg _ rfl _ rfl _ rfl _ rfl htarget harm harmDesk hdesk hfn hedge hzero hnone hcough
    refine ruzia_of_okResp t <| ok_then hg <|
      onlyIf_then (fun hobj k => let ⟨_, ho, hown, hmine⟩ := htarget hobj; resolve_then ho <| owned_then hown <| need_then hmine k) <|
      onlyIf_then (fun hrec k => need_then (harm hrec) <| need_then (harmDesk hrec) k) ?_
    exact owned_then hdesk <| need_then (decide_eq_true hfn) <| need_then (decide_eq_true hedge) <| reserved_then hzero <|
      need_then hnone <| need_then hcough rfl
  case gpoBind =>
    rintro t g hg _ rfl hsource hdesk hfn hzero hnone hlevel
    exact ruzia_of_okResp t <| ok_then hg <| onlyIf_then (fun hobj k => let ⟨_, hy⟩ := hsource hobj; resolve_then hy k) <|
      owned_then hdesk <| need_then (decide_eq_true hfn) <| reserved_then hzero <| need_then hnone <|
      need_then (decide_eq_true hlevel) rfl
  case gpoSet =>
    rintro t g hg _ rfl hdesk hwant hzero hmanual
    exact ruzia_of_okResp t <| ok_then hg <| owned_then hdesk <| need_then (decide_eq_true hwant) <| reserved_then hzero <|
      need_then hmanual rfl
  case gpoClear =>
    intro t g hg hdesk
    exact ruzia_of_okResp t <| ok_then hg <| owned_then hdesk rfl

/-- Settles O20: the checks of each body pass in their order; `red.config` to MODE 0 leaves the set, any other joins one. -/
theorem redFaultCompletes : Obligations.RedFaultCompletes := by
  intro f s
  refine ⟨?info, ?single, ?join, ?rejoin, ?log, ?clear, ?spares, ?test⟩
  case info =>
    rintro t _ rfl
    exact ruzia_of_okResp t rfl
  case single =>
    rintro t _ rfl _ rfl _ rfl hmode hclaim hzero hthird hzeroMode hquiet hroom _ rfl _ rfl
    exact ruzia_of_accResp t <| need_then (decide_eq_true hmode) <| need_then hclaim <| reserved_then hzero <| need_then hthird <|
      (if_pos hzeroMode).trans <| need_then hquiet <| mayDefer_then hroom rfl
  case join =>
    rintro t _ rfl _ rfl _ rfl hmode hclaim hzero hthird hset hjoin hroom _ rfl _ rfl _ rfl
    exact ruzia_of_accResp t <| need_then (decide_eq_true hmode) <| need_then hclaim <| reserved_then hzero <| need_then hthird <|
      (if_neg hset).trans <| need_then hjoin <| mayDefer_then hroom rfl
  case rejoin =>
    rintro t hstale hroom _ rfl
    exact ruzia_of_accResp t <| need_then hstale <| mayDefer_then hroom rfl
  case log =>
    rintro t hzero _ rfl
    exact ruzia_of_okResp t <| reserved_then hzero rfl
  case clear => exact fun t => ruzia_of_okResp t rfl
  case spares =>
    rintro t _ rfl
    exact ruzia_of_okResp t rfl
  case test =>
    rintro t _ rfl _ rfl hkind hzero hunit hplace htests hwork hroom spare more hspares _ rfl _ rfl
    refine ruzia_of_accResp t <| need_then hkind <| reserved_then hzero <| need_then (decide_eq_true hunit) <| need_then hplace <|
      need_then htests <| need_then hwork <| mayDefer_then hroom ?_
    rw [hspares]

/-- Settles O23: the checks of each body pass in their order; the two forms of `seam.land` share `seamLandBody_eq_landSlots`. That ERRORS
and BITS of `seam.test` are free values is the model's choice (log entry 56). -/
theorem seamCompletes : Obligations.SeamCompletes := by
  intro f s
  refine ⟨?info, ?config, ?unland, ?land, ?fwdSet, ?fwdGet, ?id, ?depth, ?test⟩
  case info =>
    rintro t i hi _ rfl
    exact ruzia_of_okResp t <| ok_then hi rfl
  case config =>
    rintro t i hi _ rfl hmult hwindow hup hzero hidle hpair _ rfl _ rfl
    exact ruzia_of_okResp t <| ok_then hi <| need_then hmult <| need_then hwindow <| need_then (decide_eq_true hup) <|
      reserved_then hzero <| need_then hidle <| need_then hpair rfl
  case unland =>
    rintro t i hi _ rfl hring hdesk _ rfl _ rfl hfirst hfit hmode _ rfl hnone _ rfl
    exact ruzia_of_okResp t <| (seamLandBody_eq_landSlots hi hring hdesk hfirst hfit hmode).trans <| if_pos hnone
  case land =>
    rintro t i hi _ rfl hring hdesk _ rfl _ rfl hfirst hfit hmode _ rfl hsome rs hrs hfree s₁ hbound
    exact ruzia_of_okResp t <| (seamLandBody_eq_landSlots hi hring hdesk hfirst hfit hmode).trans <| (if_neg hsome).trans <|
      ok_then hrs <| need_then hfree <| ok_then hbound rfl
  case fwdSet =>
    rintro t i hi _ rfl _ rfl hfirst hfit l hl hdom b hb hlength hmode hroom
    exact ruzia_of_accResp t <| ok_then hi <| need_then (decide_eq_true hfirst) <| need_then hfit <| ok_then hl <| need_then hdom <|
      ok_then hb <| need_then hlength <| need_then hmode <| mayDefer_then hroom rfl
  case fwdGet =>
    rintro t i hi _ rfl _ rfl hfirst hfit
    exact ruzia_of_okResp t <| ok_then hi <| need_then (decide_eq_true hfirst) <| need_then hfit rfl
  case id =>
    rintro t hid hzero hdown _ rfl
    exact ruzia_of_okResp t <| need_then (decide_eq_true hid) <| reserved_then hzero <| need_then hdown rfl
  case depth =>
    rintro t _ rfl hrange hzero hkeeper hmin htake hidle hroom _ rfl _ rfl _ rfl
    exact ruzia_of_accResp t <| need_then hrange <| reserved_then hzero <| need_then hkeeper <| need_then (decide_eq_true hmin) <|
      need_then htake <| need_then hidle <| mayDefer_then hroom rfl
  case test =>
    rintro t i hi _ rfl hpattern hloop hzero hmode _ rfl hidle e s₁ herrors b s₂ hbits _ rfl _ rfl
    refine ruzia_of_okResp t <| ok_then hi <| need_then (decide_eq_true hpattern) <| need_then (decide_eq_true hloop) <|
      reserved_then hzero <| need_then hmode <| need_then hidle ?_
    rw [herrors]; dsimp only; rw [hbits]

/-- Settles O24: the checks of each body pass in their order. -/
theorem ethCompletes : Obligations.EthCompletes := by
  intro f s
  refine ⟨?info, ?config, ?ptp⟩
  case info =>
    rintro t p hp _ rfl
    exact ruzia_of_okResp t <| ok_then hp rfl
  case config =>
    rintro t p hp _ rfl hmask hvlan hmgmt hdhcp _ rfl hidle _ rfl
    exact ruzia_of_okResp t <| ok_then hp <| need_then hmask <| need_then (decide_eq_true hvlan) <|
      need_then (decide_eq_true hmgmt) <| need_then (decide_eq_true hdhcp) <| need_then hidle rfl
  case ptp =>
    rintro t ports hports hprofile hdomain hrole hstep _ rfl hcount hzero hdistinct _ rfl _ rfl
    exact ruzia_of_okResp t <| ok_then hports <| need_then (decide_eq_true hprofile) <| need_then (decide_eq_true hdomain) <|
      need_then (decide_eq_true hrole) <| need_then hstep <| need_then ((apply_ite (· = true) _ _ _).mpr hcount) <| reserved_then hzero <| need_then hdistinct rfl

end Sys2Proof.Proofs
end
